-- ==== Sys2Proof/Word.lean ====
section
/-! DEFINITION. The plain data the model is built from: sparse tables in one canonical form, register fields and
bytes.  Values that the spec counts, wraps or compares are naturals reduced by the operation that writes them. -/

namespace Sys2Proof

/-- A sparse table: (key, value) pairs, keys strictly rising, no entry equal to what an unlisted key reads as. -/
abbrev Cells := List (Nat × Nat)

/-- A register field: the address of the first word of its register, its lowest bit and its width. -/
structure Fld where
  addr  : Nat
  lsb   : Nat
  width : Nat
  deriving DecidableEq, Repr

/-- The key of a field in the register table: its address and its lowest bit. -/
def Fld.key (f : Fld) : Nat := f.addr * 32 + f.lsb

namespace Cells

/-- The value at a key; `d` is what an unlisted key reads as. -/
def look (d : Nat → Nat) : Cells → Nat → Nat
  | [], k => d k
  | (a, v) :: t, k => if a = k then v else look d t k

/-- The table without a key. -/
def drop (k : Nat) : Cells → Cells
  | [] => []
  | (a, v) :: t => if a = k then drop k t else (a, v) :: drop k t

/-- The table with an entry put in its place in the rising order of the keys. -/
def ins (k v : Nat) : Cells → Cells
  | [] => [(k, v)]
  | (a, w) :: t => if k < a then (k, v) :: (a, w) :: t else (a, w) :: ins k v t

/-- Writing a value: an entry equal to the unlisted value is not kept. -/
def store (d : Nat → Nat) (m : Cells) (k v : Nat) : Cells :=
  if v = d k then drop k m else ins k v (drop k m)

/-- Every key of the table lies above `k`. -/
def above (k : Nat) : Cells → Bool
  | [] => true
  | (a, _) :: _ => decide (k < a)

/-- The canonical form: keys strictly rising, no entry equal to the unlisted value. -/
def wf (d : Nat → Nat) : Cells → Bool
  | [] => true
  | (a, v) :: t => above a t && decide (v ≠ d a) && wf d t

end Cells

/-- The value of a list of bits, least significant first. -/
def ofBits : List Bool → Nat
  | [] => 0
  | b :: t => (if b then 1 else 0) + 2 * ofBits t

/-- The low `n` bits of a number, least significant first. -/
def toBits : Nat → Nat → List Bool
  | 0, _ => []
  | n + 1, v => (v % 2 == 1) :: toBits n (v / 2)

/-- The value of little-endian bytes (R10). -/
def ofBytes : List Nat → Nat
  | [] => 0
  | b :: t => b % 256 + 256 * ofBytes t

/-- A number as `n` little-endian bytes (R10). -/
def toBytes : Nat → Nat → List Nat
  | 0, _ => []
  | n + 1, v => v % 256 :: toBytes n (v / 256)

/-- Bits [hi:lo] of a number. -/
def bits (v hi lo : Nat) : Nat := v / 2 ^ lo % 2 ^ (hi + 1 - lo)

/-- Bit i of a number. -/
def bit (v i : Nat) : Bool := v / 2 ^ i % 2 == 1

/-- 1 for true, 0 for false. -/
def b2n (b : Bool) : Nat := if b then 1 else 0

/-- The list entry at `i`, or `d` past the end. -/
def nth {α : Type} (l : List α) (i : Nat) (d : α) : α := l.getD i d

/-- A list with its `i`-th entry replaced by `f` of it. -/
def modifyNth {α : Type} (l : List α) (i : Nat) (f : α → α) : List α :=
  match l, i with
  | [], _ => []
  | x :: t, 0 => f x :: t
  | x :: t, n + 1 => x :: modifyNth t n f

end Sys2Proof
end

