-- ==== Sys2Proof/Syntax.lean ====
section
/-! DEFINITION. The commands and events of the block: one constructor per row of spec/opcode_table.json, in the table's
order, with the operands the row's rule needs.  The mailbox commands name the slot that holds them; frames and datagrams
carry their bytes as the spec's own layouts give them. -/

namespace Sys2Proof

/-- The two mailbox transports (R251): BAR0 slots and UDP virtual slots. -/
inductive Transport where
  | bar | udp
  deriving DecidableEq, Repr

/-- A mailbox slot of one transport (R250, R265). -/
structure SlotRef where
  transport : Transport
  slot : Nat
  deriving DecidableEq, Repr

/-- A UDP mailbox datagram as received (R264): source host, Ethernet port, the 16-byte header and the body. -/
structure Datagram where
  host : Nat
  port : Nat
  bytes : List Nat
  deriving DecidableEq, Repr

/-- What rings a mailbox doorbell (R251, R265): a write of MBX_DB or a CMD datagram. -/
inductive DoorbellSrc where
  | bar (slot : Nat)
  | udp (d : Datagram)
  deriving DecidableEq, Repr

/-- The initiator of a register write (R6, R331, R249): the host through BAR0, or a Headstock core. -/
inductive Writer where
  | host
  | core (c : Nat)
  deriving DecidableEq, Repr

/-- The kind of a Headstock access (R319). -/
inductive AccessKind where
  | read | write | exec
  deriving DecidableEq, Repr

/-- An accepted change of an encoder's inputs (R118, R119, R121): one count up or down, or both inputs at once. -/
inductive EncEdge where
  | up | down | both
  deriving DecidableEq, Repr

/-- What every PTP message is judged by (R351): majorVersionPTP, domainNumber, logMessageInterval. -/
structure PtpHead where
  version : Nat
  domain : Nat
  logInterval : Int
  deriving DecidableEq, Repr

/-- A PTP Sync, with its Follow_Up where two-step (R354, R356): the master's stamp, the correction field in 2⁻¹⁶ ns and the
raw ingress stamp of TIME40 in 1/16 ns. -/
structure PtpSync where
  head : PtpHead
  seconds : Nat
  ns : Nat
  correction : Int
  rawIn : Nat
  deriving DecidableEq, Repr

/-- The data set an Announce carries (R351, R353, R355): what clause 9.3 compares, and the UTC offset. -/
structure PtpAnnounce where
  head : PtpHead
  priority1 : Nat
  clockClass : Nat
  accuracy : Nat
  variance : Nat
  priority2 : Nat
  /-- grandmasterIdentity, first octet first. -/
  gmId : List Nat
  stepsRemoved : Nat
  /-- Identity of the sending port, first octet first. -/
  sender : List Nat
  utcOffset : Nat
  utcValid : Bool
  deriving DecidableEq, Repr

/-- The four stamps of a delay or peer-delay exchange (R356) in 1/16 ns, in the order of the exchange, and the sum of its
correction fields in 2⁻¹⁶ ns.  Delay request-response: t1, t4 the master's, t2, t3 raw local; peer delay: t1, t4 raw
local, t2, t3 the peer's. -/
structure PtpDelay where
  head : PtpHead
  t1 : Nat
  t2 : Nat
  t3 : Nat
  t4 : Nat
  correction : Int
  deriving DecidableEq, Repr

/-- The commands and events of the GY8. -/
inductive Instr where
  /-- POWER_ON_RESET (R296). -/
  | powerOnReset
  /-- RESET_N_ASSERT (R296). -/
  | resetNAssert (lowNs : Nat)
  /-- RESET_RELEASE (R426). -/
  | resetRelease (s0 : Nat) (s1 : Nat) (s2 : Nat)
  /-- BOOT_WATCHDOG (R296). -/
  | bootWatchdog
  /-- BOOT_STEP_END (R299). -/
  | bootStepEnd (ok : Bool) (mask : Nat)
  /-- RAIL_POWER_GOOD (R382). -/
  | railPowerGood (k : Nat)
  /-- RAIL_PG_TIMEOUT (R382). -/
  | railPgTimeout (k : Nat)
  /-- UNDERVOLTAGE_TRIP (R383). -/
  | undervoltageTrip (k : Nat)
  /-- RAIL_RETENTION (R382). -/
  | railRetention
  /-- HOUSEKEEPING_SLOT (R390). -/
  | housekeepingSlot (value : Nat) (valid : Bool)
  /-- HOUSEKEEPING_ROUND_END (R393). -/
  | housekeepingRoundEnd
  /-- AVS_RESPONSE (R384). -/
  | avsResponse (ok : Bool)
  /-- AVS_TIMEOUT (R384). -/
  | avsTimeout
  /-- HV_PG_FALL (R386). -/
  | hvPgFall (g : Nat)
  /-- HV_PG_TIMEOUT (R386). -/
  | hvPgTimeout (g : Nat)
  /-- ALIVE_TOGGLE (R35). -/
  | aliveToggle
  /-- ALIVE_SERVICE_TIMEOUT (R35). -/
  | aliveServiceTimeout
  /-- ENCODER_COUNT (R124). -/
  | encoderCount (n : Nat) (edge : EncEdge) (t : Nat)
  /-- REFERENCE_MARK (R120). -/
  | referenceMark (n : Nat) (t : Nat)
  /-- STANDSTILL (R125). -/
  | standstill (n : Nat)
  /-- TRIGGER_INSTANT (R127). -/
  | triggerInstant
  /-- LINE_BOUNDARY (R22). -/
  | lineBoundary (txLate : Nat)
  /-- HB_TIMER (R230). -/
  | hbTimer
  /-- XCHK_WINDOW_END (R131). -/
  | xchkWindowEnd
  /-- XCHK_LOSS (R131). -/
  | xchkLoss
  /-- ENC_POS_SET (R123). -/
  | encPosSet (n : Nat) (v : Nat)
  /-- CEIL_PWM_PERIOD (R135). -/
  | ceilPwmPeriod
  /-- OVERSPEED_RELEASE (R134). -/
  | overspeedRelease
  /-- CMP_ENABLE (R137). -/
  | cmpEnable (k : Nat) (v : Nat)
  /-- CMP_END_WRITE (R137). -/
  | cmpEndWrite (k : Nat) (v : Nat)
  /-- CMP_ENTRY_FIRE (R138). -/
  | cmpEntryFire (k : Nat)
  /-- CMP_PULSE_END (R139). -/
  | cmpPulseEnd (k : Nat)
  /-- LANE_RENDER_DONE (R100). -/
  | laneRenderDone (lane : Nat) (tau : Nat) (shadowOk : Bool)
  /-- PACE_STEP_DOWN (R109). -/
  | paceStepDown
  /-- PACE_LOW (R109). -/
  | paceLow
  /-- SPARE_ROTATE (R110). -/
  | spareRotate
  /-- KAT_PERIODIC (R111). -/
  | katPeriodic
  /-- KAT_RUN (R111). -/
  | katRun
  /-- KAT_DONE (R112). -/
  | katDone (phys : Nat) (pass : Bool)
  /-- STAGING_DONE (R16). -/
  | stagingDone (col : Nat) (band : Nat) (ok : Bool)
  /-- TILE_LINE_WRITTEN (R70). -/
  | tileLineWritten (dec : Nat)
  /-- DECOMPRESS_DONE (R87). -/
  | decompressDone (dec : Nat)
  /-- DECOMP_INVALID (R89). -/
  | decompInvalid (dec : Nat) (cause : Nat) (pos : Nat)
  /-- DECOMP_DISAGREE (R90). -/
  | decompDisagree (dec : Nat)
  /-- SRAM_SCRUB (R26). -/
  | sramScrub (store : Nat) (loc : Nat) (word : Nat)
  /-- ING_RING_DOORBELL (R57). -/
  | ingRingDoorbell (n : Nat) (tail : Nat)
  /-- DESCRIPTOR_TAKE (R54). -/
  | descriptorTake
  /-- HOST_READ_DONE (R54). -/
  | hostReadDone (ok : Bool) (bytes : List Nat)
  /-- COMPRESS_DONE (R84). -/
  | compressDone (k : Nat) (mismatch : Bool)
  /-- RING_ENABLE (R57). -/
  | ringEnable (n : Nat) (en : Bool)
  /-- RING_FLUSH (R57). -/
  | ringFlush (n : Nat)
  /-- CQDONE_WRITE (R57). -/
  | cqdoneWrite (n : Nat) (v : Nat)
  /-- SKEW_WRITE (R62). -/
  | skewWrite (p : Nat) (v : Nat)
  /-- SKEW_ARM (R63). -/
  | skewArm (p : Nat) (v : Nat)
  /-- COMMIT_GO (R96). -/
  | commitGo (v : Nat)
  /-- OVL_WRITE (R103). -/
  | ovlWrite (e : Nat) (v : Nat)
  /-- STAT_FRAME (R186). -/
  | statFrame (p : Nat) (body : List Nat)
  /-- TEMP_LOST (R162). -/
  | tempLost (p : Nat)
  /-- NORMAL_DECISION (R153). -/
  | normalDecision
  /-- RES_FRAME (R159). -/
  | resFrame (p : Nat) (body : List Nat)
  /-- ACK_FRAME (R186). -/
  | ackFrame (p : Nat) (body : List Nat)
  /-- MEM_FRAME (R186). -/
  | memFrame (p : Nat) (body : List Nat)
  /-- WAVE_ANSWER_TIMEOUT (R172). -/
  | waveAnswerTimeout
  /-- WAVE_COMMIT_TIMEOUT (R172). -/
  | waveCommitTimeout
  /-- WAVE_RELOAD_RETRY (R150). -/
  | waveReloadRetry (p : Nat)
  /-- LINK_TRAIN_STEP (R188). -/
  | linkTrainStep (p : Nat) (ok : Bool) (body : List Nat)
  /-- TRAIN_RETRY (R188). -/
  | trainRetry (p : Nat)
  /-- LINK_LOCK_LOST (R190). -/
  | linkLockLost (p : Nat)
  /-- LANE_RESTORE (R191). -/
  | laneRestore (p : Nat)
  /-- HLK_EN_WRITE (R188). -/
  | hlkEnWrite (p : Nat) (v : Nat)
  /-- HLK_RETRAIN (R188). -/
  | hlkRetrain (p : Nat)
  /-- USAGE_INC (R193). -/
  | usageInc (p : Nat)
  /-- USAGE_TIMEOUT (R193). -/
  | usageTimeout (p : Nat)
  /-- HEAD_FRAME (R180). -/
  | headFrame (h : Nat) (input : Nat) (body : List Nat)
  /-- HEAD_MARKER (R181). -/
  | headMarker (h : Nat) (input : Nat) (body : List Nat)
  /-- HEAD_DECISION (R181). -/
  | headDecision (h : Nat)
  /-- HEAD_LOCK_TIMEOUT (R179). -/
  | headLockTimeout (h : Nat)
  /-- FRAME_START (R196). -/
  | frameStart (n : Nat) (num : Nat)
  /-- IMAGE_LINE (R197). -/
  | imageLine (n : Nat) (pixels : List Nat) (flags : Nat)
  /-- FRAME_END (R196). -/
  | frameEnd (n : Nat)
  /-- CAPTURE_REQ (R212). -/
  | captureReq (n : Nat) (v : Nat)
  /-- CAPTURE_DONE (R212). -/
  | captureDone (n : Nat)
  /-- CAPTURE_NO_FRAME (R286). -/
  | captureNoFrame (n : Nat)
  /-- HB_BLOCK (R231). -/
  | hbBlock (body : List Nat)
  /-- STATE_FRAME (R225). -/
  | stateFrame (body : List Nat)
  /-- LOG_FRAME (R217). -/
  | logFrame (body : List Nat) (valid : Bool)
  /-- LOG_ACK (R217). -/
  | logAck (off : Nat) (nak : Bool)
  /-- LOG_RESEND (R217). -/
  | logResend
  /-- OCRC_FRAME (R227). -/
  | ocrcFrame (body : List Nat)
  /-- VERD_FRAME (R209). -/
  | verdFrame (body : List Nat)
  /-- FAULT_BLOCK (R231). -/
  | faultBlock (body : List Nat)
  /-- RSYNC_FRAME (R242). -/
  | rsyncFrame (body : List Nat)
  /-- IDENT_FRAME (R218). -/
  | identFrame (body : List Nat)
  /-- LANES_BLOCK (R218). -/
  | lanesBlock (mask : Nat)
  /-- PAIR_LANE_LOST (R218). -/
  | pairLaneLost (k : Nat)
  /-- HEARTBEAT_LOSS (R231). -/
  | heartbeatLoss
  /-- WITHHOLD_TIMEOUT (R228). -/
  | withholdTimeout (line : Nat) (p : Nat)
  /-- JOIN_PHASE_END (R241). -/
  | joinPhaseEnd
  /-- ALIGN_TIMEOUT (R241). -/
  | alignTimeout
  /-- VERIFY_TIMEOUT (R241). -/
  | verifyTimeout
  /-- HOST_RESET (R259). -/
  | hostReset
  /-- CQ_HEAD_WRITE (R253). -/
  | cqHeadWrite (v : Nat)
  /-- IRQ_GAP_END (R254). -/
  | irqGapEnd (vec : Nat)
  /-- LONG_PROGRESS (R255). -/
  | longProgress (r : SlotRef)
  /-- BIL_DATAGRAM (R266). -/
  | bilDatagram (d : Datagram)
  /-- BIL_TIMEOUT (R266). -/
  | bilTimeout
  /-- UDP_SESSION_TIMEOUT (R265). -/
  | udpSessionTimeout
  /-- IDENTIFY (R273). -/
  | identify (r : SlotRef)
  /-- UDP_OPEN (R265). -/
  | udpOpen (r : SlotRef)
  /-- UDP_CLOSE (R273). -/
  | udpClose (r : SlotRef)
  /-- ECHO (R273). -/
  | echo (r : SlotRef)
  /-- JOB_DEFINE (R274). -/
  | jobDefine (r : SlotRef)
  /-- JOB_START (R275). -/
  | jobStart (r : SlotRef)
  /-- JOB_STOP (R40). -/
  | jobStop (r : SlotRef)
  /-- JOB_ABORT (R41). -/
  | jobAbort (r : SlotRef)
  /-- JOB_PURGE (R276). -/
  | jobPurge (r : SlotRef)
  /-- GEOMETRY_SET (R277). -/
  | geometrySet (r : SlotRef)
  /-- SKEW_SET (R278). -/
  | skewSet (r : SlotRef)
  /-- WAVE_STAGE (R279). -/
  | waveStage (r : SlotRef)
  /-- WAVE_LOAD (R280). -/
  | waveLoad (r : SlotRef)
  /-- CAL_START (R281). -/
  | calStart (r : SlotRef)
  /-- CAL_SWEEP_STEP (R401). -/
  | calSweepStep (ok : Bool) (data : List Nat)
  /-- CAL_COMMIT (R397). -/
  | calCommit (ok : Bool)
  /-- CAL_ABORT (R282). -/
  | calAbort (r : SlotRef)
  /-- CAL_STATUS (R282). -/
  | calStatus (r : SlotRef)
  /-- MAINT_DEFINE (R283). -/
  | maintDefine (r : SlotRef)
  /-- MAINT_START (R284). -/
  | maintStart (r : SlotRef)
  /-- MAINT_STEP_END (R283). -/
  | maintStepEnd (ok : Bool)
  /-- SPIT_LINE (R283). -/
  | spitLine
  /-- MAINT_STOP (R284). -/
  | maintStop (r : SlotRef)
  /-- MOVE (R285). -/
  | move (r : SlotRef)
  /-- MOVE_GROUP (R408). -/
  | moveGroup (r : SlotRef)
  /-- HOME (R409). -/
  | home (r : SlotRef)
  /-- AXIS_STOP (R407). -/
  | axisStop (r : SlotRef)
  /-- CAPTURE (R286). -/
  | capture (r : SlotRef)
  /-- STATS_RING (R286). -/
  | statsRing (r : SlotRef)
  /-- GRAIN_WRITE (R287). -/
  | grainWrite (r : SlotRef)
  /-- SNAPSHOT (R288). -/
  | snapshot (r : SlotRef)
  /-- DROP_READ (R288). -/
  | dropRead (r : SlotRef)
  /-- PAIR_JOIN (R241). -/
  | pairJoin (r : SlotRef)
  /-- PAIR_SWITCHOVER (R45). -/
  | pairSwitchover (r : SlotRef)
  /-- PAIR_LEAVE (R245). -/
  | pairLeave (r : SlotRef)
  /-- PTP_CONFIG (R290). -/
  | ptpConfig (r : SlotRef)
  /-- REG_READ (R291). -/
  | regRead (r : SlotRef)
  /-- REG_WRITE (R292). -/
  | regWrite (r : SlotRef)
  /-- BLOCK_READ (R291). -/
  | blockRead (r : SlotRef)
  /-- FAULT_CLEAR (R368). -/
  | faultClear (r : SlotRef)
  /-- SOFT_RESET (R291). -/
  | softReset (r : SlotRef)
  /-- JOURNAL_READ (R291). -/
  | journalRead (r : SlotRef)
  /-- USAGE_KEY (R291). -/
  | usageKey (r : SlotRef)
  /-- HEAD_MEM_READ (R291). -/
  | headMemRead (r : SlotRef)
  /-- HIC_DOORBELL (R323). -/
  | hicDoorbell (core : Nat) (v : Nat)
  /-- HIC_CLAIM (R325). -/
  | hicClaim (core : Nat) (w : Nat) (v : Nat)
  /-- HIC_EOI (R326). -/
  | hicEoi (core : Nat) (v : Nat)
  /-- HIC_ROUTE_WRITE (R328). -/
  | hicRouteWrite (core : Nat) (src : Nat) (v : Nat)
  /-- HIC_PEND_SET (R327). -/
  | hicPendSet (core : Nat) (w : Nat) (v : Nat)
  /-- HIC_PEND_CLR (R327). -/
  | hicPendClr (core : Nat) (w : Nat) (v : Nat)
  /-- HIC_EN_SET (R324). -/
  | hicEnSet (core : Nat) (w : Nat) (v : Nat)
  /-- HIC_EN_CLR (R324). -/
  | hicEnClr (core : Nat) (w : Nat) (v : Nat)
  /-- HIC_EXT_WRITE (R322). -/
  | hicExtWrite (core : Nat) (n : Nat) (v : Nat)
  /-- EXT_IRQ_EDGE (R322). -/
  | extIrqEdge (n : Nat) (level : Bool)
  /-- REDIRECT_TIMEOUT (R329). -/
  | redirectTimeout (src : Nat)
  /-- HIC_TIMER (R332). -/
  | hicTimer (n : Nat)
  /-- CORE_SLEEP (R316). -/
  | coreSleep (c : Nat)
  /-- ACCESS_FAULT (R319). -/
  | accessFault (core : Nat) (addr : Nat) (kind : AccessKind)
  /-- ALERT_FALL (R344). -/
  | alertFall (c : Nat)
  /-- ALERT_RISE (R344). -/
  | alertRise (c : Nat)
  /-- REFRESH (R343). -/
  | refresh (c : Nat)
  /-- ZQCS (R334). -/
  | zqcs (c : Nat) (rank : Nat)
  /-- DRAM_SCRUB (R347). -/
  | dramScrub (c : Nat) (addr : Nat) (words : List Nat)
  /-- RELAYOUT (R341). -/
  | relayout
  /-- SYNC_MESSAGE (R354). -/
  | syncMessage (port : Nat) (msg : PtpSync)
  /-- ANNOUNCE_MESSAGE (R353). -/
  | announceMessage (port : Nat) (msg : PtpAnnounce)
  /-- DELAY_MESSAGE (R356). -/
  | delayMessage (port : Nat) (msg : PtpDelay)
  /-- ANNOUNCE_TIMEOUT (R355). -/
  | announceTimeout (port : Nat)
  /-- TMB_REACQ (R354). -/
  | tmbReacq
  /-- TMB_CFG_WRITE (R354). -/
  | tmbCfgWrite (v : Nat)
  /-- ERROR_REPORT (R364). -/
  | errorReport (src : Nat) (unit : Nat) (cause : Nat)
  /-- UNIT_RESTORE (R366). -/
  | unitRestore (src : Nat) (unit : Nat)
  /-- FLT_CLEAR (R368). -/
  | fltClear (mask : Nat)
  /-- CNT_SNAP_REQ (R373). -/
  | cntSnapReq (v : Nat)
  /-- SNAPSHOT_COMPLETE (R373). -/
  | snapshotComplete
  /-- DRAIN_REQ (R372). -/
  | drainReq
  /-- DRAIN_DONE (R372). -/
  | drainDone
  /-- PROFILE_TICK (R405). -/
  | profileTick
  /-- MOVE_START (R416). -/
  | moveStart (ax : Nat)
  /-- STALL_ACCEPT (R409). -/
  | stallAccept (ax : Nat)
  /-- HOME_BACKOFF (R409). -/
  | homeBackoff (ax : Nat)
  /-- DFAULT_ACCEPT (R411). -/
  | dfaultAccept (ax : Nat)
  /-- SSI_FRAME (R412). -/
  | ssiFrame (k : Nat) (raw : Nat) (ok : Bool)
  /-- DRV_EN_WRITE (R410). -/
  | drvEnWrite (ax : Nat) (v : Nat)
  /-- DRVEN_FALL (R410). -/
  | drvenFall (ax : Nat)
  /-- REBASE (R414). -/
  | rebase (ax : Nat)
  /-- REGISTER_WRITE (R6). -/
  | registerWrite (w : Writer) (addr : Nat) (v : Nat)
  /-- MBX_DOORBELL (R251). -/
  | mbxDoorbell (src : DoorbellSrc)
  /-- PCIE_LINK_UP (R37). -/
  | pcieLinkUp
  /-- PERST_N_RELEASE (R248). -/
  | perstNRelease
  /-- PAIR_LINK_TRAIN (R218). -/
  | pairLinkTrain (k : Nat) (ok : Bool)
  /-- PAIR_LIVE_I_CHANGE (R231). -/
  | pairLiveIChange (level : Bool)
  /-- MEM_READ_TIMEOUT (R291). -/
  | memReadTimeout (p : Nat)
  /-- SWEEP_LINE (R401). -/
  | sweepLine
  /-- DFAULT_INACTIVE (R411). -/
  | dfaultInactive (ax : Nat)
  /-- STAT_NONE (R186). -/
  | statNone (h : Nat)
  deriving DecidableEq, Repr

end Sys2Proof
end

