-- ==== Sys2Proof/Decode.lean ====
section
/-! DEFINITION. The commands of the block are no words: no row of the opcode table gives bits, so no word spells a command. -/

namespace Sys2Proof

/-- The command a word spells by the table's bits; no row of the table gives bits. -/
def decodeTableWord (_nbits _w : Nat) : Option Instr := none

end Sys2Proof
end

