-- ==== Sys2Proof/Config.lean ====
section
/-! DEFINITION. What an implementation fixes and what the spec leaves open: opaque constants.  A constant here has no
body, so no proof can rest on a value of it (log entries 3 and 4). -/

namespace Sys2Proof.Config

/-- Free values: the n-th value the spec leaves open in a run (log entry 3).  The step reads and advances `State.freeCtr`. -/
opaque freeValue : Nat → Nat

/-- SHA-256 of a byte string, as a 256-bit number (R306; FIPS 180-4 is outside the spec, log entry 4). -/
opaque sha256 : List Nat → Nat

/-- ECDSA P-256 verification: public key bytes, signature bytes, digest (R306, log entry 4). -/
opaque ecdsaVerify : List Nat → List Nat → Nat → Bool

/-- HMAC-SHA-256 of a byte string under a key (R192, log entry 4). -/
opaque hmacSha256 : Nat → List Nat → Nat

/-- tPAR_ALERT_ON in nCK (R344): the spec names it and gives no number (log entry 21). -/
opaque tParAlertOn : Nat

/-- Byte `a` of head `h`'s memory (R189): what a head holds beyond Table 8.7 is its maker's. -/
opaque headByte : Nat → Nat → Nat

/-- The 32-byte key of head `h` (R192), as one number. -/
opaque headKey : Nat → Nat

end Sys2Proof.Config
end

