-- ==== Sys2Proof/Machine/Bits.lean ====
section
/-! DEFINITION. Number forms, checksums and the symbol code that several chapters share. -/

namespace Sys2Proof.Machine

/-- Signed difference of two wrapping `w`-bit quantities (R11 with w = 40, R50 with w = 32). -/
def sdiff (w a b : Nat) : Int :=
  ((a % 2 ^ w + (2 ^ w - b % 2 ^ w) + 2 ^ (w - 1)) % 2 ^ w : Nat) - (2 ^ (w - 1) : Nat)

/-- R11 for 40-bit quantities: `a` is later than `b` when this is positive. -/
def sdiff40 (a b : Nat) : Int := sdiff 40 a b

/-- `a` has been reached or passed by `b`'s clock (R11). -/
def reached40 (a b : Nat) : Bool := decide (sdiff40 a b ≤ 0)

/-- A `w`-bit field read as a two's complement number. -/
def signed (w v : Nat) : Int := if v % 2 ^ w < 2 ^ (w - 1) then (v % 2 ^ w : Nat) else ((v % 2 ^ w : Nat) : Int) - (2 ^ w : Nat)

/-- An integer as a `w`-bit two's complement field. -/
def unsigned (w : Nat) (v : Int) : Nat := (v % (2 ^ w : Nat)).toNat

/-- Rounding a quotient to the nearest integer, halves away from zero (R148, R399); `d` is positive. -/
def roundDiv (n d : Int) : Int := if 0 ≤ n then (2 * n + d) / (2 * d) else -((2 * (-n) + d) / (2 * d))

/-- The size of a rational. -/
def absR (r : Rat) : Rat := if 0 ≤ r then r else -r

/-- Division rounded up. -/
def ceilDiv (n d : Nat) : Nat := (n + d - 1) / d

/-- One byte through the CRC-32C register, reflected form (R72). -/
def crc32cByte (c b : Nat) : Nat :=
  (List.range 8).foldl (fun x _ => if x % 2 = 1 then Nat.xor (x / 2) 0x82F63B78 else x / 2) (Nat.xor c (b % 256))

/-- CRC-32C of a byte list (R72). -/
def crc32c (l : List Nat) : Nat := Nat.xor (l.foldl crc32cByte 0xFFFFFFFF) 0xFFFFFFFF

/-- One byte through the CRC-8 register, polynomial 0x07 (R165). -/
def crc8Byte (c b : Nat) : Nat :=
  (List.range 8).foldl (fun x _ => if 128 ≤ x then Nat.xor (x * 2 % 256) 7 else x * 2) (Nat.xor c (b % 256))

/-- CRC-8 of a byte list (R165). -/
def crc8 (l : List Nat) : Nat := l.foldl crc8Byte 0

/-- Multiplication by α in GF(16) with x⁴ + x + 1 (R27). -/
def gfTwice (a : Nat) : Nat := if a / 8 % 2 = 1 then Nat.xor (a * 2 % 16) 3 else a * 2 % 16

/-- Multiplication in GF(16) (R27). -/
def gfMul (a b : Nat) : Nat :=
  Nat.xor (Nat.xor (if b % 2 = 1 then a else 0) (if b / 2 % 2 = 1 then gfTwice a else 0))
    (Nat.xor (if b / 4 % 2 = 1 then gfTwice (gfTwice a) else 0) (if b / 8 % 2 = 1 then gfTwice (gfTwice (gfTwice a)) else 0))

/-- Division in GF(16): the product with the 14th power. -/
def gfDiv (a b : Nat) : Nat :=
  let b2 := gfMul b b
  let b4 := gfMul b2 b2
  let b8 := gfMul b4 b4
  gfMul a (gfMul b2 (gfMul b4 b8))

/-- The quadric term x² + x·y + 8·y² of R27. -/
def gfQ (x y : Nat) : Nat := Nat.xor (Nat.xor (gfMul x x) (gfMul x y)) (gfMul 8 (gfMul y y))

/-- The column of a symbol (R27). -/
def eccColumn (i : Nat) : Nat × Nat × Nat × Nat :=
  if i < 32 then (1, i % 16, 2 + i / 16, gfQ (i % 16) (2 + i / 16))
  else if i = 32 then (1, 0, 0, 0) else if i = 33 then (0, 0, 0, 1) else if i = 34 then (1, 1, 0, 1) else (1, 0, 1, 8)

/-- The syndrome of a code word given as one 144-bit number (R27). -/
def eccSyndrome (w : Nat) : Nat × Nat × Nat × Nat :=
  (List.range 36).foldl (fun (s : Nat × Nat × Nat × Nat) i =>
    let v := w / 16 ^ i % 16
    let h := eccColumn i
    (Nat.xor s.1 (gfMul v h.1), Nat.xor s.2.1 (gfMul v h.2.1), Nat.xor s.2.2.1 (gfMul v h.2.2.1), Nat.xor s.2.2.2 (gfMul v h.2.2.2)))
    (0, 0, 0, 0)

/-- The 144-bit code word of 128 data bits (R28). -/
def eccEncode (d : Nat) : Nat :=
  let d := d % 2 ^ 128
  let s := eccSyndrome d
  let c32 := Nat.xor (Nat.xor s.1 s.2.1) s.2.2.1
  let c33 := Nat.xor (Nat.xor s.2.2.2 s.2.1) (gfMul 8 s.2.2.1)
  d + c32 * 2 ^ 128 + c33 * 2 ^ 132 + s.2.1 * 2 ^ 136 + s.2.2.1 * 2 ^ 140

/-- What the decoder finds in a code word (R29): clean, one symbol corrected, or uncorrectable. -/
inductive EccResult where
  | clean
  | fixed (symbol : Nat) (error : Nat)
  | uncorrectable
  deriving DecidableEq, Repr

/-- The decoder's steps 1 to 5 (R29). -/
def eccJudge (w : Nat) : EccResult :=
  let s := eccSyndrome w
  if s = (0, 0, 0, 0) then .clean
  else if s.1 ≠ 0 then
    let x := gfDiv s.2.1 s.1
    let y := gfDiv s.2.2.1 s.1
    if s.2.2.2 = gfMul s.1 (gfQ x y) then
      if y = 2 ∨ y = 3 then .fixed (16 * (y - 2) + x) s.1
      else if x = 0 ∧ y = 0 then .fixed 32 s.1
      else if x = 1 ∧ y = 0 then .fixed 34 s.1
      else if x = 0 ∧ y = 1 then .fixed 35 s.1
      else .uncorrectable
    else .uncorrectable
  else if s.2.1 = 0 ∧ s.2.2.1 = 0 then .fixed 33 s.2.2.2
  else .uncorrectable

/-- The word after the decoder's correction (R29). -/
def eccCorrect (w : Nat) : Nat :=
  match eccJudge w with
  | .fixed i e => Nat.xor w (e * 16 ^ i)
  | _ => w

/-- The code words of a byte stream: 18 bytes each, code-word bits [8b + 7 : 8b] in byte b (R168). -/
def codeWords (b : List Nat) : List Nat :=
  (List.range (b.length / 18)).map (fun (i : Nat) => ofBytes ((b.drop (18 * i)).take 18))

/-- The data bytes of code words after correction (R29, R168). -/
def wordData (ws : List Nat) : List Nat := ws.flatMap (fun (w : Nat) => toBytes 16 (eccCorrect w))

/-- A code word is uncorrectable; one was corrected. -/
def wordBad (w : Nat) : Bool := eccJudge w == .uncorrectable
def wordFixed (w : Nat) : Bool := match eccJudge w with | .fixed _ _ => true | _ => false

/-- Ascending insertion, for the sorted lists of the state. -/
def insertSorted (x : Nat) : List Nat → List Nat
  | [] => [x]
  | y :: t => if x ≤ y then x :: y :: t else y :: insertSorted x t

/-- A list of numbers in ascending order. -/
def sortNat (l : List Nat) : List Nat := l.foldr insertSorted []

/-- The median of a list, 0 for the empty one. -/
def median (l : List Nat) : Nat := (sortNat l).getD (l.length / 2) 0

/-- Bits of a mask that are set, ascending, below `n`. -/
def members (n mask : Nat) : List Nat := (List.range n).filter (fun i => bit mask i)

/-- The number of bits set below `n`. -/
def popcount (n mask : Nat) : Nat := (members n mask).length

/-- A mask with bit i set. -/
def setBit (mask i : Nat) : Nat := Nat.lor mask (2 ^ i)

/-- A mask with bit i cleared. -/
def clrBit (mask i : Nat) : Nat := if bit mask i then mask - 2 ^ i else mask

end Sys2Proof.Machine
end

