-- ==== Sys2Proof/Machine/Regs.lean ====
section
/-! DEFINITION. The names of the register fields of the GY8: one `Fld` per field of the register tables of spec/,
at the Headstock-map address the table gives (index arguments are the register's own indices, in the order of its name). -/

namespace Sys2Proof.Machine.R

/-- ING_RINGn_CFG: R57, spec/03_billets_and_job_store.md. -/
def ING_RING_CFG_ENABLE (i : Nat) : Fld := ⟨0x40200000 + 0x40 * i, 0, 1⟩
def ING_RING_CFG_SIZE (i : Nat) : Fld := ⟨0x40200000 + 0x40 * i, 1, 3⟩
def ING_RING_CFG_VEC (i : Nat) : Fld := ⟨0x40200000 + 0x40 * i, 8, 6⟩
def ING_RING_CFG_FLUSH (i : Nat) : Fld := ⟨0x40200000 + 0x40 * i, 31, 1⟩
/-- ING_RINGn_TAIL: R57, spec/03_billets_and_job_store.md. -/
def ING_RING_TAIL_TAIL (i : Nat) : Fld := ⟨0x40200004 + 0x40 * i, 0, 10⟩
/-- ING_RINGn_HEAD: R57, spec/03_billets_and_job_store.md. -/
def ING_RING_HEAD_HEAD (i : Nat) : Fld := ⟨0x40200008 + 0x40 * i, 0, 10⟩
/-- ING_RINGn_CQLO: R57, spec/03_billets_and_job_store.md. -/
def ING_RING_CQLO_ADDR_LO (i : Nat) : Fld := ⟨0x40200010 + 0x40 * i, 0, 32⟩
/-- ING_RINGn_CQHI: R57, spec/03_billets_and_job_store.md. -/
def ING_RING_CQHI_ADDR_HI (i : Nat) : Fld := ⟨0x40200014 + 0x40 * i, 0, 32⟩
/-- ING_RINGn_CQDONE: R57, spec/03_billets_and_job_store.md. -/
def ING_RING_CQDONE_DONE (i : Nat) : Fld := ⟨0x40200018 + 0x40 * i, 0, 10⟩
/-- BLT_STORE_CFG: R61, spec/03_billets_and_job_store.md. -/
def BLT_STORE_CFG_RUNAHEAD_BANDS : Fld := ⟨0x40300000, 0, 16⟩
def BLT_STORE_CFG_REPLAY_BANDS : Fld := ⟨0x40300000, 16, 16⟩
/-- BLT_STORE_STAT: R61, spec/03_billets_and_job_store.md. -/
def BLT_STORE_STAT_FULL : Fld := ⟨0x40300004, 0, 1⟩
def BLT_STORE_STAT_REPLAY_SHORT : Fld := ⟨0x40300004, 1, 1⟩
def BLT_STORE_STAT_HOT_HOLD : Fld := ⟨0x40300004, 2, 1⟩
/-- BLT_LATEFLAGS: R61, spec/03_billets_and_job_store.md. -/
def BLT_LATEFLAGS_LATE : Fld := ⟨0x40300008, 0, 24⟩
/-- BLT_POISONFLAGS: R61, spec/03_billets_and_job_store.md. -/
def BLT_POISONFLAGS_POISON : Fld := ⟨0x4030000C, 0, 24⟩
/-- BLT_CONSUMED: R61, spec/03_billets_and_job_store.md. -/
def BLT_CONSUMED_COUNT : Fld := ⟨0x40300010, 0, 40⟩
/-- BLT_EVICTED: R61, spec/03_billets_and_job_store.md. -/
def BLT_EVICTED_COUNT : Fld := ⟨0x40300018, 0, 40⟩
/-- BLT_RESIDENT: R61, spec/03_billets_and_job_store.md. -/
def BLT_RESIDENT_COUNT : Fld := ⟨0x40300020, 0, 32⟩
/-- BLT_POISONED: R61, spec/03_billets_and_job_store.md. -/
def BLT_POISONED_COUNT : Fld := ⟨0x40300024, 0, 16⟩
/-- ING_ACCEPTED: R61, spec/03_billets_and_job_store.md. -/
def ING_ACCEPTED_COUNT : Fld := ⟨0x40200100, 0, 40⟩
/-- ING_RETURNED: R61, spec/03_billets_and_job_store.md. -/
def ING_RETURNED_COUNT : Fld := ⟨0x40200108, 0, 40⟩
/-- ING_INFLIGHT: R61, spec/03_billets_and_job_store.md. -/
def ING_INFLIGHT_COUNT : Fld := ⟨0x40200110, 0, 16⟩
/-- BLT_LATE_p: R61, spec/03_billets_and_job_store.md. -/
def BLT_LATE_COUNT (i : Nat) : Fld := ⟨0x40300400 + 0x8 * i, 0, 40⟩
/-- BLT_POISONL_p: R61, spec/03_billets_and_job_store.md. -/
def BLT_POISONL_COUNT (i : Nat) : Fld := ⟨0x40300500 + 0x8 * i, 0, 40⟩
/-- BLT_SKEW_p: R62, spec/03_billets_and_job_store.md. -/
def BLT_SKEW_OFFSET (i : Nat) : Fld := ⟨0x40301000 + 0x4 * i, 0, 14⟩
def BLT_SKEW_SUBLINE (i : Nat) : Fld := ⟨0x40301000 + 0x4 * i, 16, 6⟩
/-- BLT_SKEW_PEND_p: R62, spec/03_billets_and_job_store.md. -/
def BLT_SKEW_PEND_OFFSET (i : Nat) : Fld := ⟨0x40301080 + 0x4 * i, 0, 14⟩
def BLT_SKEW_PEND_REFUSED (i : Nat) : Fld := ⟨0x40301080 + 0x4 * i, 30, 1⟩
def BLT_SKEW_PEND_ARM (i : Nat) : Fld := ⟨0x40301080 + 0x4 * i, 31, 1⟩
/-- BLT_SKEW_AT_p: R62, spec/03_billets_and_job_store.md. -/
def BLT_SKEW_AT_LINE (i : Nat) : Fld := ⟨0x40301100 + 0x8 * i, 0, 40⟩
/-- BLT_SKEW_GEN: R62, spec/03_billets_and_job_store.md. -/
def BLT_SKEW_GEN_GEN : Fld := ⟨0x403011C0, 0, 16⟩
/-- BLT_ENG_CFG: R91, spec/04_billet_format.md. -/
def BLT_ENG_CFG_DEPTH : Fld := ⟨0x40302000, 0, 8⟩
def BLT_ENG_CFG_CAP_ENABLE : Fld := ⟨0x40302000, 8, 1⟩
/-- BLT_DEC_PART: R91, spec/04_billet_format.md. -/
def BLT_DEC_PART_PARTED : Fld := ⟨0x40302004, 0, 32⟩
/-- BLT_CMP_PART: R91, spec/04_billet_format.md. -/
def BLT_CMP_PART_PARTED : Fld := ⟨0x40302008, 0, 4⟩
/-- BLT_DEC_ERR: R91, spec/04_billet_format.md. -/
def BLT_DEC_ERR_CAUSE : Fld := ⟨0x40302010, 0, 4⟩
def BLT_DEC_ERR_DEC : Fld := ⟨0x40302010, 4, 5⟩
def BLT_DEC_ERR_COLUMN : Fld := ⟨0x40302010, 9, 8⟩
def BLT_DEC_ERR_VALID : Fld := ⟨0x40302010, 31, 1⟩
/-- BLT_DEC_ERR_BAND: R91, spec/04_billet_format.md. -/
def BLT_DEC_ERR_BAND_BAND : Fld := ⟨0x40302014, 0, 32⟩
/-- BLT_DEC_ERR_POS: R91, spec/04_billet_format.md. -/
def BLT_DEC_ERR_POS_BITPOS : Fld := ⟨0x40302018, 0, 17⟩
/-- BLT_DEC_TILES: R91, spec/04_billet_format.md. -/
def BLT_DEC_TILES_COUNT : Fld := ⟨0x40302020, 0, 40⟩
/-- BLT_CMP_BILLETS: R91, spec/04_billet_format.md. -/
def BLT_CMP_BILLETS_COUNT : Fld := ⟨0x40302028, 0, 40⟩
/-- BLT_CMP_NOSHRINK: R91, spec/04_billet_format.md. -/
def BLT_CMP_NOSHRINK_COUNT : Fld := ⟨0x40302040, 0, 40⟩
/-- BLT_CMP_VFAIL: R91, spec/04_billet_format.md. -/
def BLT_CMP_VFAIL_COUNT : Fld := ⟨0x40302030, 0, 16⟩
/-- BLT_DEC_INVALID: R91, spec/04_billet_format.md. -/
def BLT_DEC_INVALID_COUNT : Fld := ⟨0x40302034, 0, 16⟩
/-- BLT_DEC_DISAGREE: R91, spec/04_billet_format.md. -/
def BLT_DEC_DISAGREE_COUNT : Fld := ⟨0x40302038, 0, 16⟩
/-- SPN_CTRL: R115, spec/05_spindle.md. -/
def SPN_CTRL_WINDOW : Fld := ⟨0x40400000, 0, 7⟩
def SPN_CTRL_SPARE_SHADOW : Fld := ⟨0x40400000, 8, 1⟩
def SPN_CTRL_KAT_PERIOD : Fld := ⟨0x40400000, 16, 8⟩
/-- SPN_STAT: R115, spec/05_spindle.md. -/
def SPN_STAT_SPARES : Fld := ⟨0x40400004, 0, 2⟩
def SPN_STAT_PACE_LOW : Fld := ⟨0x40400004, 2, 1⟩
def SPN_STAT_NO_SPARE : Fld := ⟨0x40400004, 3, 1⟩
def SPN_STAT_OVL_DUP : Fld := ⟨0x40400004, 4, 1⟩
def SPN_STAT_SUBST_LOSS : Fld := ⟨0x40400004, 5, 1⟩
/-- SPN_PACE: R115, spec/05_spindle.md. -/
def SPN_PACE_MARGIN : Fld := ⟨0x40400008, 0, 8⟩
def SPN_PACE_VSTEP : Fld := ⟨0x40400008, 8, 5⟩
def SPN_PACE_CEIL : Fld := ⟨0x40400008, 13, 1⟩
def SPN_PACE_TAU : Fld := ⟨0x40400008, 16, 16⟩
/-- SPN_PACE_CFG: R115, spec/05_spindle.md. -/
def SPN_PACE_CFG_DOWN_PCT : Fld := ⟨0x4040000C, 0, 8⟩
/-- SPN_KAT: R115, spec/05_spindle.md. -/
def SPN_KAT_RUN : Fld := ⟨0x40400010, 0, 1⟩
def SPN_KAT_BUSY : Fld := ⟨0x40400010, 1, 1⟩
def SPN_KAT_LAST_FAIL : Fld := ⟨0x40400010, 8, 6⟩
def SPN_KAT_FAIL : Fld := ⟨0x40400010, 14, 1⟩
/-- SPN_SIZEMAP: R115, spec/05_spindle.md. -/
def SPN_SIZEMAP_NORMAL : Fld := ⟨0x40400014, 0, 6⟩
def SPN_SIZEMAP_SHORT : Fld := ⟨0x40400014, 8, 6⟩
/-- SPN_LANEMAP_k: R115, spec/05_spindle.md. -/
def SPN_LANEMAP_PHYS (i : Nat) : Fld := ⟨0x40400100 + 0x4 * i, 0, 6⟩
/-- SPN_POOL: R115, spec/05_spindle.md. -/
def SPN_POOL_POOL : Fld := ⟨0x40400180, 0, 34⟩
/-- SPN_PARTED: R115, spec/05_spindle.md. -/
def SPN_PARTED_PARTED : Fld := ⟨0x40400188, 0, 34⟩
/-- SPN_OVL_e: R115, spec/05_spindle.md. -/
def SPN_OVL_NOZ_A (i : Nat) : Fld := ⟨0x40404000 + 0x4 * i, 0, 13⟩
def SPN_OVL_NOZ_B (i : Nat) : Fld := ⟨0x40404000 + 0x4 * i, 13, 13⟩
def SPN_OVL_PORT (i : Nat) : Fld := ⟨0x40404000 + 0x4 * i, 26, 5⟩
def SPN_OVL_VALID (i : Nat) : Fld := ⟨0x40404000 + 0x4 * i, 31, 1⟩
/-- SPN_DITHER_t: R115, spec/05_spindle.md. -/
def SPN_DITHER_THRESH (i : Nat) : Fld := ⟨0x40408000 + 0x4 * i, 0, 11⟩
/-- SPN_RENDERS: R115, spec/05_spindle.md. -/
def SPN_RENDERS_COUNT : Fld := ⟨0x40400020, 0, 40⟩
/-- SPN_HANDED: R115, spec/05_spindle.md. -/
def SPN_HANDED_COUNT : Fld := ⟨0x40400028, 0, 40⟩
/-- SPN_SHAVINGS: R115, spec/05_spindle.md. -/
def SPN_SHAVINGS_COUNT : Fld := ⟨0x40400030, 0, 40⟩
/-- SPN_QUEUED: R115, spec/05_spindle.md. -/
def SPN_QUEUED_COUNT : Fld := ⟨0x40400038, 0, 11⟩
/-- SPN_UNCOVERED: R115, spec/05_spindle.md. -/
def SPN_UNCOVERED_COUNT : Fld := ⟨0x40400040, 0, 40⟩
/-- SPN_SUBST_LOST: R115, spec/05_spindle.md. -/
def SPN_SUBST_LOST_COUNT : Fld := ⟨0x40400048, 0, 40⟩
/-- SPN_SUBST_OVF: R115, spec/05_spindle.md. -/
def SPN_SUBST_OVF_COUNT : Fld := ⟨0x40400050, 0, 16⟩
/-- SPN_SPARE_MISCMP: R115, spec/05_spindle.md. -/
def SPN_SPARE_MISCMP_COUNT : Fld := ⟨0x40400054, 0, 16⟩
/-- SPN_KAT_FAIL: R115, spec/05_spindle.md. -/
def SPN_KAT_FAIL_COUNT : Fld := ⟨0x40400058, 0, 16⟩
/-- GMP_COMMIT: R116, spec/05_spindle.md. -/
def GMP_COMMIT_COUNT : Fld := ⟨0x42200000, 0, 13⟩
def GMP_COMMIT_ASAP : Fld := ⟨0x42200000, 13, 1⟩
def GMP_COMMIT_GO : Fld := ⟨0x42200000, 31, 1⟩
/-- GMP_CSTAT: R116, spec/05_spindle.md. -/
def GMP_CSTAT_BUSY : Fld := ⟨0x42200004, 0, 1⟩
def GMP_CSTAT_DONE : Fld := ⟨0x42200004, 1, 1⟩
def GMP_CSTAT_REFUSED : Fld := ⟨0x42200004, 2, 1⟩
def GMP_CSTAT_CAUSE : Fld := ⟨0x42200004, 3, 4⟩
def GMP_CSTAT_INDEX : Fld := ⟨0x42200004, 12, 12⟩
/-- GMP_COMMIT_AT: R116, spec/05_spindle.md. -/
def GMP_COMMIT_AT_LINE : Fld := ⟨0x42200008, 0, 40⟩
/-- GMP_GEN: R116, spec/05_spindle.md. -/
def GMP_GEN_GEN : Fld := ⟨0x42200010, 0, 16⟩
/-- GMP_PARKWORDS: R116, spec/05_spindle.md. -/
def GMP_PARKWORDS_COUNT : Fld := ⟨0x42200014, 0, 17⟩
/-- ENCn_CFG: R142, spec/06_encoder_and_line_timing.md. -/
def ENC_CH_CFG_TYPE (i : Nat) : Fld := ⟨0x40600000 + 0x100 * i, 0, 2⟩
def ENC_CH_CFG_INVERT (i : Nat) : Fld := ⟨0x40600000 + 0x100 * i, 2, 1⟩
def ENC_CH_CFG_ZQUAL (i : Nat) : Fld := ⟨0x40600000 + 0x100 * i, 3, 1⟩
def ENC_CH_CFG_FILT (i : Nat) : Fld := ⟨0x40600000 + 0x100 * i, 4, 6⟩
def ENC_CH_CFG_REFTYPE (i : Nat) : Fld := ⟨0x40600000 + 0x100 * i, 10, 2⟩
def ENC_CH_CFG_MISSING (i : Nat) : Fld := ⟨0x40600000 + 0x100 * i, 12, 2⟩
def ENC_CH_CFG_ZLOAD (i : Nat) : Fld := ⟨0x40600000 + 0x100 * i, 14, 1⟩
def ENC_CH_CFG_AVG (i : Nat) : Fld := ⟨0x40600000 + 0x100 * i, 16, 3⟩
def ENC_CH_CFG_STANDSTILL (i : Nat) : Fld := ⟨0x40600000 + 0x100 * i, 24, 8⟩
/-- ENCn_STAT: R142, spec/06_encoder_and_line_timing.md. -/
def ENC_CH_STAT_SPEED_VALID (i : Nat) : Fld := ⟨0x40600004 + 0x100 * i, 0, 1⟩
def ENC_CH_STAT_DIR (i : Nat) : Fld := ⟨0x40600004 + 0x100 * i, 1, 1⟩
def ENC_CH_STAT_STANDSTILL (i : Nat) : Fld := ⟨0x40600004 + 0x100 * i, 2, 1⟩
def ENC_CH_STAT_QERR (i : Nat) : Fld := ⟨0x40600004 + 0x100 * i, 3, 1⟩
def ENC_CH_STAT_OVERRATE (i : Nat) : Fld := ⟨0x40600004 + 0x100 * i, 4, 1⟩
def ENC_CH_STAT_REF_SEEN (i : Nat) : Fld := ⟨0x40600004 + 0x100 * i, 5, 1⟩
def ENC_CH_STAT_REF_ERR (i : Nat) : Fld := ⟨0x40600004 + 0x100 * i, 6, 1⟩
def ENC_CH_STAT_TOOTH_ERR (i : Nat) : Fld := ⟨0x40600004 + 0x100 * i, 7, 1⟩
/-- ENCn_POS: R142, spec/06_encoder_and_line_timing.md. -/
def ENC_CH_POS_POS (i : Nat) : Fld := ⟨0x40600008 + 0x100 * i, 0, 40⟩
/-- ENCn_POS_SET: R142, spec/06_encoder_and_line_timing.md. -/
def ENC_CH_POS_SET_POS (i : Nat) : Fld := ⟨0x40600010 + 0x100 * i, 0, 40⟩
/-- ENCn_PERIOD: R142, spec/06_encoder_and_line_timing.md. -/
def ENC_CH_PERIOD_P (i : Nat) : Fld := ⟨0x40600018 + 0x100 * i, 0, 32⟩
/-- ENCn_SPEED: R142, spec/06_encoder_and_line_timing.md. -/
def ENC_CH_SPEED_V (i : Nat) : Fld := ⟨0x4060001C + 0x100 * i, 0, 32⟩
/-- ENCn_REFPOS: R142, spec/06_encoder_and_line_timing.md. -/
def ENC_CH_REFPOS_POS (i : Nat) : Fld := ⟨0x40600020 + 0x100 * i, 0, 40⟩
/-- ENCn_REFT: R142, spec/06_encoder_and_line_timing.md. -/
def ENC_CH_REFT_T (i : Nat) : Fld := ⟨0x40600028 + 0x100 * i, 0, 40⟩
/-- ENCn_REFLOAD: R142, spec/06_encoder_and_line_timing.md. -/
def ENC_CH_REFLOAD_POS (i : Nat) : Fld := ⟨0x40600030 + 0x100 * i, 0, 40⟩
/-- ENCn_REVCNT: R142, spec/06_encoder_and_line_timing.md. -/
def ENC_CH_REVCNT_COUNT (i : Nat) : Fld := ⟨0x40600038 + 0x100 * i, 0, 24⟩
/-- ENCn_ERRCNT: R142, spec/06_encoder_and_line_timing.md. -/
def ENC_CH_ERRCNT_QERR (i : Nat) : Fld := ⟨0x4060003C + 0x100 * i, 0, 16⟩
def ENC_CH_ERRCNT_TOOTH (i : Nat) : Fld := ⟨0x4060003C + 0x100 * i, 16, 16⟩
/-- ENC_LINE_CFG: R143, spec/06_encoder_and_line_timing.md. -/
def ENC_LINE_CFG_SRC : Fld := ⟨0x40600200, 0, 1⟩
def ENC_LINE_CFG_PRINT_DIR : Fld := ⟨0x40600200, 1, 1⟩
def ENC_LINE_CFG_ORIGIN_MODE : Fld := ⟨0x40600200, 2, 2⟩
/-- ENC_LINE_ORIGIN: R143, spec/06_encoder_and_line_timing.md. -/
def ENC_LINE_ORIGIN_POS : Fld := ⟨0x40600208, 0, 40⟩
/-- ENC_LINE_PITCH: R143, spec/06_encoder_and_line_timing.md. -/
def ENC_LINE_PITCH_PITCH : Fld := ⟨0x40600210, 0, 32⟩
/-- ENC_LINE_PFRAC: R143, spec/06_encoder_and_line_timing.md. -/
def ENC_LINE_PFRAC_PFRAC : Fld := ⟨0x40600214, 0, 16⟩
/-- ENC_LINE: R143, spec/06_encoder_and_line_timing.md. -/
def ENC_LINE_INDEX : Fld := ⟨0x40600218, 0, 40⟩
/-- ENC_LINE_T: R143, spec/06_encoder_and_line_timing.md. -/
def ENC_LINE_T_T : Fld := ⟨0x40600220, 0, 24⟩
/-- ENC_LINE_TP: R143, spec/06_encoder_and_line_timing.md. -/
def ENC_LINE_TP_T : Fld := ⟨0x40600224, 0, 24⟩
/-- ENC_LINE_GAP: R143, spec/06_encoder_and_line_timing.md. -/
def ENC_LINE_GAP_T : Fld := ⟨0x40600228, 0, 24⟩
/-- ENC_LATENCY: R143, spec/06_encoder_and_line_timing.md. -/
def ENC_LATENCY_LAT : Fld := ⟨0x4060022C, 0, 10⟩
/-- ENC_STAT: R143, spec/06_encoder_and_line_timing.md. -/
def ENC_STAT_TRIG_LAG : Fld := ⟨0x40600230, 0, 1⟩
def ENC_STAT_PAIR_DIFF : Fld := ⟨0x40600230, 1, 1⟩
/-- ENC_TRIG_DELAYED: R143, spec/06_encoder_and_line_timing.md. -/
def ENC_TRIG_DELAYED_COUNT : Fld := ⟨0x40600234, 0, 16⟩
/-- ENC_XCHK_CFG: R143, spec/06_encoder_and_line_timing.md. -/
def ENC_XCHK_CFG_EN : Fld := ⟨0x40600300, 0, 1⟩
def ENC_XCHK_CFG_ACTION : Fld := ⟨0x40600300, 1, 2⟩
def ENC_XCHK_CFG_TOL : Fld := ⟨0x40600300, 16, 14⟩
/-- ENC_XCHK_RATIO: R143, spec/06_encoder_and_line_timing.md. -/
def ENC_XCHK_RATIO_RATIO : Fld := ⟨0x40600304, 0, 32⟩
/-- ENC_XCHK_LEN: R143, spec/06_encoder_and_line_timing.md. -/
def ENC_XCHK_LEN_LEN : Fld := ⟨0x40600308, 0, 24⟩
/-- ENC_XCHK_ERR: R143, spec/06_encoder_and_line_timing.md. -/
def ENC_XCHK_ERR_DEV : Fld := ⟨0x4060030C, 0, 32⟩
/-- ENC_XCHK_STAT: R143, spec/06_encoder_and_line_timing.md. -/
def ENC_XCHK_STAT_DEV : Fld := ⟨0x40600310, 0, 1⟩
def ENC_XCHK_STAT_LOSS : Fld := ⟨0x40600310, 1, 1⟩
/-- ENC_XCHK_CNT: R143, spec/06_encoder_and_line_timing.md. -/
def ENC_XCHK_CNT_COUNT : Fld := ⟨0x40600314, 0, 16⟩
/-- ENC_CEIL_FS: R143, spec/06_encoder_and_line_timing.md. -/
def ENC_CEIL_FS_FS : Fld := ⟨0x40600400, 0, 24⟩
/-- ENC_CEIL_HOST: R143, spec/06_encoder_and_line_timing.md. -/
def ENC_CEIL_HOST_CEIL : Fld := ⟨0x40600404, 0, 24⟩
/-- ENC_CEIL: R143, spec/06_encoder_and_line_timing.md. -/
def ENC_CEIL_CEIL : Fld := ⟨0x40600408, 0, 24⟩
def ENC_CEIL_SRC : Fld := ⟨0x40600408, 24, 5⟩
/-- CMP_CTRL_k: R144, spec/06_encoder_and_line_timing.md. -/
def CMP_CTRL_ENABLE (i : Nat) : Fld := ⟨0x40680000 + 0x100 * i, 0, 1⟩
def CMP_CTRL_SRC (i : Nat) : Fld := ⟨0x40680000 + 0x100 * i, 1, 1⟩
def CMP_CTRL_DIR (i : Nat) : Fld := ⟨0x40680000 + 0x100 * i, 2, 1⟩
def CMP_CTRL_POL (i : Nat) : Fld := ⟨0x40680000 + 0x100 * i, 3, 1⟩
def CMP_CTRL_LATE_FIRE (i : Nat) : Fld := ⟨0x40680000 + 0x100 * i, 4, 1⟩
def CMP_CTRL_CYCLIC (i : Nat) : Fld := ⟨0x40680000 + 0x100 * i, 5, 1⟩
def CMP_CTRL_WIDTH (i : Nat) : Fld := ⟨0x40680000 + 0x100 * i, 16, 16⟩
/-- CMP_START_k: R144, spec/06_encoder_and_line_timing.md. -/
def CMP_START_START (i : Nat) : Fld := ⟨0x40680004 + 0x100 * i, 0, 10⟩
/-- CMP_END_k: R144, spec/06_encoder_and_line_timing.md. -/
def CMP_END_END (i : Nat) : Fld := ⟨0x40680008 + 0x100 * i, 0, 10⟩
/-- CMP_INDEX_k: R144, spec/06_encoder_and_line_timing.md. -/
def CMP_INDEX_INDEX (i : Nat) : Fld := ⟨0x4068000C + 0x100 * i, 0, 10⟩
def CMP_INDEX_WAIT (i : Nat) : Fld := ⟨0x4068000C + 0x100 * i, 16, 1⟩
/-- CMP_CYCLE_k: R144, spec/06_encoder_and_line_timing.md. -/
def CMP_CYCLE_ADD (i : Nat) : Fld := ⟨0x40680010 + 0x100 * i, 0, 40⟩
/-- CMP_STAT_k: R144, spec/06_encoder_and_line_timing.md. -/
def CMP_STAT_MISS (i : Nat) : Fld := ⟨0x40680018 + 0x100 * i, 0, 1⟩
def CMP_STAT_LATE (i : Nat) : Fld := ⟨0x40680018 + 0x100 * i, 1, 1⟩
def CMP_STAT_MERGED (i : Nat) : Fld := ⟨0x40680018 + 0x100 * i, 2, 1⟩
def CMP_STAT_LEVEL (i : Nat) : Fld := ⟨0x40680018 + 0x100 * i, 3, 1⟩
/-- CMP_FIRED_k: R144, spec/06_encoder_and_line_timing.md. -/
def CMP_FIRED_COUNT (i : Nat) : Fld := ⟨0x40680020 + 0x100 * i, 0, 40⟩
/-- CMP_MISSED_k: R144, spec/06_encoder_and_line_timing.md. -/
def CMP_MISSED_COUNT (i : Nat) : Fld := ⟨0x40680028 + 0x100 * i, 0, 16⟩
/-- CMP_LASTT_k: R144, spec/06_encoder_and_line_timing.md. -/
def CMP_LASTT_T (i : Nat) : Fld := ⟨0x40680030 + 0x100 * i, 0, 40⟩
/-- CMP_LASTI_k: R144, spec/06_encoder_and_line_timing.md. -/
def CMP_LASTI_INDEX (i : Nat) : Fld := ⟨0x40680038 + 0x100 * i, 0, 10⟩
/-- FIR_CTRL: R163, spec/07_firing_and_waveforms.md. -/
def FIR_CTRL_AUTO_SHORT : Fld := ⟨0x40700000, 0, 1⟩
def FIR_CTRL_CLASS_SEL : Fld := ⟨0x40700000, 1, 1⟩
def FIR_CTRL_CLASS : Fld := ⟨0x40700000, 2, 1⟩
def FIR_CTRL_PEND : Fld := ⟨0x40700000, 3, 1⟩
def FIR_CTRL_BAND_AUTO : Fld := ⟨0x40700000, 4, 1⟩
def FIR_CTRL_BAND_FIX : Fld := ⟨0x40700000, 5, 2⟩
/-- FIR_CLASS_CFG: R163, spec/07_firing_and_waveforms.md. -/
def FIR_CLASS_CFG_LEAD : Fld := ⟨0x40700004, 0, 6⟩
def FIR_CLASS_CFG_UP_PCT : Fld := ⟨0x40700004, 8, 8⟩
def FIR_CLASS_CFG_DOWN_PCT : Fld := ⟨0x40700004, 16, 8⟩
/-- FIR_PHASE: R163, spec/07_firing_and_waveforms.md. -/
def FIR_PHASE_OFF_N : Fld := ⟨0x40700008, 0, 12⟩
def FIR_PHASE_OFF_S : Fld := ⟨0x40700008, 16, 12⟩
def FIR_PHASE_PSHIFT : Fld := ⟨0x40700008, 28, 3⟩
/-- FIR_TMIN: R163, spec/07_firing_and_waveforms.md. -/
def FIR_TMIN_TMIN_N : Fld := ⟨0x4070000C, 0, 16⟩
def FIR_TMIN_TMIN_S : Fld := ⟨0x4070000C, 16, 16⟩
/-- FIR_RATE: R163, spec/07_firing_and_waveforms.md. -/
def FIR_RATE_RATE_N : Fld := ⟨0x40700010, 0, 24⟩
/-- FIR_RATE_S: R163, spec/07_firing_and_waveforms.md. -/
def FIR_RATE_S_RATE_S : Fld := ⟨0x40700014, 0, 24⟩
/-- FIR_STAT: R163, spec/07_firing_and_waveforms.md. -/
def FIR_STAT_OVERSPEED : Fld := ⟨0x40700018, 0, 1⟩
def FIR_STAT_LAG_BLANK : Fld := ⟨0x40700018, 1, 1⟩
def FIR_STAT_SWITCHED : Fld := ⟨0x40700018, 2, 1⟩
def FIR_STAT_NO_RANK : Fld := ⟨0x40700018, 3, 1⟩
def FIR_STAT_RES_OUT : Fld := ⟨0x40700018, 4, 1⟩
def FIR_STAT_HOT_WARN : Fld := ⟨0x40700018, 5, 1⟩
def FIR_STAT_HOT_PART : Fld := ⟨0x40700018, 6, 1⟩
def FIR_STAT_TEMP_LOST : Fld := ⟨0x40700018, 7, 1⟩
def FIR_STAT_TABLE_BAD : Fld := ⟨0x40700018, 8, 1⟩
/-- FIR_HOTFLAGS: R163, spec/07_firing_and_waveforms.md. -/
def FIR_HOTFLAGS_HOT : Fld := ⟨0x4070001C, 0, 24⟩
/-- FIR_HCEIL: R163, spec/07_firing_and_waveforms.md. -/
def FIR_HCEIL_CEIL : Fld := ⟨0x40700020, 0, 24⟩
/-- FIR_HTEMP_CFG: R163, spec/07_firing_and_waveforms.md. -/
def FIR_HTEMP_CFG_WARN : Fld := ⟨0x40700024, 0, 8⟩
def FIR_HTEMP_CFG_LIMIT : Fld := ⟨0x40700024, 8, 8⟩
def FIR_HTEMP_CFG_FLOOR_PCT : Fld := ⟨0x40700024, 16, 8⟩
/-- FIR_BAND_CFG: R163, spec/07_firing_and_waveforms.md. -/
def FIR_BAND_CFG_TB1 : Fld := ⟨0x40700028, 0, 8⟩
def FIR_BAND_CFG_TB2 : Fld := ⟨0x40700028, 8, 8⟩
def FIR_BAND_CFG_TB3 : Fld := ⟨0x40700028, 16, 8⟩
def FIR_BAND_CFG_HYST : Fld := ⟨0x40700028, 24, 4⟩
/-- FIR_RES_CFG: R163, spec/07_firing_and_waveforms.md. -/
def FIR_RES_CFG_EN : Fld := ⟨0x40700030, 0, 1⟩
def FIR_RES_CFG_PER_LINE : Fld := ⟨0x40700030, 1, 4⟩
def FIR_RES_CFG_GAP_PER_LINE : Fld := ⟨0x40700030, 5, 7⟩
def FIR_RES_CFG_IDLE_LINES : Fld := ⟨0x40700030, 12, 12⟩
/-- FIR_RES_WIN: R163, spec/07_firing_and_waveforms.md. -/
def FIR_RES_WIN_LO_PCT : Fld := ⟨0x40700034, 0, 8⟩
def FIR_RES_WIN_HI_PCT : Fld := ⟨0x40700034, 8, 8⟩
/-- FIR_RES_LAST: R163, spec/07_firing_and_waveforms.md. -/
def FIR_RES_LAST_OHMS : Fld := ⟨0x40700038, 0, 16⟩
def FIR_RES_LAST_PORT : Fld := ⟨0x40700038, 16, 5⟩
/-- FIR_RES_LASTN: R163, spec/07_firing_and_waveforms.md. -/
def FIR_RES_LASTN_NOZ : Fld := ⟨0x4070003C, 0, 13⟩
/-- FIR_SPIT_CFG: R163, spec/07_firing_and_waveforms.md. -/
def FIR_SPIT_CFG_CODE : Fld := ⟨0x40700068, 0, 2⟩
def FIR_SPIT_CFG_GAP_SPITS : Fld := ⟨0x40700068, 2, 6⟩
def FIR_SPIT_CFG_STRIDE : Fld := ⟨0x40700068, 8, 8⟩
def FIR_SPIT_CFG_PERIOD : Fld := ⟨0x40700068, 16, 16⟩
/-- FIR_HTEMP_p: R163, spec/07_firing_and_waveforms.md. -/
def FIR_HTEMP_TEMP (i : Nat) : Fld := ⟨0x40700100 + 0x4 * i, 0, 10⟩
def FIR_HTEMP_BAND (i : Nat) : Fld := ⟨0x40700100 + 0x4 * i, 10, 2⟩
def FIR_HTEMP_VALID (i : Nat) : Fld := ⟨0x40700100 + 0x4 * i, 12, 1⟩
/-- FIR_RANK_r: R163, spec/07_firing_and_waveforms.md. -/
def FIR_RANK_RNOM (i : Nat) : Fld := ⟨0x40700200 + 0x4 * i, 0, 16⟩
/-- FIR_OVERSPEED_LINES: R163, spec/07_firing_and_waveforms.md. -/
def FIR_OVERSPEED_LINES_COUNT : Fld := ⟨0x40700040, 0, 40⟩
/-- FIR_LAG_BLANK: R163, spec/07_firing_and_waveforms.md. -/
def FIR_LAG_BLANK_COUNT : Fld := ⟨0x40700048, 0, 40⟩
/-- FIR_RES_READS: R163, spec/07_firing_and_waveforms.md. -/
def FIR_RES_READS_COUNT : Fld := ⟨0x40700050, 0, 40⟩
/-- FIR_CLASS_SW: R163, spec/07_firing_and_waveforms.md. -/
def FIR_CLASS_SW_COUNT : Fld := ⟨0x40700058, 0, 16⟩
/-- FIR_RES_OUT: R163, spec/07_firing_and_waveforms.md. -/
def FIR_RES_OUT_COUNT : Fld := ⟨0x4070005C, 0, 16⟩
/-- FIR_RES_DEAD: R163, spec/07_firing_and_waveforms.md. -/
def FIR_RES_DEAD_COUNT : Fld := ⟨0x40700060, 0, 16⟩
/-- FIR_HOT_PARTS: R163, spec/07_firing_and_waveforms.md. -/
def FIR_HOT_PARTS_COUNT : Fld := ⟨0x40700064, 0, 16⟩
/-- FIR_WF_c_b_s_k: R164, spec/07_firing_and_waveforms.md. -/
def FIR_WF_START (i j k l : Nat) : Fld := ⟨0x40701000 + 0x100 * i + 0x40 * j + 0x10 * k + 0x4 * l, 0, 13⟩
def FIR_WF_WIDTH (i j k l : Nat) : Fld := ⟨0x40701000 + 0x100 * i + 0x40 * j + 0x10 * k + 0x4 * l, 16, 12⟩
/-- FIR_TRIM_c_t: R164, spec/07_firing_and_waveforms.md. -/
def FIR_TRIM_ADJ (i j : Nat) : Fld := ⟨0x40701200 + 0x80 * i + 0x4 * j, 0, 7⟩
/-- HLK_CTRL_p: R194, spec/08_head_link.md. -/
def HLK_CTRL_EN (i : Nat) : Fld := ⟨0x40800000 + 0x100 * i, 0, 1⟩
def HLK_CTRL_RETRAIN (i : Nat) : Fld := ⟨0x40800000 + 0x100 * i, 1, 1⟩
def HLK_CTRL_ONE_LANE_OK (i : Nat) : Fld := ⟨0x40800000 + 0x100 * i, 2, 1⟩
/-- HLK_STAT_p: R194, spec/08_head_link.md. -/
def HLK_STAT_STATE (i : Nat) : Fld := ⟨0x40800004 + 0x100 * i, 0, 3⟩
def HLK_STAT_LANES (i : Nat) : Fld := ⟨0x40800004 + 0x100 * i, 3, 2⟩
def HLK_STAT_FAILCAUSE (i : Nat) : Fld := ⟨0x40800004 + 0x100 * i, 5, 3⟩
def HLK_STAT_LANE_DOWN (i : Nat) : Fld := ⟨0x40800004 + 0x100 * i, 8, 1⟩
def HLK_STAT_FRAME_ERR (i : Nat) : Fld := ⟨0x40800004 + 0x100 * i, 9, 1⟩
def HLK_STAT_MISSING (i : Nat) : Fld := ⟨0x40800004 + 0x100 * i, 10, 1⟩
def HLK_STAT_TRIM_LATE (i : Nat) : Fld := ⟨0x40800004 + 0x100 * i, 11, 1⟩
def HLK_STAT_TX_LATE (i : Nat) : Fld := ⟨0x40800004 + 0x100 * i, 12, 1⟩
def HLK_STAT_CLAIM_LOW (i : Nat) : Fld := ⟨0x40800004 + 0x100 * i, 13, 1⟩
def HLK_STAT_SKIPPED (i : Nat) : Fld := ⟨0x40800004 + 0x100 * i, 14, 1⟩
/-- HLK_LAT_p: R194, spec/08_head_link.md. -/
def HLK_LAT_CABLE (i : Nat) : Fld := ⟨0x40800008 + 0x100 * i, 0, 10⟩
def HLK_LAT_EQ (i : Nat) : Fld := ⟨0x40800008 + 0x100 * i, 10, 10⟩
def HLK_LAT_RXLAT (i : Nat) : Fld := ⟨0x40800008 + 0x100 * i, 20, 7⟩
/-- HLK_CRED_p: R194, spec/08_head_link.md. -/
def HLK_CRED_GRANT (i : Nat) : Fld := ⟨0x4080000C + 0x100 * i, 0, 6⟩
def HLK_CRED_AVAIL (i : Nat) : Fld := ⟨0x4080000C + 0x100 * i, 8, 6⟩
def HLK_CRED_SENT (i : Nat) : Fld := ⟨0x4080000C + 0x100 * i, 16, 16⟩
/-- HLK_HCLAIM_p: R194, spec/08_head_link.md. -/
def HLK_HCLAIM_CLAIM (i : Nat) : Fld := ⟨0x40800010 + 0x100 * i, 0, 32⟩
/-- HLK_USAGE_p: R194, spec/08_head_link.md. -/
def HLK_USAGE_COUNT (i : Nat) : Fld := ⟨0x40800014 + 0x100 * i, 0, 32⟩
/-- HLK_USTAT_p: R194, spec/08_head_link.md. -/
def HLK_USTAT_GY5 (i : Nat) : Fld := ⟨0x40800018 + 0x100 * i, 0, 1⟩
def HLK_USTAT_KEY (i : Nat) : Fld := ⟨0x40800018 + 0x100 * i, 1, 1⟩
def HLK_USTAT_VERIFIED (i : Nat) : Fld := ⟨0x40800018 + 0x100 * i, 2, 1⟩
def HLK_USTAT_AUTH_FAIL (i : Nat) : Fld := ⟨0x40800018 + 0x100 * i, 3, 1⟩
def HLK_USTAT_PENDING (i : Nat) : Fld := ⟨0x40800018 + 0x100 * i, 4, 1⟩
/-- HLK_UACC_p: R194, spec/08_head_link.md. -/
def HLK_UACC_ACC (i : Nat) : Fld := ⟨0x4080001C + 0x100 * i, 0, 21⟩
/-- HLK_MISSING_p: R194, spec/08_head_link.md. -/
def HLK_MISSING_COUNT (i : Nat) : Fld := ⟨0x40800020 + 0x100 * i, 0, 40⟩
/-- HLK_ERRCNT_p: R194, spec/08_head_link.md. -/
def HLK_ERRCNT_FRAME (i : Nat) : Fld := ⟨0x40800028 + 0x100 * i, 0, 16⟩
def HLK_ERRCNT_TRIM_LATE (i : Nat) : Fld := ⟨0x40800028 + 0x100 * i, 16, 16⟩
/-- HLK_EVTCNT_p: R194, spec/08_head_link.md. -/
def HLK_EVTCNT_RETRAIN (i : Nat) : Fld := ⟨0x4080002C + 0x100 * i, 0, 16⟩
def HLK_EVTCNT_TX_LATE (i : Nat) : Fld := ⟨0x4080002C + 0x100 * i, 16, 16⟩
/-- HLK_CRED_RESET_p: R194, spec/08_head_link.md. -/
def HLK_CRED_RESET_COUNT (i : Nat) : Fld := ⟨0x40800030 + 0x100 * i, 0, 16⟩
/-- HLK_CLAIM: R194, spec/08_head_link.md. -/
def HLK_CLAIM_CLAIM : Fld := ⟨0x40802000, 0, 32⟩
/-- HLK_SEQ: R194, spec/08_head_link.md. -/
def HLK_SEQ_SEQ : Fld := ⟨0x40802008, 0, 40⟩
/-- HLK_HMEM_p: R194, spec/08_head_link.md. -/
def HLK_HMEM_DATA (i j : Nat) : Fld := ⟨0x40804000 + 0x80 * i + 0x4 * j, 0, 32⟩
/-- CAM_n_CFG: R213, spec/09_inspection.md. -/
def CAM_CFG_EN (i : Nat) : Fld := ⟨0x40900000 + 0x100 * i, 0, 1⟩
def CAM_CFG_LANES (i : Nat) : Fld := ⟨0x40900000 + 0x100 * i, 1, 2⟩
def CAM_CFG_VC (i : Nat) : Fld := ⟨0x40900000 + 0x100 * i, 3, 2⟩
def CAM_CFG_FMT (i : Nat) : Fld := ⟨0x40900000 + 0x100 * i, 5, 2⟩
def CAM_CFG_SCAN (i : Nat) : Fld := ⟨0x40900000 + 0x100 * i, 7, 1⟩
/-- CAM_n_SIZE: R213, spec/09_inspection.md. -/
def CAM_SIZE_WIDTH (i : Nat) : Fld := ⟨0x40900004 + 0x100 * i, 0, 15⟩
def CAM_SIZE_HEIGHT (i : Nat) : Fld := ⟨0x40900004 + 0x100 * i, 16, 11⟩
/-- CAM_n_PAD: R213, spec/09_inspection.md. -/
def CAM_PAD_PAD (i : Nat) : Fld := ⟨0x40900008 + 0x100 * i, 0, 12⟩
/-- CAM_n_LAT: R213, spec/09_inspection.md. -/
def CAM_LAT_LAT (i : Nat) : Fld := ⟨0x4090000C + 0x100 * i, 0, 16⟩
/-- CAM_n_YPITCH: R213, spec/09_inspection.md. -/
def CAM_YPITCH_YPITCH (i : Nat) : Fld := ⟨0x40900010 + 0x100 * i, 0, 32⟩
/-- CAM_n_STAT: R213, spec/09_inspection.md. -/
def CAM_STAT_SHORT_LINE (i : Nat) : Fld := ⟨0x40900014 + 0x100 * i, 0, 1⟩
def CAM_STAT_LONG_LINE (i : Nat) : Fld := ⟨0x40900014 + 0x100 * i, 1, 1⟩
def CAM_STAT_SHORT_FRAME (i : Nat) : Fld := ⟨0x40900014 + 0x100 * i, 2, 1⟩
def CAM_STAT_LONG_FRAME (i : Nat) : Fld := ⟨0x40900014 + 0x100 * i, 3, 1⟩
def CAM_STAT_OVERRUN (i : Nat) : Fld := ⟨0x40900014 + 0x100 * i, 4, 1⟩
def CAM_STAT_NO_FE (i : Nat) : Fld := ⟨0x40900014 + 0x100 * i, 5, 1⟩
def CAM_STAT_DT_DROP (i : Nat) : Fld := ⟨0x40900014 + 0x100 * i, 6, 1⟩
def CAM_STAT_HDR_ERR (i : Nat) : Fld := ⟨0x40900014 + 0x100 * i, 7, 1⟩
def CAM_STAT_CRC_ERR (i : Nat) : Fld := ⟨0x40900014 + 0x100 * i, 8, 1⟩
def CAM_STAT_DROPPED (i : Nat) : Fld := ⟨0x40900014 + 0x100 * i, 9, 1⟩
def CAM_STAT_SHARED (i : Nat) : Fld := ⟨0x40900014 + 0x100 * i, 10, 1⟩
/-- CAM_n_FRAMENO: R213, spec/09_inspection.md. -/
def CAM_FRAMENO_FRAMENO (i : Nat) : Fld := ⟨0x40900018 + 0x100 * i, 0, 32⟩
/-- CAM_n_DROPCNT: R213, spec/09_inspection.md. -/
def CAM_DROPCNT_COUNT (i : Nat) : Fld := ⟨0x4090001C + 0x100 * i, 0, 16⟩
/-- CAM_n_ERRCNT: R213, spec/09_inspection.md. -/
def CAM_ERRCNT_HDR (i : Nat) : Fld := ⟨0x40900020 + 0x100 * i, 0, 16⟩
def CAM_ERRCNT_CRC (i : Nat) : Fld := ⟨0x40900020 + 0x100 * i, 16, 16⟩
/-- CAM_n_CAP: R213, spec/09_inspection.md. -/
def CAM_CAP_REQ (i : Nat) : Fld := ⟨0x40900024 + 0x100 * i, 0, 1⟩
def CAM_CAP_RAWMODE (i : Nat) : Fld := ⟨0x40900024 + 0x100 * i, 1, 1⟩
def CAM_CAP_BUSY (i : Nat) : Fld := ⟨0x40900024 + 0x100 * i, 2, 1⟩
def CAM_CAP_DONE (i : Nat) : Fld := ⟨0x40900024 + 0x100 * i, 3, 1⟩
def CAM_CAP_TRUNC (i : Nat) : Fld := ⟨0x40900024 + 0x100 * i, 4, 1⟩
def CAM_CAP_REFUSED (i : Nat) : Fld := ⟨0x40900024 + 0x100 * i, 5, 1⟩
/-- CAM_n_CAPADDR: R213, spec/09_inspection.md. -/
def CAM_CAPADDR_ADDR (i : Nat) : Fld := ⟨0x40900028 + 0x100 * i, 0, 64⟩
/-- CAM_n_CAPSIZE: R213, spec/09_inspection.md. -/
def CAM_CAPSIZE_SIZE (i : Nat) : Fld := ⟨0x40900030 + 0x100 * i, 0, 32⟩
/-- CAM_n_CAPLEN: R213, spec/09_inspection.md. -/
def CAM_CAPLEN_LEN (i : Nat) : Fld := ⟨0x40900034 + 0x100 * i, 0, 32⟩
/-- CAM_PIPEn_GEOM: R213, spec/09_inspection.md. -/
def CAM_PIPE_GEOM_SCALE (i : Nat) : Fld := ⟨0x40901000 + 0x400 * i, 0, 24⟩
/-- CAM_PIPEn_DIST: R213, spec/09_inspection.md. -/
def CAM_PIPE_DIST_DIST (i : Nat) : Fld := ⟨0x40901004 + 0x400 * i, 0, 30⟩
/-- CAM_PIPEn_PORTS: R213, spec/09_inspection.md. -/
def CAM_PIPE_PORTS_PORTS (i : Nat) : Fld := ⟨0x40901008 + 0x400 * i, 0, 24⟩
/-- CAM_PIPEn_SCORE: R213, spec/09_inspection.md. -/
def CAM_PIPE_SCORE_THRESH (i : Nat) : Fld := ⟨0x4090100C + 0x400 * i, 0, 8⟩
def CAM_PIPE_SCORE_REF (i : Nat) : Fld := ⟨0x4090100C + 0x400 * i, 8, 8⟩
def CAM_PIPE_SCORE_ISO (i : Nat) : Fld := ⟨0x4090100C + 0x400 * i, 16, 3⟩
def CAM_PIPE_SCORE_MINHIT (i : Nat) : Fld := ⟨0x4090100C + 0x400 * i, 20, 4⟩
def CAM_PIPE_SCORE_VERDICT_EN (i : Nat) : Fld := ⟨0x4090100C + 0x400 * i, 24, 1⟩
/-- CAM_PIPEn_REGCFG: R213, spec/09_inspection.md. -/
def CAM_PIPE_REGCFG_MARKS (i : Nat) : Fld := ⟨0x40901010 + 0x400 * i, 0, 5⟩
def CAM_PIPE_REGCFG_SEARCH (i : Nat) : Fld := ⟨0x40901010 + 0x400 * i, 8, 8⟩
def CAM_PIPE_REGCFG_MTHRESH (i : Nat) : Fld := ⟨0x40901010 + 0x400 * i, 16, 8⟩
/-- CAM_PIPEn_MPERIOD: R213, spec/09_inspection.md. -/
def CAM_PIPE_MPERIOD_PERIOD (i : Nat) : Fld := ⟨0x40901014 + 0x400 * i, 0, 24⟩
/-- CAM_PIPEn_REG: R213, spec/09_inspection.md. -/
def CAM_PIPE_REG_DX (i : Nat) : Fld := ⟨0x40901018 + 0x400 * i, 0, 16⟩
def CAM_PIPE_REG_DY (i : Nat) : Fld := ⟨0x40901018 + 0x400 * i, 16, 16⟩
/-- CAM_PIPEn_STAT: R213, spec/09_inspection.md. -/
def CAM_PIPE_STAT_REG_LOST (i : Nat) : Fld := ⟨0x4090101C + 0x400 * i, 0, 1⟩
def CAM_PIPE_STAT_REG_MISS (i : Nat) : Fld := ⟨0x4090101C + 0x400 * i, 1, 1⟩
def CAM_PIPE_STAT_MASK_MISS (i : Nat) : Fld := ⟨0x4090101C + 0x400 * i, 2, 1⟩
def CAM_PIPE_STAT_SERVING (i : Nat) : Fld := ⟨0x4090101C + 0x400 * i, 3, 1⟩
def CAM_PIPE_STAT_FLICKER (i : Nat) : Fld := ⟨0x4090101C + 0x400 * i, 4, 1⟩
def CAM_PIPE_STAT_VERDICT (i : Nat) : Fld := ⟨0x4090101C + 0x400 * i, 5, 1⟩
/-- CAM_PIPEn_ILL: R213, spec/09_inspection.md. -/
def CAM_PIPE_ILL_X0 (i : Nat) : Fld := ⟨0x40901020 + 0x400 * i, 0, 14⟩
def CAM_PIPE_ILL_X1 (i : Nat) : Fld := ⟨0x40901020 + 0x400 * i, 16, 14⟩
/-- CAM_PIPEn_ILL2: R213, spec/09_inspection.md. -/
def CAM_PIPE_ILL2_HYST (i : Nat) : Fld := ⟨0x40901024 + 0x400 * i, 0, 8⟩
def CAM_PIPE_ILL2_DEPTH_MAX (i : Nat) : Fld := ⟨0x40901024 + 0x400 * i, 8, 8⟩
def CAM_PIPE_ILL2_EN (i : Nat) : Fld := ⟨0x40901024 + 0x400 * i, 16, 1⟩
/-- CAM_PIPEn_SCORES: R213, spec/09_inspection.md. -/
def CAM_PIPE_SCORES_COUNT (i : Nat) : Fld := ⟨0x40901040 + 0x400 * i, 0, 40⟩
/-- CAM_PIPEn_VERDICTS: R213, spec/09_inspection.md. -/
def CAM_PIPE_VERDICTS_COUNT (i : Nat) : Fld := ⟨0x40901048 + 0x400 * i, 0, 16⟩
def CAM_PIPE_VERDICTS_REGMISS (i : Nat) : Fld := ⟨0x40901048 + 0x400 * i, 16, 16⟩
/-- CAM_PIPEn_MASKMISS: R213, spec/09_inspection.md. -/
def CAM_PIPE_MASKMISS_COUNT (i : Nat) : Fld := ⟨0x40901050 + 0x400 * i, 0, 40⟩
/-- CAM_PIPEn_MARK_m: R213, spec/09_inspection.md. -/
def CAM_PIPE_MARK_Y (i j : Nat) : Fld := ⟨0x40901100 + 0x400 * i + 0x8 * j, 0, 24⟩
def CAM_PIPE_MARK_H (i j : Nat) : Fld := ⟨0x40901100 + 0x400 * i + 0x8 * j, 24, 8⟩
/-- CAM_PIPEn_MARK2_m: R213, spec/09_inspection.md. -/
def CAM_PIPE_MARK2_G (i j : Nat) : Fld := ⟨0x40901104 + 0x400 * i + 0x8 * j, 0, 18⟩
def CAM_PIPE_MARK2_W (i j : Nat) : Fld := ⟨0x40901104 + 0x400 * i + 0x8 * j, 18, 12⟩
/-- CAM_PIPEn_PORTX_p: R213, spec/09_inspection.md. -/
def CAM_PIPE_PORTX_X (i j : Nat) : Fld := ⟨0x40901200 + 0x400 * i + 0x4 * j, 0, 22⟩
/-- CAM_GCFG: R213, spec/09_inspection.md. -/
def CAM_GCFG_SHARE_EN : Fld := ⟨0x40902000, 0, 1⟩
def CAM_GCFG_MASK_DEPTH : Fld := ⟨0x40902000, 8, 7⟩
/-- CAM_SRING_LO: R213, spec/09_inspection.md. -/
def CAM_SRING_LO_ADDR_LO : Fld := ⟨0x40902008, 0, 32⟩
/-- CAM_SRING_HI: R213, spec/09_inspection.md. -/
def CAM_SRING_HI_ADDR_HI : Fld := ⟨0x4090200C, 0, 32⟩
/-- CAM_SRING_CFG: R213, spec/09_inspection.md. -/
def CAM_SRING_CFG_EN : Fld := ⟨0x40902010, 0, 1⟩
def CAM_SRING_CFG_SIZE : Fld := ⟨0x40902010, 1, 3⟩
/-- CAM_SRING_DONE: R213, spec/09_inspection.md. -/
def CAM_SRING_DONE_DONE : Fld := ⟨0x40902014, 0, 10⟩
/-- CAM_SRING_HEAD: R213, spec/09_inspection.md. -/
def CAM_SRING_HEAD_HEAD : Fld := ⟨0x40902018, 0, 10⟩
/-- CAM_SRING_DROP: R213, spec/09_inspection.md. -/
def CAM_SRING_DROP_COUNT : Fld := ⟨0x4090201C, 0, 16⟩
/-- TSL_CFG: R246, spec/10_pair_operation.md. -/
def TSL_CFG_PAIR_EN : Fld := ⟨0x40A00000, 0, 1⟩
def TSL_CFG_AUTO_RESYNC : Fld := ⟨0x40A00000, 1, 1⟩
def TSL_CFG_COPY_REPLAY : Fld := ⟨0x40A00000, 2, 1⟩
def TSL_CFG_WITHHOLD : Fld := ⟨0x40A00000, 3, 1⟩
def TSL_CFG_BILLET_WIN : Fld := ⟨0x40A00000, 8, 8⟩
def TSL_CFG_POS_TOL : Fld := ⟨0x40A00000, 16, 8⟩
/-- TSL_STAT: R246, spec/10_pair_operation.md. -/
def TSL_STAT_SIDE : Fld := ⟨0x40A00004, 0, 1⟩
def TSL_STAT_LANES : Fld := ⟨0x40A00004, 1, 3⟩
def TSL_STAT_PEER_LIVE : Fld := ⟨0x40A00004, 4, 1⟩
def TSL_STAT_HB_OK : Fld := ⟨0x40A00004, 5, 1⟩
def TSL_STAT_JOIN : Fld := ⟨0x40A00004, 6, 2⟩
def TSL_STAT_LINK_LOST : Fld := ⟨0x40A00004, 8, 1⟩
def TSL_STAT_DESYNC : Fld := ⟨0x40A00004, 9, 1⟩
def TSL_STAT_MISMATCH : Fld := ⟨0x40A00004, 10, 1⟩
def TSL_STAT_TAKEOVER : Fld := ⟨0x40A00004, 11, 1⟩
def TSL_STAT_FENCED : Fld := ⟨0x40A00004, 12, 1⟩
def TSL_STAT_JOIN_FAIL : Fld := ⟨0x40A00004, 13, 1⟩
def TSL_STAT_LANE_DOWN : Fld := ⟨0x40A00004, 14, 1⟩
def TSL_STAT_CAUSE : Fld := ⟨0x40A00004, 16, 4⟩
/-- TSL_PEER_CLAIM: R246, spec/10_pair_operation.md. -/
def TSL_PEER_CLAIM_CLAIM : Fld := ⟨0x40A00008, 0, 32⟩
/-- TSL_DETECT: R246, spec/10_pair_operation.md. -/
def TSL_DETECT_D : Fld := ⟨0x40A0000C, 0, 16⟩
/-- TSL_LOG_TX: R246, spec/10_pair_operation.md. -/
def TSL_LOG_TX_OFF : Fld := ⟨0x40A00010, 0, 32⟩
/-- TSL_LOG_ACK: R246, spec/10_pair_operation.md. -/
def TSL_LOG_ACK_OFF : Fld := ⟨0x40A00014, 0, 32⟩
/-- TSL_LOG_RX: R246, spec/10_pair_operation.md. -/
def TSL_LOG_RX_OFF : Fld := ⟨0x40A00018, 0, 32⟩
/-- TSL_POS_DELTA: R246, spec/10_pair_operation.md. -/
def TSL_POS_DELTA_DELTA : Fld := ⟨0x40A00020, 0, 40⟩
/-- TSL_TAKE_SEQ: R246, spec/10_pair_operation.md. -/
def TSL_TAKE_SEQ_SEQ : Fld := ⟨0x40A00028, 0, 40⟩
/-- TSL_JOIN_SEQ: R246, spec/10_pair_operation.md. -/
def TSL_JOIN_SEQ_SEQ : Fld := ⟨0x40A00030, 0, 40⟩
/-- TSL_WITHHELD: R246, spec/10_pair_operation.md. -/
def TSL_WITHHELD_COUNT : Fld := ⟨0x40A00038, 0, 40⟩
/-- TSL_OCRC_CNT: R246, spec/10_pair_operation.md. -/
def TSL_OCRC_CNT_MISMATCH : Fld := ⟨0x40A00040, 0, 16⟩
def TSL_OCRC_CNT_UNRES : Fld := ⟨0x40A00040, 16, 16⟩
/-- TSL_LINKCNT: R246, spec/10_pair_operation.md. -/
def TSL_LINKCNT_RESEND : Fld := ⟨0x40A00044, 0, 16⟩
def TSL_LINKCNT_BADFRAME : Fld := ⟨0x40A00044, 16, 16⟩
/-- TSL_EVTCNT: R246, spec/10_pair_operation.md. -/
def TSL_EVTCNT_TAKEOVERS : Fld := ⟨0x40A00048, 0, 8⟩
def TSL_EVTCNT_DESYNCS : Fld := ⟨0x40A00048, 8, 8⟩
def TSL_EVTCNT_JOINS : Fld := ⟨0x40A00048, 16, 8⟩
/-- MBX_DB: R267, spec/11_host_interface.md. -/
def MBX_DB_SLOT : Fld := ⟨0x40104000, 0, 6⟩
/-- MBX_CQ_HEAD: R267, spec/11_host_interface.md. -/
def MBX_CQ_HEAD_HEAD : Fld := ⟨0x40104008, 0, 11⟩
/-- MBX_CQ_TAIL: R267, spec/11_host_interface.md. -/
def MBX_CQ_TAIL_TAIL : Fld := ⟨0x4010400C, 0, 11⟩
/-- MBX_STAT: R267, spec/11_host_interface.md. -/
def MBX_STAT_CQ_LOST : Fld := ⟨0x40104010, 0, 1⟩
def MBX_STAT_BAR2_WR : Fld := ⟨0x40104010, 1, 1⟩
def MBX_STAT_HOSTRESET : Fld := ⟨0x40104010, 2, 1⟩
def MBX_STAT_UDP_OPEN : Fld := ⟨0x40104010, 3, 1⟩
def MBX_STAT_ACTIVE : Fld := ⟨0x40104010, 8, 7⟩
/-- MBX_CFG: R267, spec/11_host_interface.md. -/
def MBX_CFG_EVT_VEC : Fld := ⟨0x40104014, 0, 6⟩
def MBX_CFG_EVT_IRQ : Fld := ⟨0x40104014, 6, 1⟩
def MBX_CFG_MIRROR : Fld := ⟨0x40104014, 7, 1⟩
/-- MBX_CQ_MLO: R267, spec/11_host_interface.md. -/
def MBX_CQ_MLO_ADDR_LO : Fld := ⟨0x40104018, 0, 32⟩
/-- MBX_CQ_MHI: R267, spec/11_host_interface.md. -/
def MBX_CQ_MHI_ADDR_HI : Fld := ⟨0x4010401C, 0, 32⟩
/-- MBX_INGDB_n: R267, spec/11_host_interface.md. -/
def MBX_INGDB_TAIL (i : Nat) : Fld := ⟨0x40104020 + 0x4 * i, 0, 10⟩
/-- MBX_SLOTS: R267, spec/11_host_interface.md. -/
def MBX_SLOTS_LOCKED : Fld := ⟨0x40104030, 0, 64⟩
/-- MBX_IRQMOD: R267, spec/11_host_interface.md. -/
def MBX_IRQMOD_GAP : Fld := ⟨0x40104040, 0, 16⟩
/-- MBX_CQ_DROP: R267, spec/11_host_interface.md. -/
def MBX_CQ_DROP_COUNT : Fld := ⟨0x40104044, 0, 16⟩
/-- MBX_LOSTCPL: R267, spec/11_host_interface.md. -/
def MBX_LOSTCPL_COUNT : Fld := ⟨0x40104048, 0, 16⟩
/-- MBX_UDP_CFG: R267, spec/11_host_interface.md. -/
def MBX_UDP_CFG_EN : Fld := ⟨0x40104050, 0, 1⟩
def MBX_UDP_CFG_INGEST : Fld := ⟨0x40104050, 1, 1⟩
def MBX_UDP_CFG_TIMEOUT : Fld := ⟨0x40104050, 8, 8⟩
def MBX_UDP_CFG_UDPPORT : Fld := ⟨0x40104050, 16, 16⟩
/-- MBX_UDP_STAT: R267, spec/11_host_interface.md. -/
def MBX_UDP_STAT_DROP : Fld := ⟨0x40104054, 0, 16⟩
def MBX_UDP_STAT_BILDROP : Fld := ⟨0x40104054, 16, 16⟩
/-- MBX_UDP_SESS: R267, spec/11_host_interface.md. -/
def MBX_UDP_SESS_SESSION : Fld := ⟨0x40104058, 0, 16⟩
def MBX_UDP_SESS_OPEN : Fld := ⟨0x40104058, 16, 1⟩
def MBX_UDP_SESS_PORT : Fld := ⟨0x40104058, 17, 1⟩
/-- MBX_UDP_HOST: R267, spec/11_host_interface.md. -/
def MBX_UDP_HOST_ADDR : Fld := ⟨0x4010405C, 0, 32⟩
/-- MBX_UDP_IPn: R267, spec/11_host_interface.md. -/
def MBX_UDP_IP_ADDR (i : Nat) : Fld := ⟨0x40104060 + 0x4 * i, 0, 32⟩
/-- BTJ_RSTCAUSE: R313, spec/13_boot_and_journal.md. -/
def BTJ_RSTCAUSE_POR : Fld := ⟨0x41100004, 0, 1⟩
def BTJ_RSTCAUSE_PIN : Fld := ⟨0x41100004, 1, 1⟩
def BTJ_RSTCAUSE_SOFT : Fld := ⟨0x41100004, 2, 1⟩
def BTJ_RSTCAUSE_WDOG : Fld := ⟨0x41100004, 3, 1⟩
def BTJ_RSTCAUSE_CLEAN : Fld := ⟨0x41100004, 4, 1⟩
/-- BTJ_STAT: R313, spec/13_boot_and_journal.md. -/
def BTJ_STAT_STEP : Fld := ⟨0x41100008, 0, 4⟩
def BTJ_STAT_SLOT : Fld := ⟨0x41100008, 4, 1⟩
def BTJ_STAT_OC_SLOT : Fld := ⟨0x41100008, 5, 1⟩
def BTJ_STAT_OC_STATE : Fld := ⟨0x41100008, 6, 2⟩
def BTJ_STAT_CFG_COPY : Fld := ⟨0x41100008, 8, 1⟩
def BTJ_STAT_CFG_DEFAULT : Fld := ⟨0x41100008, 9, 1⟩
def BTJ_STAT_FLASH_SLOW : Fld := ⟨0x41100008, 10, 1⟩
def BTJ_STAT_NO_JOURNAL : Fld := ⟨0x41100008, 11, 1⟩
def BTJ_STAT_CAL_INTERRUPTED : Fld := ⟨0x41100008, 12, 1⟩
def BTJ_STAT_CAL_BANK : Fld := ⟨0x41100008, 13, 1⟩
def BTJ_STAT_CAL_DEFAULT : Fld := ⟨0x41100008, 14, 1⟩
def BTJ_STAT_OTP_MISMATCH : Fld := ⟨0x41100008, 15, 1⟩
def BTJ_STAT_DRAM_STORED : Fld := ⟨0x41100008, 16, 4⟩
def BTJ_STAT_PCIE_CAPPED : Fld := ⟨0x41100008, 20, 1⟩
/-- BTJ_BOOTNO: R313, spec/13_boot_and_journal.md. -/
def BTJ_BOOTNO_BOOTNO : Fld := ⟨0x4110000C, 0, 32⟩
/-- BTJ_FWVER: R313, spec/13_boot_and_journal.md. -/
def BTJ_FWVER_VERSION : Fld := ⟨0x41100010, 0, 32⟩
/-- BTJ_OCVER: R313, spec/13_boot_and_journal.md. -/
def BTJ_OCVER_VERSION : Fld := ⟨0x41100014, 0, 32⟩
/-- BTJ_SVN: R313, spec/13_boot_and_journal.md. -/
def BTJ_SVN_VENDOR : Fld := ⟨0x41100018, 0, 7⟩
def BTJ_SVN_CUST : Fld := ⟨0x41100018, 8, 6⟩
def BTJ_SVN_OTP_BLANK : Fld := ⟨0x41100018, 16, 1⟩
/-- BTJ_FAILRUN: R313, spec/13_boot_and_journal.md. -/
def BTJ_FAILRUN_RUN : Fld := ⟨0x4110001C, 0, 4⟩
/-- BTJ_BOOTTIME: R313, spec/13_boot_and_journal.md. -/
def BTJ_BOOTTIME_US : Fld := ⟨0x41100020, 0, 32⟩
/-- BTJ_JPTR: R313, spec/13_boot_and_journal.md. -/
def BTJ_JPTR_OFF : Fld := ⟨0x41100024, 0, 18⟩
/-- BTJ_IMGCAUSE: R313, spec/13_boot_and_journal.md. -/
def BTJ_IMGCAUSE_FW_A : Fld := ⟨0x41100028, 0, 4⟩
def BTJ_IMGCAUSE_FW_B : Fld := ⟨0x41100028, 4, 4⟩
def BTJ_IMGCAUSE_OC_A : Fld := ⟨0x41100028, 8, 4⟩
def BTJ_IMGCAUSE_OC_B : Fld := ⟨0x41100028, 12, 4⟩
/-- BTJ_FLASHERR: R313, spec/13_boot_and_journal.md. -/
def BTJ_FLASHERR_COUNT : Fld := ⟨0x4110002C, 0, 16⟩
/-- HIC_DOORBELL: R333, spec/14_headstock.md. -/
def HIC_DOORBELL_SRC : Fld := ⟨0x40000000, 0, 9⟩
/-- HIC_PEND_w: R333, spec/14_headstock.md. -/
def HIC_PEND_PEND (i : Nat) : Fld := ⟨0x40000100 + 0x4 * i, 0, 32⟩
/-- HIC_PEND_SET_w: R333, spec/14_headstock.md. -/
def HIC_PEND_SET_SET (i : Nat) : Fld := ⟨0x40000140 + 0x4 * i, 0, 32⟩
/-- HIC_PEND_CLR_w: R333, spec/14_headstock.md. -/
def HIC_PEND_CLR_CLR (i : Nat) : Fld := ⟨0x40000180 + 0x4 * i, 0, 32⟩
/-- HIC_EN_w: R333, spec/14_headstock.md. -/
def HIC_EN_EN (i : Nat) : Fld := ⟨0x40000200 + 0x4 * i, 0, 32⟩
/-- HIC_EN_SET_w: R333, spec/14_headstock.md. -/
def HIC_EN_SET_SET (i : Nat) : Fld := ⟨0x40000240 + 0x4 * i, 0, 32⟩
/-- HIC_EN_CLR_w: R333, spec/14_headstock.md. -/
def HIC_EN_CLR_CLR (i : Nat) : Fld := ⟨0x40000280 + 0x4 * i, 0, 32⟩
/-- HIC_INSVC_w: R333, spec/14_headstock.md. -/
def HIC_INSVC_INSVC (i : Nat) : Fld := ⟨0x40000300 + 0x4 * i, 0, 32⟩
/-- HIC_CLAIM_w: R333, spec/14_headstock.md. -/
def HIC_CLAIM_CLAIM (i : Nat) : Fld := ⟨0x40000400 + 0x4 * i, 0, 32⟩
/-- HIC_EOI: R333, spec/14_headstock.md. -/
def HIC_EOI_SRC : Fld := ⟨0x40000480, 0, 9⟩
def HIC_EOI_SPURIOUS : Fld := ⟨0x40000480, 31, 1⟩
/-- HIC_REDIRECT_T: R333, spec/14_headstock.md. -/
def HIC_REDIRECT_T_T : Fld := ⟨0x40000500, 0, 16⟩
/-- HIC_STAT: R333, spec/14_headstock.md. -/
def HIC_STAT_BADDB : Fld := ⟨0x40000504, 0, 1⟩
def HIC_STAT_REDIRECT : Fld := ⟨0x40000504, 1, 1⟩
def HIC_STAT_ORPHAN : Fld := ⟨0x40000504, 2, 1⟩
/-- HIC_AVIOL_ADDR: R333, spec/14_headstock.md. -/
def HIC_AVIOL_ADDR_ADDR : Fld := ⟨0x40000508, 0, 32⟩
/-- HIC_AVIOL_INFO: R333, spec/14_headstock.md. -/
def HIC_AVIOL_INFO_CORE : Fld := ⟨0x4000050C, 0, 3⟩
def HIC_AVIOL_INFO_WRITE : Fld := ⟨0x4000050C, 3, 1⟩
def HIC_AVIOL_INFO_EXEC : Fld := ⟨0x4000050C, 4, 1⟩
def HIC_AVIOL_INFO_VALID : Fld := ⟨0x4000050C, 31, 1⟩
/-- HIC_CORE_c: R333, spec/14_headstock.md. -/
def HIC_CORE_SLEEP (i : Nat) : Fld := ⟨0x40001800 + 0x4 * i, 0, 1⟩
def HIC_CORE_PARTED (i : Nat) : Fld := ⟨0x40001800 + 0x4 * i, 1, 1⟩
def HIC_CORE_NIRQ (i : Nat) : Fld := ⟨0x40001800 + 0x4 * i, 2, 1⟩
def HIC_CORE_FIRQ (i : Nat) : Fld := ⟨0x40001800 + 0x4 * i, 3, 1⟩
def HIC_CORE_INFAST (i : Nat) : Fld := ⟨0x40001800 + 0x4 * i, 4, 1⟩
def HIC_CORE_BAD_CLAIM (i : Nat) : Fld := ⟨0x40001800 + 0x4 * i, 5, 1⟩
def HIC_CORE_BAD_EOI (i : Nat) : Fld := ⟨0x40001800 + 0x4 * i, 6, 1⟩
/-- HIC_VBASE_c: R333, spec/14_headstock.md. -/
def HIC_VBASE_BASE (i : Nat) : Fld := ⟨0x40001840 + 0x4 * i, 8, 24⟩
/-- HIC_ROUTE_s: R333, spec/14_headstock.md. -/
def HIC_ROUTE_CORE (i : Nat) : Fld := ⟨0x40002000 + 0x4 * i, 0, 3⟩
def HIC_ROUTE_ALT (i : Nat) : Fld := ⟨0x40002000 + 0x4 * i, 3, 3⟩
def HIC_ROUTE_CLASS (i : Nat) : Fld := ⟨0x40002000 + 0x4 * i, 6, 1⟩
def HIC_ROUTE_WAKE (i : Nat) : Fld := ⟨0x40002000 + 0x4 * i, 7, 1⟩
def HIC_ROUTE_CUR (i : Nat) : Fld := ⟨0x40002000 + 0x4 * i, 8, 3⟩
def HIC_ROUTE_REDIR (i : Nat) : Fld := ⟨0x40002000 + 0x4 * i, 11, 1⟩
def HIC_ROUTE_LEVEL (i : Nat) : Fld := ⟨0x40002000 + 0x4 * i, 12, 1⟩
def HIC_ROUTE_OPEN (i : Nat) : Fld := ⟨0x40002000 + 0x4 * i, 13, 1⟩
def HIC_ROUTE_CLAIMER (i : Nat) : Fld := ⟨0x40002000 + 0x4 * i, 15, 3⟩
/-- HIC_EXT_n: R333, spec/14_headstock.md. -/
def HIC_EXT_FILT (i : Nat) : Fld := ⟨0x40003000 + 0x4 * i, 0, 8⟩
def HIC_EXT_SENSE (i : Nat) : Fld := ⟨0x40003000 + 0x4 * i, 8, 2⟩
def HIC_EXT_LINE (i : Nat) : Fld := ⟨0x40003000 + 0x4 * i, 10, 1⟩
/-- HIC_TMRn_CMP: R333, spec/14_headstock.md. -/
def HIC_TMR_CMP_CMP (i : Nat) : Fld := ⟨0x40003400 + 0x10 * i, 0, 40⟩
/-- HIC_TMRn_PERIOD: R333, spec/14_headstock.md. -/
def HIC_TMR_PERIOD_PERIOD (i : Nat) : Fld := ⟨0x40003408 + 0x10 * i, 0, 32⟩
/-- HIC_TMRn_CTRL: R333, spec/14_headstock.md. -/
def HIC_TMR_CTRL_EN (i : Nat) : Fld := ⟨0x4000340C + 0x10 * i, 0, 1⟩
/-- HIC_SPUR_s: R333, spec/14_headstock.md. -/
def HIC_SPUR_COUNT (i : Nat) : Fld := ⟨0x40003800 + 0x4 * i, 0, 16⟩
/-- DRC_CTRL: R348, spec/15_dram.md. -/
def DRC_CTRL_GRAIN : Fld := ⟨0x40B01000, 0, 4⟩
def DRC_CTRL_SCRUB_EN : Fld := ⟨0x40B01000, 4, 1⟩
def DRC_CTRL_DEMAND_WB : Fld := ⟨0x40B01000, 5, 1⟩
/-- DRC_LAYOUT: R348, spec/15_dram.md. -/
def DRC_LAYOUT_MASK_MAX : Fld := ⟨0x40B01004, 0, 7⟩
/-- DRC_STAT: R348, spec/15_dram.md. -/
def DRC_STAT_INUSE : Fld := ⟨0x40B01008, 0, 4⟩
def DRC_STAT_PARTED : Fld := ⟨0x40B01008, 4, 4⟩
def DRC_STAT_RELAYOUT_DUE : Fld := ⟨0x40B01008, 8, 1⟩
def DRC_STAT_ACC_SINGLE : Fld := ⟨0x40B01008, 9, 1⟩
def DRC_STAT_HOT : Fld := ⟨0x40B01008, 10, 1⟩
def DRC_STAT_DESC_BAD : Fld := ⟨0x40B01008, 11, 1⟩
/-- DRC_STORE_MB: R348, spec/15_dram.md. -/
def DRC_STORE_MB_MB : Fld := ⟨0x40B0100C, 0, 20⟩
/-- DRC_SCRUB: R348, spec/15_dram.md. -/
def DRC_SCRUB_HOURS : Fld := ⟨0x40B01010, 0, 8⟩
/-- DRC_SCRUB_PASS: R348, spec/15_dram.md. -/
def DRC_SCRUB_PASS_COUNT : Fld := ⟨0x40B01014, 0, 32⟩
/-- DRC_CHc_STAT: R348, spec/15_dram.md. -/
def DRC_CH_STAT_STATE (i : Nat) : Fld := ⟨0x40B00000 + 0x100 * i, 0, 2⟩
def DRC_CH_STAT_TBAND (i : Nat) : Fld := ⟨0x40B00000 + 0x100 * i, 2, 2⟩
def DRC_CH_STAT_STORED (i : Nat) : Fld := ⟨0x40B00000 + 0x100 * i, 4, 1⟩
def DRC_CH_STAT_ALERT (i : Nat) : Fld := ⟨0x40B00000 + 0x100 * i, 5, 1⟩
def DRC_CH_STAT_CE (i : Nat) : Fld := ⟨0x40B00000 + 0x100 * i, 6, 1⟩
def DRC_CH_STAT_UE (i : Nat) : Fld := ⟨0x40B00000 + 0x100 * i, 7, 1⟩
def DRC_CH_STAT_REPLAY_FAIL (i : Nat) : Fld := ⟨0x40B00000 + 0x100 * i, 8, 1⟩
/-- DRC_CHc_TEMP: R348, spec/15_dram.md. -/
def DRC_CH_TEMP_DIODE (i : Nat) : Fld := ⟨0x40B00004 + 0x100 * i, 0, 2⟩
def DRC_CH_TEMP_TEMP (i : Nat) : Fld := ⟨0x40B00004 + 0x100 * i, 8, 10⟩
def DRC_CH_TEMP_VALID (i : Nat) : Fld := ⟨0x40B00004 + 0x100 * i, 18, 1⟩
/-- DRC_CHc_CNT: R348, spec/15_dram.md. -/
def DRC_CH_CNT_CE (i : Nat) : Fld := ⟨0x40B00008 + 0x100 * i, 0, 16⟩
def DRC_CH_CNT_UE (i : Nat) : Fld := ⟨0x40B00008 + 0x100 * i, 16, 16⟩
/-- DRC_CHc_ALERT: R348, spec/15_dram.md. -/
def DRC_CH_ALERT_ALERTS (i : Nat) : Fld := ⟨0x40B0000C + 0x100 * i, 0, 16⟩
def DRC_CH_ALERT_REPLAYS (i : Nat) : Fld := ⟨0x40B0000C + 0x100 * i, 16, 16⟩
/-- DRC_CHc_ERRADDR: R348, spec/15_dram.md. -/
def DRC_CH_ERRADDR_CA (i : Nat) : Fld := ⟨0x40B00010 + 0x100 * i, 0, 40⟩
/-- DRC_CHc_ERRSYN: R348, spec/15_dram.md. -/
def DRC_CH_ERRSYN_SYN (i : Nat) : Fld := ⟨0x40B00018 + 0x100 * i, 0, 16⟩
def DRC_CH_ERRSYN_SYMBOL (i : Nat) : Fld := ⟨0x40B00018 + 0x100 * i, 16, 6⟩
/-- DRC_CHc_SIZE: R348, spec/15_dram.md. -/
def DRC_CH_SIZE_MB (i : Nat) : Fld := ⟨0x40B0001C + 0x100 * i, 0, 16⟩
/-- TMB_CTRL: R362, spec/16_time_base.md. -/
def TMB_CTRL_REACQ : Fld := ⟨0x40C00000, 0, 1⟩
/-- TMB_CFG: R362, spec/16_time_base.md. -/
def TMB_CFG_P0EN : Fld := ⟨0x40C00004, 0, 1⟩
def TMB_CFG_P1EN : Fld := ⟨0x40C00004, 1, 1⟩
def TMB_CFG_BOUNDARY : Fld := ⟨0x40C00004, 2, 1⟩
def TMB_CFG_TWO_STEP : Fld := ⟨0x40C00004, 3, 1⟩
def TMB_CFG_PROFILE : Fld := ⟨0x40C00004, 4, 4⟩
def TMB_CFG_DOMAIN : Fld := ⟨0x40C00004, 8, 8⟩
def TMB_CFG_LOCK_NS : Fld := ⟨0x40C00004, 16, 8⟩
/-- TMB_STAT: R362, spec/16_time_base.md. -/
def TMB_STAT_STATE : Fld := ⟨0x40C00008, 0, 2⟩
def TMB_STAT_STEPPED : Fld := ⟨0x40C00008, 2, 1⟩
def TMB_STAT_LOST_GM : Fld := ⟨0x40C00008, 3, 1⟩
def TMB_STAT_OFFSET_LARGE : Fld := ⟨0x40C00008, 4, 1⟩
def TMB_STAT_SLAVE : Fld := ⟨0x40C00008, 5, 2⟩
/-- TMB_ASYM_IN_n: R362, spec/16_time_base.md. -/
def TMB_ASYM_IN_ASYM (i : Nat) : Fld := ⟨0x40C00010 + 0x8 * i, 0, 32⟩
/-- TMB_ASYM_EG_n: R362, spec/16_time_base.md. -/
def TMB_ASYM_EG_ASYM (i : Nat) : Fld := ⟨0x40C00014 + 0x8 * i, 0, 32⟩
/-- TMB_TIME40: R362, spec/16_time_base.md. -/
def TMB_TIME40_T : Fld := ⟨0x40C00020, 0, 40⟩
/-- TMB_PTP_NS: R362, spec/16_time_base.md. -/
def TMB_PTP_NS_NS : Fld := ⟨0x40C00028, 0, 30⟩
/-- TMB_PTP_SEC: R362, spec/16_time_base.md. -/
def TMB_PTP_SEC_SEC : Fld := ⟨0x40C0002C, 0, 48⟩
/-- TMB_OFFSET: R362, spec/16_time_base.md. -/
def TMB_OFFSET_O : Fld := ⟨0x40C00034, 0, 32⟩
/-- TMB_RATE: R362, spec/16_time_base.md. -/
def TMB_RATE_R : Fld := ⟨0x40C00038, 0, 32⟩
/-- TMB_PATHDLY: R362, spec/16_time_base.md. -/
def TMB_PATHDLY_D : Fld := ⟨0x40C0003C, 0, 32⟩
/-- TMB_STEP_AMT: R362, spec/16_time_base.md. -/
def TMB_STEP_AMT_AMT : Fld := ⟨0x40C00040, 0, 40⟩
/-- TMB_STEP_AT: R362, spec/16_time_base.md. -/
def TMB_STEP_AT_T : Fld := ⟨0x40C00048, 0, 40⟩
/-- TMB_GM_ID: R362, spec/16_time_base.md. -/
def TMB_GM_ID_ID : Fld := ⟨0x40C00050, 0, 64⟩
/-- TMB_UTC: R362, spec/16_time_base.md. -/
def TMB_UTC_OFFSET : Fld := ⟨0x40C00058, 0, 16⟩
def TMB_UTC_VALID : Fld := ⟨0x40C00058, 16, 1⟩
/-- TMB_CNT: R362, spec/16_time_base.md. -/
def TMB_CNT_STEPS : Fld := ⟨0x40C0005C, 0, 8⟩
def TMB_CNT_GMCHANGE : Fld := ⟨0x40C0005C, 8, 8⟩
def TMB_CNT_BADMSG : Fld := ⟨0x40C0005C, 16, 16⟩
/-- FLT_STATUS: R379, spec/17_faults_and_accounting.md. -/
def FLT_STATUS_STATUS : Fld := ⟨0x40D00000, 0, 64⟩
/-- FLT_PARTED: R379, spec/17_faults_and_accounting.md. -/
def FLT_PARTED_PARTED : Fld := ⟨0x40D00008, 0, 64⟩
/-- FLT_HELD: R379, spec/17_faults_and_accounting.md. -/
def FLT_HELD_HELD : Fld := ⟨0x40D00010, 0, 64⟩
/-- FLT_CHIP: R379, spec/17_faults_and_accounting.md. -/
def FLT_CHIP_CHIP : Fld := ⟨0x40D00018, 0, 64⟩
/-- FLT_FIRST: R379, spec/17_faults_and_accounting.md. -/
def FLT_FIRST_SRC : Fld := ⟨0x40D00020, 0, 6⟩
def FLT_FIRST_UNIT : Fld := ⟨0x40D00020, 8, 8⟩
def FLT_FIRST_CAUSE : Fld := ⟨0x40D00020, 16, 6⟩
def FLT_FIRST_VALID : Fld := ⟨0x40D00020, 31, 1⟩
/-- FLT_FIRST_T: R379, spec/17_faults_and_accounting.md. -/
def FLT_FIRST_T_T : Fld := ⟨0x40D00024, 0, 40⟩
/-- FLT_QUIET: R379, spec/17_faults_and_accounting.md. -/
def FLT_QUIET_MS : Fld := ⟨0x40D00030, 0, 16⟩
def FLT_QUIET_HOLD_N : Fld := ⟨0x40D00030, 16, 8⟩
/-- FLT_CLEAR: R379, spec/17_faults_and_accounting.md. -/
def FLT_CLEAR_CLEAR : Fld := ⟨0x40D00038, 0, 64⟩
/-- FLT_SRC_s: R379, spec/17_faults_and_accounting.md. -/
def FLT_SRC_RECOV (i : Nat) : Fld := ⟨0x40D00100 + 0x4 * i, 0, 16⟩
def FLT_SRC_UNIT (i : Nat) : Fld := ⟨0x40D00100 + 0x4 * i, 16, 8⟩
def FLT_SRC_CAUSE (i : Nat) : Fld := ⟨0x40D00100 + 0x4 * i, 24, 6⟩
def FLT_SRC_PARTED (i : Nat) : Fld := ⟨0x40D00100 + 0x4 * i, 30, 1⟩
def FLT_SRC_HELD (i : Nat) : Fld := ⟨0x40D00100 + 0x4 * i, 31, 1⟩
/-- FLT_ECC_k: R379, spec/17_faults_and_accounting.md. -/
def FLT_ECC_CE (i : Nat) : Fld := ⟨0x40D00200 + 0x4 * i, 0, 16⟩
def FLT_ECC_UE (i : Nat) : Fld := ⟨0x40D00200 + 0x4 * i, 16, 16⟩
/-- CNT_SNAP: R380, spec/17_faults_and_accounting.md. -/
def CNT_SNAP_REQ : Fld := ⟨0x40E00000, 0, 1⟩
def CNT_SNAP_NEXT : Fld := ⟨0x40E00000, 1, 1⟩
def CNT_SNAP_PENDING : Fld := ⟨0x40E00000, 2, 1⟩
def CNT_SNAP_BUSY : Fld := ⟨0x40E00000, 3, 1⟩
def CNT_SNAP_BANK : Fld := ⟨0x40E00000, 4, 1⟩
def CNT_SNAP_GEN : Fld := ⟨0x40E00000, 16, 16⟩
/-- CNT_DRAIN: R380, spec/17_faults_and_accounting.md. -/
def CNT_DRAIN_REQ : Fld := ⟨0x40E00004, 0, 1⟩
def CNT_DRAIN_BUSY : Fld := ⟨0x40E00004, 1, 1⟩
def CNT_DRAIN_SAT : Fld := ⟨0x40E00004, 2, 1⟩
/-- CNT_SNAP_AT: R380, spec/17_faults_and_accounting.md. -/
def CNT_SNAP_AT_LINE : Fld := ⟨0x40E00008, 0, 40⟩
/-- CNT_CSHAV: R380, spec/17_faults_and_accounting.md. -/
def CNT_CSHAV_COUNT : Fld := ⟨0x40E00010, 0, 40⟩
/-- CNT_COMMITTED: R380, spec/17_faults_and_accounting.md. -/
def CNT_COMMITTED_COUNT : Fld := ⟨0x40E00018, 0, 7⟩
/-- CNT_MBX_LOCK: R380, spec/17_faults_and_accounting.md. -/
def CNT_MBX_LOCK_COUNT : Fld := ⟨0x40E00020, 0, 40⟩
/-- CNT_MBX_FINAL: R380, spec/17_faults_and_accounting.md. -/
def CNT_MBX_FINAL_COUNT : Fld := ⟨0x40E00028, 0, 40⟩
/-- CNT_DRAINS: R380, spec/17_faults_and_accounting.md. -/
def CNT_DRAINS_COUNT : Fld := ⟨0x40E00030, 0, 16⟩
/-- CNT_DRAIN_T: R380, spec/17_faults_and_accounting.md. -/
def CNT_DRAIN_T_T : Fld := ⟨0x40E00034, 0, 40⟩
/-- CNT_LINES_p: R380, spec/17_faults_and_accounting.md. -/
def CNT_LINES_COUNT (i : Nat) : Fld := ⟨0x40E01000 + 0x80 * i, 0, 40⟩
/-- CNT_FIRED_p: R380, spec/17_faults_and_accounting.md. -/
def CNT_FIRED_COUNT (i : Nat) : Fld := ⟨0x40E01008 + 0x80 * i, 0, 40⟩
/-- CNT_BL_PARTED_p: R380, spec/17_faults_and_accounting.md. -/
def CNT_BL_PARTED_COUNT (i : Nat) : Fld := ⟨0x40E01010 + 0x80 * i, 0, 40⟩
/-- CNT_BL_PARTHO_p: R380, spec/17_faults_and_accounting.md. -/
def CNT_BL_PARTHO_COUNT (i : Nat) : Fld := ⟨0x40E01018 + 0x80 * i, 0, 40⟩
/-- CNT_BL_OUT_p: R380, spec/17_faults_and_accounting.md. -/
def CNT_BL_OUT_COUNT (i : Nat) : Fld := ⟨0x40E01020 + 0x80 * i, 0, 40⟩
/-- CNT_BL_RENDER_p: R380, spec/17_faults_and_accounting.md. -/
def CNT_BL_RENDER_COUNT (i : Nat) : Fld := ⟨0x40E01028 + 0x80 * i, 0, 40⟩
/-- CNT_BL_WITHHELD_p: R380, spec/17_faults_and_accounting.md. -/
def CNT_BL_WITHHELD_COUNT (i : Nat) : Fld := ⟨0x40E01030 + 0x80 * i, 0, 40⟩
/-- CNT_BL_TX_p: R380, spec/17_faults_and_accounting.md. -/
def CNT_BL_TX_COUNT (i : Nat) : Fld := ⟨0x40E01038 + 0x80 * i, 0, 40⟩
/-- CNT_BL_SPACE_p: R380, spec/17_faults_and_accounting.md. -/
def CNT_BL_SPACE_COUNT (i : Nat) : Fld := ⟨0x40E01040 + 0x80 * i, 0, 40⟩
/-- CNT_SATMAP_w: R380, spec/17_faults_and_accounting.md. -/
def CNT_SATMAP_SAT (i : Nat) : Fld := ⟨0x40E04000 + 0x4 * i, 0, 32⟩
/-- CHK_CTRL: R402, spec/18_chuck.md. -/
def CHK_CTRL_TRIM_MAN : Fld := ⟨0x40F00000, 0, 1⟩
def CHK_CTRL_SENSE_MAN : Fld := ⟨0x40F00000, 1, 1⟩
/-- CHK_STAT: R402, spec/18_chuck.md. -/
def CHK_STAT_TBAND : Fld := ⟨0x40F00004, 0, 2⟩
def CHK_STAT_THROTTLE : Fld := ⟨0x40F00004, 2, 1⟩
def CHK_STAT_RISE : Fld := ⟨0x40F00004, 3, 1⟩
def CHK_STAT_SENS_BROKEN : Fld := ⟨0x40F00004, 4, 1⟩
def CHK_STAT_SENS_MANY : Fld := ⟨0x40F00004, 5, 1⟩
def CHK_STAT_HV_PG_LOST : Fld := ⟨0x40F00004, 6, 1⟩
def CHK_STAT_AVS_RETRY : Fld := ⟨0x40F00004, 7, 1⟩
def CHK_STAT_RD_BAD : Fld := ⟨0x40F00004, 8, 1⟩
/-- CHK_DIE: R402, spec/18_chuck.md. -/
def CHK_DIE_TMAX : Fld := ⟨0x40F00008, 0, 11⟩
def CHK_DIE_TMEAN : Fld := ⟨0x40F00008, 16, 11⟩
/-- CHK_DIE_CFG: R402, spec/18_chuck.md. -/
def CHK_DIE_CFG_WARN : Fld := ⟨0x40F0000C, 0, 8⟩
def CHK_DIE_CFG_LIMIT : Fld := ⟨0x40F0000C, 8, 8⟩
def CHK_DIE_CFG_FLOOR_PCT : Fld := ⟨0x40F0000C, 16, 8⟩
/-- CHK_RISE_CFG: R402, spec/18_chuck.md. -/
def CHK_RISE_CFG_RISE_MAX : Fld := ⟨0x40F00010, 0, 8⟩
def CHK_RISE_CFG_RISE_BAND : Fld := ⟨0x40F00010, 8, 8⟩
def CHK_RISE_CFG_HOR : Fld := ⟨0x40F00010, 16, 8⟩
def CHK_RISE_CFG_RAMP_PCT : Fld := ⟨0x40F00010, 24, 8⟩
/-- CHK_RISE: R402, spec/18_chuck.md. -/
def CHK_RISE_RATE : Fld := ⟨0x40F00014, 0, 16⟩
/-- CHK_XCHK: R402, spec/18_chuck.md. -/
def CHK_XCHK_LIMIT : Fld := ⟨0x40F00018, 0, 8⟩
/-- CHK_TS_BROKEN: R402, spec/18_chuck.md. -/
def CHK_TS_BROKEN_BROKEN : Fld := ⟨0x40F0001C, 0, 24⟩
/-- CHK_CEIL: R402, spec/18_chuck.md. -/
def CHK_CEIL_DIE : Fld := ⟨0x40F00020, 0, 24⟩
/-- CHK_CEIL_T: R402, spec/18_chuck.md. -/
def CHK_CEIL_T_THERMAL : Fld := ⟨0x40F00024, 0, 24⟩
/-- CHK_SPFLOOR: R402, spec/18_chuck.md. -/
def CHK_SPFLOOR_F0 : Fld := ⟨0x40F00028, 0, 5⟩
def CHK_SPFLOOR_F1 : Fld := ⟨0x40F00028, 8, 5⟩
def CHK_SPFLOOR_F2 : Fld := ⟨0x40F00028, 16, 5⟩
def CHK_SPFLOOR_F3 : Fld := ⟨0x40F00028, 24, 5⟩
/-- CHK_VCORE: R402, spec/18_chuck.md. -/
def CHK_VCORE_TARGET : Fld := ⟨0x40F0002C, 0, 10⟩
def CHK_VCORE_MEAS : Fld := ⟨0x40F0002C, 16, 10⟩
/-- CHK_VSP: R402, spec/18_chuck.md. -/
def CHK_VSP_TARGET : Fld := ⟨0x40F00030, 0, 10⟩
def CHK_VSP_MEAS : Fld := ⟨0x40F00030, 16, 10⟩
/-- CHK_RAIL: R402, spec/18_chuck.md. -/
def CHK_RAIL_EN : Fld := ⟨0x40F00034, 0, 7⟩
def CHK_RAIL_PG : Fld := ⟨0x40F00034, 8, 7⟩
/-- CHK_HV: R402, spec/18_chuck.md. -/
def CHK_HV_EN : Fld := ⟨0x40F00038, 0, 4⟩
def CHK_HV_PG : Fld := ⟨0x40F00038, 8, 4⟩
/-- CHK_FFCFG: R402, spec/18_chuck.md. -/
def CHK_FFCFG_DARK_MAX : Fld := ⟨0x40F0003C, 0, 12⟩
def CHK_FFCFG_WHITE_MIN : Fld := ⟨0x40F0003C, 16, 12⟩
/-- CHK_CAL: R402, spec/18_chuck.md. -/
def CHK_CAL_GEN : Fld := ⟨0x40F00040, 0, 32⟩
/-- CHK_CAL2: R402, spec/18_chuck.md. -/
def CHK_CAL2_BANK : Fld := ⟨0x40F00044, 0, 1⟩
def CHK_CAL2_POINTS : Fld := ⟨0x40F00044, 1, 4⟩
def CHK_CAL2_DEFAULT : Fld := ⟨0x40F00044, 5, 1⟩
/-- CHK_CNT: R402, spec/18_chuck.md. -/
def CHK_CNT_AVS_RETRY : Fld := ⟨0x40F00048, 0, 16⟩
def CHK_CNT_THROTTLES : Fld := ⟨0x40F00048, 16, 16⟩
/-- CHK_CALPT_k: R402, spec/18_chuck.md. -/
def CHK_CALPT_TEMP (i : Nat) : Fld := ⟨0x40F00060 + 0x4 * i, 0, 11⟩
def CHK_CALPT_VALID (i : Nat) : Fld := ⟨0x40F00060 + 0x4 * i, 15, 1⟩
/-- CHK_HVTGT_p: R402, spec/18_chuck.md. -/
def CHK_HVTGT_TGT (i : Nat) : Fld := ⟨0x40F00100 + 0x4 * i, 0, 16⟩
/-- CHK_TRIM_p: R402, spec/18_chuck.md. -/
def CHK_TRIM_CODE (i : Nat) : Fld := ⟨0x40F00180 + 0x4 * i, 0, 12⟩
def CHK_TRIM_MAN (i : Nat) : Fld := ⟨0x40F00180 + 0x4 * i, 16, 12⟩
/-- CHK_SENSE_d: R402, spec/18_chuck.md. -/
def CHK_SENSE_LO (i : Nat) : Fld := ⟨0x40F00200 + 0x4 * i, 0, 10⟩
def CHK_SENSE_HI (i : Nat) : Fld := ⟨0x40F00200 + 0x4 * i, 16, 10⟩
/-- CHK_CH_k: R402, spec/18_chuck.md. -/
def CHK_CH_VALUE (i : Nat) : Fld := ⟨0x40F00400 + 0x4 * i, 0, 16⟩
def CHK_CH_VALID (i : Nat) : Fld := ⟨0x40F00400 + 0x4 * i, 16, 1⟩
def CHK_CH_SUBST (i : Nat) : Fld := ⟨0x40F00400 + 0x4 * i, 17, 1⟩
/-- MOT_AXn word 0: R418, spec/19_motion.md. -/
def MOT_AX_W0_PRINT_OK (i : Nat) : Fld := ⟨0x41000000 + 0x80 * i, 0, 1⟩
def MOT_AX_W0_RETAIN (i : Nat) : Fld := ⟨0x41000000 + 0x80 * i, 1, 1⟩
def MOT_AX_W0_DIR_INV (i : Nat) : Fld := ⟨0x41000000 + 0x80 * i, 2, 1⟩
def MOT_AX_W0_STALL_STOP (i : Nat) : Fld := ⟨0x41000000 + 0x80 * i, 3, 1⟩
def MOT_AX_W0_STALL_POL (i : Nat) : Fld := ⟨0x41000000 + 0x80 * i, 4, 1⟩
def MOT_AX_W0_FAULT_POL (i : Nat) : Fld := ⟨0x41000000 + 0x80 * i, 5, 1⟩
def MOT_AX_W0_FILT (i : Nat) : Fld := ⟨0x41000000 + 0x80 * i, 8, 8⟩
def MOT_AX_W0_SSI (i : Nat) : Fld := ⟨0x41000000 + 0x80 * i, 16, 3⟩
def MOT_AX_W0_SSI_ACT (i : Nat) : Fld := ⟨0x41000000 + 0x80 * i, 19, 1⟩
def MOT_AX_W0_PULSE (i : Nat) : Fld := ⟨0x41000000 + 0x80 * i, 24, 8⟩
/-- MOT_AXn word 1: R418, spec/19_motion.md. -/
def MOT_AX_W1_SPEED_MAX (i : Nat) : Fld := ⟨0x41000004 + 0x80 * i, 0, 21⟩
/-- MOT_AXn word 2: R418, spec/19_motion.md. -/
def MOT_AX_W2_ACC_DEF (i : Nat) : Fld := ⟨0x41000008 + 0x80 * i, 0, 32⟩
/-- MOT_AXn word 3: R418, spec/19_motion.md. -/
def MOT_AX_W3_DEC_DEF (i : Nat) : Fld := ⟨0x4100000C + 0x80 * i, 0, 32⟩
/-- MOT_AXn word 4: R418, spec/19_motion.md. -/
def MOT_AX_W4_DEC_MAX (i : Nat) : Fld := ⟨0x41000010 + 0x80 * i, 0, 32⟩
/-- MOT_AXn word 5: R418, spec/19_motion.md. -/
def MOT_AX_W5_SPEED_DEF (i : Nat) : Fld := ⟨0x41000014 + 0x80 * i, 0, 21⟩
/-- MOT_AXn_LIM_LO: R418, spec/19_motion.md. -/
def MOT_AX_LIM_LO_LIM_LO (i : Nat) : Fld := ⟨0x41000018 + 0x80 * i, 0, 32⟩
/-- MOT_AXn_LIM_HI: R418, spec/19_motion.md. -/
def MOT_AX_LIM_HI_LIM_HI (i : Nat) : Fld := ⟨0x4100001C + 0x80 * i, 0, 32⟩
/-- MOT_AXn word 8: R418, spec/19_motion.md. -/
def MOT_AX_W8_HOME_POS (i : Nat) : Fld := ⟨0x41000020 + 0x80 * i, 0, 32⟩
/-- MOT_AXn word 9: R418, spec/19_motion.md. -/
def MOT_AX_W9_HOME_TRAVEL (i : Nat) : Fld := ⟨0x41000024 + 0x80 * i, 0, 32⟩
/-- MOT_AXn word 10: R418, spec/19_motion.md. -/
def MOT_AX_W10_STALL_MIN (i : Nat) : Fld := ⟨0x41000028 + 0x80 * i, 0, 21⟩
def MOT_AX_W10_STALL_BLANK (i : Nat) : Fld := ⟨0x41000028 + 0x80 * i, 24, 8⟩
/-- MOT_AXn word 11: R418, spec/19_motion.md. -/
def MOT_AX_W11_UNCERT_MAX (i : Nat) : Fld := ⟨0x4100002C + 0x80 * i, 0, 16⟩
/-- MOT_AXn word 12: R418, spec/19_motion.md. -/
def MOT_AX_W12_SSI_SCALE (i : Nat) : Fld := ⟨0x41000030 + 0x80 * i, 0, 32⟩
/-- MOT_AXn word 13: R418, spec/19_motion.md. -/
def MOT_AX_W13_SSI_OFF (i : Nat) : Fld := ⟨0x41000034 + 0x80 * i, 0, 32⟩
/-- MOT_AXn word 14: R418, spec/19_motion.md. -/
def MOT_AX_W14_SSI_TOL (i : Nat) : Fld := ⟨0x41000038 + 0x80 * i, 0, 16⟩
/-- MOT_AXn_STAT: R418, spec/19_motion.md. -/
def MOT_AX_STAT_STATE (i : Nat) : Fld := ⟨0x41000040 + 0x80 * i, 0, 3⟩
def MOT_AX_STAT_LOST (i : Nat) : Fld := ⟨0x41000040 + 0x80 * i, 3, 1⟩
def MOT_AX_STAT_UNCERTAIN (i : Nat) : Fld := ⟨0x41000040 + 0x80 * i, 4, 1⟩
def MOT_AX_STAT_DECEL_HELD (i : Nat) : Fld := ⟨0x41000040 + 0x80 * i, 5, 1⟩
def MOT_AX_STAT_OVERSHOOT (i : Nat) : Fld := ⟨0x41000040 + 0x80 * i, 6, 1⟩
def MOT_AX_STAT_STOPPED (i : Nat) : Fld := ⟨0x41000040 + 0x80 * i, 7, 1⟩
def MOT_AX_STAT_FAULT (i : Nat) : Fld := ⟨0x41000040 + 0x80 * i, 8, 1⟩
def MOT_AX_STAT_STALL (i : Nat) : Fld := ⟨0x41000040 + 0x80 * i, 9, 1⟩
def MOT_AX_STAT_SSI_DEV (i : Nat) : Fld := ⟨0x41000040 + 0x80 * i, 10, 1⟩
def MOT_AX_STAT_GROUP_SLOWED (i : Nat) : Fld := ⟨0x41000040 + 0x80 * i, 11, 1⟩
def MOT_AX_STAT_DRV_ON (i : Nat) : Fld := ⟨0x41000040 + 0x80 * i, 12, 1⟩
def MOT_AX_STAT_HOMED (i : Nat) : Fld := ⟨0x41000040 + 0x80 * i, 13, 1⟩
/-- MOT_AXn_POS: R418, spec/19_motion.md. -/
def MOT_AX_POS_POS (i : Nat) : Fld := ⟨0x41000044 + 0x80 * i, 0, 32⟩
/-- MOT_AXn_TGT: R418, spec/19_motion.md. -/
def MOT_AX_TGT_TGT (i : Nat) : Fld := ⟨0x41000048 + 0x80 * i, 0, 32⟩
/-- MOT_AXn_VEL: R418, spec/19_motion.md. -/
def MOT_AX_VEL_VEL (i : Nat) : Fld := ⟨0x4100004C + 0x80 * i, 0, 32⟩
/-- MOT_AXn_UNCERT: R418, spec/19_motion.md. -/
def MOT_AX_UNCERT_E (i : Nat) : Fld := ⟨0x41000050 + 0x80 * i, 0, 16⟩
/-- MOT_AXn_SSIPOS: R418, spec/19_motion.md. -/
def MOT_AX_SSIPOS_S (i : Nat) : Fld := ⟨0x41000054 + 0x80 * i, 0, 32⟩
/-- MOT_AXn_CMD: R418, spec/19_motion.md. -/
def MOT_AX_CMD_DRV_EN (i : Nat) : Fld := ⟨0x41000058 + 0x80 * i, 0, 1⟩
def MOT_AX_CMD_REBASE (i : Nat) : Fld := ⟨0x41000058 + 0x80 * i, 1, 1⟩
/-- MOT_SSIk_CFG: R418, spec/19_motion.md. -/
def MOT_SSI_CFG_EN (i : Nat) : Fld := ⟨0x41000800 + 0x10 * i, 0, 1⟩
def MOT_SSI_CFG_RATE (i : Nat) : Fld := ⟨0x41000800 + 0x10 * i, 1, 3⟩
def MOT_SSI_CFG_BITS (i : Nat) : Fld := ⟨0x41000800 + 0x10 * i, 4, 6⟩
def MOT_SSI_CFG_GRAY (i : Nat) : Fld := ⟨0x41000800 + 0x10 * i, 10, 1⟩
def MOT_SSI_CFG_PERIOD (i : Nat) : Fld := ⟨0x41000800 + 0x10 * i, 16, 8⟩
/-- MOT_SSIk_DATA: R418, spec/19_motion.md. -/
def MOT_SSI_DATA_VALUE (i : Nat) : Fld := ⟨0x41000804 + 0x10 * i, 0, 32⟩
/-- MOT_SSIk_ERR: R418, spec/19_motion.md. -/
def MOT_SSI_ERR_COUNT (i : Nat) : Fld := ⟨0x41000808 + 0x10 * i, 0, 16⟩
/-- MOT_PAIR: R418, spec/19_motion.md. -/
def MOT_PAIR_DIFF : Fld := ⟨0x41000900, 0, 8⟩
/-- MOT_TOFF: R418, spec/19_motion.md. -/
def MOT_TOFF_TOFF : Fld := ⟨0x41000904, 0, 32⟩
/-- BTJ_STRAP: R427, spec/20_balls_and_signals.md. -/
def BTJ_STRAP_PAIR_SIDE : Fld := ⟨0x41100030, 0, 1⟩
def BTJ_STRAP_SMB_ADDR : Fld := ⟨0x41100030, 1, 2⟩
def BTJ_STRAP_FTEST : Fld := ⟨0x41100030, 3, 1⟩
def BTJ_STRAP_UNSTABLE : Fld := ⟨0x41100030, 4, 1⟩

end Sys2Proof.Machine.R
end

