-- ==== Sys2Proof/Machine/RegMap.lean ====
section
/-! DEFINITION. The address map: every register and buffer window of the register tables of spec/, with the places and
access codes of its fields (R6, R7), the unit it belongs to (R2) and the state that must hold for a write to count. -/

namespace Sys2Proof.Machine

/-- The access codes of Table 0.5 (R6). -/
inductive Acc where
  | rw | ro | wo | w1s | w1c | rc
  deriving DecidableEq, Repr

/-- When a write to an RW field counts: the side-effects column of its register table. -/
inductive Gate where
  | always | idle | notPrint | ringOff | skewIdle | gmpFree | gmpList | capFree | cmpOff | camOff | sringOff
  | mirrorOff | staging | stagingN | stagingS | axisRest | ssiOff | ownCore | idleCal
  deriving DecidableEq, Repr

/-- The fuse-enabled resource a register belongs to (R1, R2): the first index of the row is its number. -/
inductive Res where
  | none | port | cam | chan | lane
  deriving DecidableEq, Repr

/-- One field of a row: place, width, access code, write gate. -/
structure RegField where
  lsb : Nat
  width : Nat
  acc : Acc
  gate : Gate
  deriving DecidableEq, Repr

/-- One register row: base address, index dimensions (count, stride), words, resource, fields. -/
structure RegRow where
  base : Nat
  dims : List (Nat × Nat)
  words : Nat
  res : Res
  fields : List RegField
  deriving DecidableEq, Repr

/-- Register rows from 0x40000000 on, part 0. -/
def rows400_0 : List RegRow := [
  ⟨0x40000000, [], 1, .none, [⟨0, 9, .wo, .always⟩]⟩, -- HIC_DOORBELL
  ⟨0x40000100, [(12, 0x4)], 1, .none, [⟨0, 32, .ro, .always⟩]⟩, -- HIC_PEND
  ⟨0x40000140, [(12, 0x4)], 1, .none, [⟨0, 32, .wo, .always⟩]⟩, -- HIC_PEND_SET
  ⟨0x40000180, [(12, 0x4)], 1, .none, [⟨0, 32, .wo, .always⟩]⟩, -- HIC_PEND_CLR
  ⟨0x40000200, [(12, 0x4)], 1, .none, [⟨0, 32, .ro, .always⟩]⟩, -- HIC_EN
  ⟨0x40000240, [(12, 0x4)], 1, .none, [⟨0, 32, .wo, .always⟩]⟩, -- HIC_EN_SET
  ⟨0x40000280, [(12, 0x4)], 1, .none, [⟨0, 32, .wo, .always⟩]⟩, -- HIC_EN_CLR
  ⟨0x40000300, [(12, 0x4)], 1, .none, [⟨0, 32, .ro, .always⟩]⟩, -- HIC_INSVC
  ⟨0x40000400, [(12, 0x4)], 1, .none, [⟨0, 32, .wo, .always⟩]⟩, -- HIC_CLAIM
  ⟨0x40000480, [], 1, .none, [⟨0, 9, .wo, .always⟩, ⟨31, 1, .wo, .always⟩]⟩, -- HIC_EOI
  ⟨0x40000500, [], 1, .none, [⟨0, 16, .rw, .always⟩]⟩, -- HIC_REDIRECT_T
  ⟨0x40000504, [], 1, .none, [⟨0, 1, .w1c, .always⟩, ⟨1, 1, .w1c, .always⟩, ⟨2, 1, .w1c, .always⟩]⟩ -- HIC_STAT
]
/-- Register rows from 0x40000000 on, part 1. -/
def rows400_1 : List RegRow := [
  ⟨0x40000508, [], 1, .none, [⟨0, 32, .ro, .always⟩]⟩, -- HIC_AVIOL_ADDR
  ⟨0x4000050C, [], 1, .none, [⟨0, 3, .ro, .always⟩, ⟨3, 1, .ro, .always⟩, ⟨4, 1, .ro, .always⟩, ⟨31, 1, .w1c, .always⟩]⟩, -- HIC_AVIOL_INFO
  ⟨0x40001800, [(6, 0x4)], 1, .none, [⟨0, 1, .ro, .always⟩, ⟨1, 1, .ro, .always⟩, ⟨2, 1, .ro, .always⟩, ⟨3, 1, .ro, .always⟩, ⟨4, 1, .ro, .always⟩, ⟨5, 1, .w1c, .always⟩, ⟨6, 1, .w1c, .always⟩]⟩, -- HIC_CORE
  ⟨0x40001840, [(6, 0x4)], 1, .none, [⟨8, 24, .rw, .ownCore⟩]⟩, -- HIC_VBASE
  ⟨0x40002000, [(384, 0x4)], 1, .none, [⟨0, 3, .rw, .always⟩, ⟨3, 3, .rw, .always⟩, ⟨6, 1, .rw, .always⟩, ⟨7, 1, .rw, .always⟩, ⟨8, 3, .ro, .always⟩, ⟨11, 1, .ro, .always⟩, ⟨12, 1, .ro, .always⟩, ⟨13, 1, .ro, .always⟩, ⟨15, 3, .ro, .always⟩]⟩, -- HIC_ROUTE
  ⟨0x40003000, [(16, 0x4)], 1, .none, [⟨0, 8, .rw, .always⟩, ⟨8, 2, .rw, .always⟩, ⟨10, 1, .ro, .always⟩]⟩, -- HIC_EXT
  ⟨0x40003400, [(16, 0x10)], 2, .none, [⟨0, 40, .rw, .always⟩]⟩, -- HIC_TMR_CMP
  ⟨0x40003408, [(16, 0x10)], 1, .none, [⟨0, 32, .rw, .always⟩]⟩, -- HIC_TMR_PERIOD
  ⟨0x4000340C, [(16, 0x10)], 1, .none, [⟨0, 1, .rw, .always⟩]⟩, -- HIC_TMR_CTRL
  ⟨0x40003800, [(384, 0x4)], 1, .none, [⟨0, 16, .ro, .always⟩]⟩ -- HIC_SPUR
]
/-- Register rows from 0x40100000 on, part 0. -/
def rows401_0 : List RegRow := [
  ⟨0x40104000, [], 1, .none, [⟨0, 6, .wo, .always⟩]⟩, -- MBX_DB
  ⟨0x40104008, [], 1, .none, [⟨0, 11, .rw, .always⟩]⟩, -- MBX_CQ_HEAD
  ⟨0x4010400C, [], 1, .none, [⟨0, 11, .ro, .always⟩]⟩, -- MBX_CQ_TAIL
  ⟨0x40104010, [], 1, .none, [⟨0, 1, .w1c, .always⟩, ⟨1, 1, .w1c, .always⟩, ⟨2, 1, .w1c, .always⟩, ⟨3, 1, .ro, .always⟩, ⟨8, 7, .ro, .always⟩]⟩, -- MBX_STAT
  ⟨0x40104014, [], 1, .none, [⟨0, 6, .rw, .always⟩, ⟨6, 1, .rw, .always⟩, ⟨7, 1, .rw, .always⟩]⟩, -- MBX_CFG
  ⟨0x40104018, [], 1, .none, [⟨0, 32, .rw, .mirrorOff⟩]⟩, -- MBX_CQ_MLO
  ⟨0x4010401C, [], 1, .none, [⟨0, 32, .rw, .mirrorOff⟩]⟩, -- MBX_CQ_MHI
  ⟨0x40104020, [(4, 0x4)], 1, .none, [⟨0, 10, .rw, .always⟩]⟩, -- MBX_INGDB
  ⟨0x40104030, [], 2, .none, [⟨0, 64, .ro, .always⟩]⟩, -- MBX_SLOTS
  ⟨0x40104040, [], 1, .none, [⟨0, 16, .rw, .always⟩]⟩, -- MBX_IRQMOD
  ⟨0x40104044, [], 1, .none, [⟨0, 16, .ro, .always⟩]⟩, -- MBX_CQ_DROP
  ⟨0x40104048, [], 1, .none, [⟨0, 16, .ro, .always⟩]⟩ -- MBX_LOSTCPL
]
/-- Register rows from 0x40100000 on, part 1. -/
def rows401_1 : List RegRow := [
  ⟨0x40104050, [], 1, .none, [⟨0, 1, .rw, .idle⟩, ⟨1, 1, .rw, .idle⟩, ⟨8, 8, .rw, .idle⟩, ⟨16, 16, .rw, .idle⟩]⟩, -- MBX_UDP_CFG
  ⟨0x40104054, [], 1, .none, [⟨0, 16, .ro, .always⟩, ⟨16, 16, .ro, .always⟩]⟩, -- MBX_UDP_STAT
  ⟨0x40104058, [], 1, .none, [⟨0, 16, .ro, .always⟩, ⟨16, 1, .ro, .always⟩, ⟨17, 1, .ro, .always⟩]⟩, -- MBX_UDP_SESS
  ⟨0x4010405C, [], 1, .none, [⟨0, 32, .ro, .always⟩]⟩, -- MBX_UDP_HOST
  ⟨0x40104060, [(2, 0x4)], 1, .none, [⟨0, 32, .rw, .idle⟩]⟩, -- MBX_UDP_IP
  ⟨0x40100000, [(4096, 0x4)], 1, .none, [⟨0, 32, .rw, .always⟩]⟩, -- MBX slots (R250)
  ⟨0x40106000, [(256, 0x4)], 1, .none, [⟨0, 32, .rw, .always⟩]⟩, -- MSI-X table (R249)
  ⟨0x40107000, [(2, 0x4)], 1, .none, [⟨0, 32, .ro, .always⟩]⟩, -- MSI-X PBA (R249)
  ⟨0x40110000, [(16384, 0x4)], 1, .none, [⟨0, 32, .ro, .always⟩]⟩, -- completion queue (R253)
  ⟨0x40180000, [(32768, 0x4)], 1, .none, [⟨0, 32, .rw, .always⟩]⟩ -- ingest rings (R54)
]
/-- Register rows from 0x40200000 on, part 0. -/
def rows402_0 : List RegRow := [
  ⟨0x40200000, [(4, 0x40)], 1, .none, [⟨0, 1, .rw, .always⟩, ⟨1, 3, .rw, .ringOff⟩, ⟨8, 6, .rw, .always⟩, ⟨31, 1, .wo, .always⟩]⟩, -- ING_RING_CFG
  ⟨0x40200004, [(4, 0x40)], 1, .none, [⟨0, 10, .rw, .always⟩]⟩, -- ING_RING_TAIL
  ⟨0x40200008, [(4, 0x40)], 1, .none, [⟨0, 10, .ro, .always⟩]⟩, -- ING_RING_HEAD
  ⟨0x40200010, [(4, 0x40)], 1, .none, [⟨0, 32, .rw, .always⟩]⟩, -- ING_RING_CQLO
  ⟨0x40200014, [(4, 0x40)], 1, .none, [⟨0, 32, .rw, .always⟩]⟩, -- ING_RING_CQHI
  ⟨0x40200018, [(4, 0x40)], 1, .none, [⟨0, 10, .rw, .always⟩]⟩, -- ING_RING_CQDONE
  ⟨0x40200100, [], 2, .none, [⟨0, 40, .ro, .always⟩]⟩, -- ING_ACCEPTED
  ⟨0x40200108, [], 2, .none, [⟨0, 40, .ro, .always⟩]⟩, -- ING_RETURNED
  ⟨0x40200110, [], 1, .none, [⟨0, 16, .ro, .always⟩]⟩ -- ING_INFLIGHT
]
/-- Register rows from 0x40300000 on, part 0. -/
def rows403_0 : List RegRow := [
  ⟨0x40300000, [], 1, .none, [⟨0, 16, .rw, .idle⟩, ⟨16, 16, .rw, .idle⟩]⟩, -- BLT_STORE_CFG
  ⟨0x40300004, [], 1, .none, [⟨0, 1, .ro, .always⟩, ⟨1, 1, .w1c, .always⟩, ⟨2, 1, .ro, .always⟩]⟩, -- BLT_STORE_STAT
  ⟨0x40300008, [], 1, .none, [⟨0, 24, .w1c, .always⟩]⟩, -- BLT_LATEFLAGS
  ⟨0x4030000C, [], 1, .none, [⟨0, 24, .w1c, .always⟩]⟩, -- BLT_POISONFLAGS
  ⟨0x40300010, [], 2, .none, [⟨0, 40, .ro, .always⟩]⟩, -- BLT_CONSUMED
  ⟨0x40300018, [], 2, .none, [⟨0, 40, .ro, .always⟩]⟩, -- BLT_EVICTED
  ⟨0x40300020, [], 1, .none, [⟨0, 32, .ro, .always⟩]⟩, -- BLT_RESIDENT
  ⟨0x40300024, [], 1, .none, [⟨0, 16, .ro, .always⟩]⟩, -- BLT_POISONED
  ⟨0x40300400, [(24, 0x8)], 2, .port, [⟨0, 40, .ro, .always⟩]⟩, -- BLT_LATE
  ⟨0x40300500, [(24, 0x8)], 2, .port, [⟨0, 40, .ro, .always⟩]⟩, -- BLT_POISONL
  ⟨0x40301000, [(24, 0x4)], 1, .port, [⟨0, 14, .rw, .idle⟩, ⟨16, 6, .rw, .idle⟩]⟩, -- BLT_SKEW
  ⟨0x40301080, [(24, 0x4)], 1, .port, [⟨0, 14, .rw, .skewIdle⟩, ⟨30, 1, .w1c, .always⟩, ⟨31, 1, .w1s, .always⟩]⟩ -- BLT_SKEW_PEND
]
/-- Register rows from 0x40300000 on, part 1. -/
def rows403_1 : List RegRow := [
  ⟨0x40301100, [(24, 0x8)], 2, .port, [⟨0, 40, .rw, .skewIdle⟩]⟩, -- BLT_SKEW_AT
  ⟨0x403011C0, [], 1, .none, [⟨0, 16, .ro, .always⟩]⟩, -- BLT_SKEW_GEN
  ⟨0x40302000, [], 1, .none, [⟨0, 8, .rw, .always⟩, ⟨8, 1, .rw, .always⟩]⟩, -- BLT_ENG_CFG
  ⟨0x40302004, [], 1, .none, [⟨0, 32, .ro, .always⟩]⟩, -- BLT_DEC_PART
  ⟨0x40302008, [], 1, .none, [⟨0, 4, .ro, .always⟩]⟩, -- BLT_CMP_PART
  ⟨0x40302010, [], 1, .none, [⟨0, 4, .ro, .always⟩, ⟨4, 5, .ro, .always⟩, ⟨9, 8, .ro, .always⟩, ⟨31, 1, .w1c, .always⟩]⟩, -- BLT_DEC_ERR
  ⟨0x40302014, [], 1, .none, [⟨0, 32, .ro, .always⟩]⟩, -- BLT_DEC_ERR_BAND
  ⟨0x40302018, [], 1, .none, [⟨0, 17, .ro, .always⟩]⟩, -- BLT_DEC_ERR_POS
  ⟨0x40302020, [], 2, .none, [⟨0, 40, .ro, .always⟩]⟩, -- BLT_DEC_TILES
  ⟨0x40302028, [], 2, .none, [⟨0, 40, .ro, .always⟩]⟩, -- BLT_CMP_BILLETS
  ⟨0x40302040, [], 2, .none, [⟨0, 40, .ro, .always⟩]⟩, -- BLT_CMP_NOSHRINK
  ⟨0x40302030, [], 1, .none, [⟨0, 16, .ro, .always⟩]⟩ -- BLT_CMP_VFAIL
]
/-- Register rows from 0x40300000 on, part 2. -/
def rows403_2 : List RegRow := [
  ⟨0x40302034, [], 1, .none, [⟨0, 16, .ro, .always⟩]⟩, -- BLT_DEC_INVALID
  ⟨0x40302038, [], 1, .none, [⟨0, 16, .ro, .always⟩]⟩ -- BLT_DEC_DISAGREE
]
/-- Register rows from 0x40400000 on, part 0. -/
def rows404_0 : List RegRow := [
  ⟨0x40400000, [], 1, .none, [⟨0, 7, .rw, .idle⟩, ⟨8, 1, .rw, .always⟩, ⟨16, 8, .rw, .always⟩]⟩, -- SPN_CTRL
  ⟨0x40400004, [], 1, .none, [⟨0, 2, .ro, .always⟩, ⟨2, 1, .w1c, .always⟩, ⟨3, 1, .w1c, .always⟩, ⟨4, 1, .w1c, .always⟩, ⟨5, 1, .w1c, .always⟩]⟩, -- SPN_STAT
  ⟨0x40400008, [], 1, .none, [⟨0, 8, .ro, .always⟩, ⟨8, 5, .ro, .always⟩, ⟨13, 1, .ro, .always⟩, ⟨16, 16, .ro, .always⟩]⟩, -- SPN_PACE
  ⟨0x4040000C, [], 1, .none, [⟨0, 8, .rw, .always⟩]⟩, -- SPN_PACE_CFG
  ⟨0x40400010, [], 1, .none, [⟨0, 1, .wo, .always⟩, ⟨1, 1, .ro, .always⟩, ⟨8, 6, .ro, .always⟩, ⟨14, 1, .w1c, .always⟩]⟩, -- SPN_KAT
  ⟨0x40400014, [], 1, .none, [⟨0, 6, .rw, .idle⟩, ⟨8, 6, .rw, .idle⟩]⟩, -- SPN_SIZEMAP
  ⟨0x40400100, [(32, 0x4)], 1, .lane, [⟨0, 6, .ro, .always⟩]⟩, -- SPN_LANEMAP
  ⟨0x40400180, [], 2, .none, [⟨0, 34, .ro, .always⟩]⟩, -- SPN_POOL
  ⟨0x40400188, [], 2, .none, [⟨0, 34, .ro, .always⟩]⟩, -- SPN_PARTED
  ⟨0x40404000, [(4096, 0x4)], 1, .none, [⟨0, 13, .rw, .idle⟩, ⟨13, 13, .rw, .idle⟩, ⟨26, 5, .rw, .idle⟩, ⟨31, 1, .rw, .idle⟩]⟩, -- SPN_OVL
  ⟨0x40408000, [(4096, 0x4)], 1, .none, [⟨0, 11, .rw, .idle⟩]⟩, -- SPN_DITHER
  ⟨0x40400020, [], 2, .none, [⟨0, 40, .ro, .always⟩]⟩ -- SPN_RENDERS
]
/-- Register rows from 0x40400000 on, part 1. -/
def rows404_1 : List RegRow := [
  ⟨0x40400028, [], 2, .none, [⟨0, 40, .ro, .always⟩]⟩, -- SPN_HANDED
  ⟨0x40400030, [], 2, .none, [⟨0, 40, .ro, .always⟩]⟩, -- SPN_SHAVINGS
  ⟨0x40400038, [], 1, .none, [⟨0, 11, .ro, .always⟩]⟩, -- SPN_QUEUED
  ⟨0x40400040, [], 2, .none, [⟨0, 40, .ro, .always⟩]⟩, -- SPN_UNCOVERED
  ⟨0x40400048, [], 2, .none, [⟨0, 40, .ro, .always⟩]⟩, -- SPN_SUBST_LOST
  ⟨0x40400050, [], 1, .none, [⟨0, 16, .ro, .always⟩]⟩, -- SPN_SUBST_OVF
  ⟨0x40400054, [], 1, .none, [⟨0, 16, .ro, .always⟩]⟩, -- SPN_SPARE_MISCMP
  ⟨0x40400058, [], 1, .none, [⟨0, 16, .ro, .always⟩]⟩ -- SPN_KAT_FAIL
]
/-- Register rows from 0x40600000 on, part 0. -/
def rows406_0 : List RegRow := [
  ⟨0x40600000, [(2, 0x100)], 1, .none, [⟨0, 2, .rw, .idle⟩, ⟨2, 1, .rw, .idle⟩, ⟨3, 1, .rw, .idle⟩, ⟨4, 6, .rw, .idle⟩, ⟨10, 2, .rw, .idle⟩, ⟨12, 2, .rw, .idle⟩, ⟨14, 1, .rw, .idle⟩, ⟨16, 3, .rw, .idle⟩, ⟨24, 8, .rw, .idle⟩]⟩, -- ENC_CH_CFG
  ⟨0x40600004, [(2, 0x100)], 1, .none, [⟨0, 1, .ro, .always⟩, ⟨1, 1, .ro, .always⟩, ⟨2, 1, .ro, .always⟩, ⟨3, 1, .w1c, .always⟩, ⟨4, 1, .w1c, .always⟩, ⟨5, 1, .w1c, .always⟩, ⟨6, 1, .w1c, .always⟩, ⟨7, 1, .w1c, .always⟩]⟩, -- ENC_CH_STAT
  ⟨0x40600008, [(2, 0x100)], 2, .none, [⟨0, 40, .ro, .always⟩]⟩, -- ENC_CH_POS
  ⟨0x40600010, [(2, 0x100)], 2, .none, [⟨0, 40, .wo, .always⟩]⟩, -- ENC_CH_POS_SET
  ⟨0x40600018, [(2, 0x100)], 1, .none, [⟨0, 32, .ro, .always⟩]⟩, -- ENC_CH_PERIOD
  ⟨0x4060001C, [(2, 0x100)], 1, .none, [⟨0, 32, .ro, .always⟩]⟩, -- ENC_CH_SPEED
  ⟨0x40600020, [(2, 0x100)], 2, .none, [⟨0, 40, .ro, .always⟩]⟩, -- ENC_CH_REFPOS
  ⟨0x40600028, [(2, 0x100)], 2, .none, [⟨0, 40, .ro, .always⟩]⟩, -- ENC_CH_REFT
  ⟨0x40600030, [(2, 0x100)], 2, .none, [⟨0, 40, .rw, .always⟩]⟩, -- ENC_CH_REFLOAD
  ⟨0x40600038, [(2, 0x100)], 1, .none, [⟨0, 24, .rw, .always⟩]⟩, -- ENC_CH_REVCNT
  ⟨0x4060003C, [(2, 0x100)], 1, .none, [⟨0, 16, .ro, .always⟩, ⟨16, 16, .ro, .always⟩]⟩, -- ENC_CH_ERRCNT
  ⟨0x40600200, [], 1, .none, [⟨0, 1, .ro, .always⟩, ⟨1, 1, .rw, .idle⟩, ⟨2, 2, .rw, .idle⟩]⟩ -- ENC_LINE_CFG
]
/-- Register rows from 0x40600000 on, part 1. -/
def rows406_1 : List RegRow := [
  ⟨0x40600208, [], 2, .none, [⟨0, 40, .rw, .idle⟩]⟩, -- ENC_LINE_ORIGIN
  ⟨0x40600210, [], 1, .none, [⟨0, 32, .rw, .idle⟩]⟩, -- ENC_LINE_PITCH
  ⟨0x40600214, [], 1, .none, [⟨0, 16, .rw, .idle⟩]⟩, -- ENC_LINE_PFRAC
  ⟨0x40600218, [], 2, .none, [⟨0, 40, .ro, .always⟩]⟩, -- ENC_LINE
  ⟨0x40600220, [], 1, .none, [⟨0, 24, .ro, .always⟩]⟩, -- ENC_LINE_T
  ⟨0x40600224, [], 1, .none, [⟨0, 24, .ro, .always⟩]⟩, -- ENC_LINE_TP
  ⟨0x40600228, [], 1, .none, [⟨0, 24, .ro, .always⟩]⟩, -- ENC_LINE_GAP
  ⟨0x4060022C, [], 1, .none, [⟨0, 10, .ro, .always⟩]⟩, -- ENC_LATENCY
  ⟨0x40600230, [], 1, .none, [⟨0, 1, .ro, .always⟩, ⟨1, 1, .w1c, .always⟩]⟩, -- ENC_STAT
  ⟨0x40600234, [], 1, .none, [⟨0, 16, .ro, .always⟩]⟩, -- ENC_TRIG_DELAYED
  ⟨0x40600300, [], 1, .none, [⟨0, 1, .rw, .idle⟩, ⟨1, 2, .rw, .idle⟩, ⟨16, 14, .rw, .idle⟩]⟩, -- ENC_XCHK_CFG
  ⟨0x40600304, [], 1, .none, [⟨0, 32, .rw, .idle⟩]⟩ -- ENC_XCHK_RATIO
]
/-- Register rows from 0x40600000 on, part 2. -/
def rows406_2 : List RegRow := [
  ⟨0x40600308, [], 1, .none, [⟨0, 24, .rw, .idle⟩]⟩, -- ENC_XCHK_LEN
  ⟨0x4060030C, [], 1, .none, [⟨0, 32, .ro, .always⟩]⟩, -- ENC_XCHK_ERR
  ⟨0x40600310, [], 1, .none, [⟨0, 1, .w1c, .always⟩, ⟨1, 1, .w1c, .always⟩]⟩, -- ENC_XCHK_STAT
  ⟨0x40600314, [], 1, .none, [⟨0, 16, .ro, .always⟩]⟩, -- ENC_XCHK_CNT
  ⟨0x40600400, [], 1, .none, [⟨0, 24, .rw, .always⟩]⟩, -- ENC_CEIL_FS
  ⟨0x40600404, [], 1, .none, [⟨0, 24, .rw, .always⟩]⟩, -- ENC_CEIL_HOST
  ⟨0x40600408, [], 1, .none, [⟨0, 24, .ro, .always⟩, ⟨24, 5, .ro, .always⟩]⟩, -- ENC_CEIL
  ⟨0x40680000, [(8, 0x100)], 1, .none, [⟨0, 1, .rw, .always⟩, ⟨1, 1, .rw, .cmpOff⟩, ⟨2, 1, .rw, .cmpOff⟩, ⟨3, 1, .rw, .cmpOff⟩, ⟨4, 1, .rw, .always⟩, ⟨5, 1, .rw, .always⟩, ⟨16, 16, .rw, .always⟩]⟩, -- CMP_CTRL
  ⟨0x40680004, [(8, 0x100)], 1, .none, [⟨0, 10, .rw, .cmpOff⟩]⟩, -- CMP_START
  ⟨0x40680008, [(8, 0x100)], 1, .none, [⟨0, 10, .rw, .always⟩]⟩, -- CMP_END
  ⟨0x4068000C, [(8, 0x100)], 1, .none, [⟨0, 10, .ro, .always⟩, ⟨16, 1, .ro, .always⟩]⟩, -- CMP_INDEX
  ⟨0x40680010, [(8, 0x100)], 2, .none, [⟨0, 40, .rw, .always⟩]⟩ -- CMP_CYCLE
]
/-- Register rows from 0x40600000 on, part 3. -/
def rows406_3 : List RegRow := [
  ⟨0x40680018, [(8, 0x100)], 1, .none, [⟨0, 1, .w1c, .always⟩, ⟨1, 1, .w1c, .always⟩, ⟨2, 1, .w1c, .always⟩, ⟨3, 1, .ro, .always⟩]⟩, -- CMP_STAT
  ⟨0x40680020, [(8, 0x100)], 2, .none, [⟨0, 40, .ro, .always⟩]⟩, -- CMP_FIRED
  ⟨0x40680028, [(8, 0x100)], 1, .none, [⟨0, 16, .ro, .always⟩]⟩, -- CMP_MISSED
  ⟨0x40680030, [(8, 0x100)], 2, .none, [⟨0, 40, .ro, .always⟩]⟩, -- CMP_LASTT
  ⟨0x40680038, [(8, 0x100)], 1, .none, [⟨0, 10, .ro, .always⟩]⟩, -- CMP_LASTI
  ⟨0x406C0000, [(8, 0x2000), (1024, 0x8)], 2, .none, [⟨0, 40, .rw, .always⟩]⟩ -- compare lists (R137)
]
/-- Register rows from 0x40700000 on, part 0. -/
def rows407_0 : List RegRow := [
  ⟨0x40700000, [], 1, .none, [⟨0, 1, .rw, .idle⟩, ⟨1, 1, .rw, .idle⟩, ⟨2, 1, .ro, .always⟩, ⟨3, 1, .ro, .always⟩, ⟨4, 1, .rw, .idle⟩, ⟨5, 2, .rw, .idle⟩]⟩, -- FIR_CTRL
  ⟨0x40700004, [], 1, .none, [⟨0, 6, .rw, .idle⟩, ⟨8, 8, .rw, .idle⟩, ⟨16, 8, .rw, .idle⟩]⟩, -- FIR_CLASS_CFG
  ⟨0x40700008, [], 1, .none, [⟨0, 12, .rw, .stagingN⟩, ⟨16, 12, .rw, .stagingS⟩, ⟨28, 3, .rw, .idle⟩]⟩, -- FIR_PHASE
  ⟨0x4070000C, [], 1, .none, [⟨0, 16, .ro, .always⟩, ⟨16, 16, .ro, .always⟩]⟩, -- FIR_TMIN
  ⟨0x40700010, [], 1, .none, [⟨0, 24, .ro, .always⟩]⟩, -- FIR_RATE
  ⟨0x40700014, [], 1, .none, [⟨0, 24, .ro, .always⟩]⟩, -- FIR_RATE_S
  ⟨0x40700018, [], 1, .none, [⟨0, 1, .w1c, .always⟩, ⟨1, 1, .w1c, .always⟩, ⟨2, 1, .w1c, .always⟩, ⟨3, 1, .w1c, .always⟩, ⟨4, 1, .w1c, .always⟩, ⟨5, 1, .ro, .always⟩, ⟨6, 1, .w1c, .always⟩, ⟨7, 1, .w1c, .always⟩, ⟨8, 1, .w1c, .always⟩]⟩, -- FIR_STAT
  ⟨0x4070001C, [], 1, .none, [⟨0, 24, .ro, .always⟩]⟩, -- FIR_HOTFLAGS
  ⟨0x40700020, [], 1, .none, [⟨0, 24, .ro, .always⟩]⟩, -- FIR_HCEIL
  ⟨0x40700024, [], 1, .none, [⟨0, 8, .rw, .always⟩, ⟨8, 8, .rw, .always⟩, ⟨16, 8, .rw, .always⟩]⟩, -- FIR_HTEMP_CFG
  ⟨0x40700028, [], 1, .none, [⟨0, 8, .rw, .idle⟩, ⟨8, 8, .rw, .idle⟩, ⟨16, 8, .rw, .idle⟩, ⟨24, 4, .rw, .idle⟩]⟩, -- FIR_BAND_CFG
  ⟨0x40700030, [], 1, .none, [⟨0, 1, .rw, .always⟩, ⟨1, 4, .rw, .always⟩, ⟨5, 7, .rw, .always⟩, ⟨12, 12, .rw, .always⟩]⟩ -- FIR_RES_CFG
]
/-- Register rows from 0x40700000 on, part 1. -/
def rows407_1 : List RegRow := [
  ⟨0x40700034, [], 1, .none, [⟨0, 8, .rw, .always⟩, ⟨8, 8, .rw, .always⟩]⟩, -- FIR_RES_WIN
  ⟨0x40700038, [], 1, .none, [⟨0, 16, .ro, .always⟩, ⟨16, 5, .ro, .always⟩]⟩, -- FIR_RES_LAST
  ⟨0x4070003C, [], 1, .none, [⟨0, 13, .ro, .always⟩]⟩, -- FIR_RES_LASTN
  ⟨0x40700068, [], 1, .none, [⟨0, 2, .rw, .idle⟩, ⟨2, 6, .rw, .idle⟩, ⟨8, 8, .rw, .idle⟩, ⟨16, 16, .rw, .idle⟩]⟩, -- FIR_SPIT_CFG
  ⟨0x40700100, [(24, 0x4)], 1, .port, [⟨0, 10, .ro, .always⟩, ⟨10, 2, .ro, .always⟩, ⟨12, 1, .ro, .always⟩]⟩, -- FIR_HTEMP
  ⟨0x40700200, [(16, 0x4)], 1, .none, [⟨0, 16, .rw, .idle⟩]⟩, -- FIR_RANK
  ⟨0x40700040, [], 2, .none, [⟨0, 40, .ro, .always⟩]⟩, -- FIR_OVERSPEED_LINES
  ⟨0x40700048, [], 2, .none, [⟨0, 40, .ro, .always⟩]⟩, -- FIR_LAG_BLANK
  ⟨0x40700050, [], 2, .none, [⟨0, 40, .ro, .always⟩]⟩, -- FIR_RES_READS
  ⟨0x40700058, [], 1, .none, [⟨0, 16, .ro, .always⟩]⟩, -- FIR_CLASS_SW
  ⟨0x4070005C, [], 1, .none, [⟨0, 16, .ro, .always⟩]⟩, -- FIR_RES_OUT
  ⟨0x40700060, [], 1, .none, [⟨0, 16, .ro, .always⟩]⟩ -- FIR_RES_DEAD
]
/-- Register rows from 0x40700000 on, part 2. -/
def rows407_2 : List RegRow := [
  ⟨0x40700064, [], 1, .none, [⟨0, 16, .ro, .always⟩]⟩, -- FIR_HOT_PARTS
  ⟨0x40701000, [(2, 0x100), (4, 0x40), (3, 0x10), (4, 0x4)], 1, .none, [⟨0, 13, .rw, .staging⟩, ⟨16, 12, .rw, .staging⟩]⟩, -- FIR_WF
  ⟨0x40701200, [(2, 0x80), (32, 0x4)], 1, .none, [⟨0, 7, .rw, .staging⟩]⟩ -- FIR_TRIM
]
/-- Register rows from 0x40800000 on, part 0. -/
def rows408_0 : List RegRow := [
  ⟨0x40800000, [(24, 0x100)], 1, .port, [⟨0, 1, .rw, .always⟩, ⟨1, 1, .wo, .always⟩, ⟨2, 1, .rw, .always⟩]⟩, -- HLK_CTRL
  ⟨0x40800004, [(24, 0x100)], 1, .port, [⟨0, 3, .ro, .always⟩, ⟨3, 2, .ro, .always⟩, ⟨5, 3, .ro, .always⟩, ⟨8, 1, .w1c, .always⟩, ⟨9, 1, .w1c, .always⟩, ⟨10, 1, .w1c, .always⟩, ⟨11, 1, .w1c, .always⟩, ⟨12, 1, .w1c, .always⟩, ⟨13, 1, .w1c, .always⟩, ⟨14, 1, .w1c, .always⟩]⟩, -- HLK_STAT
  ⟨0x40800008, [(24, 0x100)], 1, .port, [⟨0, 10, .ro, .always⟩, ⟨10, 10, .ro, .always⟩, ⟨20, 7, .ro, .always⟩]⟩, -- HLK_LAT
  ⟨0x4080000C, [(24, 0x100)], 1, .port, [⟨0, 6, .ro, .always⟩, ⟨8, 6, .ro, .always⟩, ⟨16, 16, .ro, .always⟩]⟩, -- HLK_CRED
  ⟨0x40800010, [(24, 0x100)], 1, .port, [⟨0, 32, .ro, .always⟩]⟩, -- HLK_HCLAIM
  ⟨0x40800014, [(24, 0x100)], 1, .port, [⟨0, 32, .ro, .always⟩]⟩, -- HLK_USAGE
  ⟨0x40800018, [(24, 0x100)], 1, .port, [⟨0, 1, .ro, .always⟩, ⟨1, 1, .ro, .always⟩, ⟨2, 1, .ro, .always⟩, ⟨3, 1, .w1c, .always⟩, ⟨4, 1, .ro, .always⟩]⟩, -- HLK_USTAT
  ⟨0x4080001C, [(24, 0x100)], 1, .port, [⟨0, 21, .ro, .always⟩]⟩, -- HLK_UACC
  ⟨0x40800020, [(24, 0x100)], 2, .port, [⟨0, 40, .ro, .always⟩]⟩, -- HLK_MISSING
  ⟨0x40800028, [(24, 0x100)], 1, .port, [⟨0, 16, .ro, .always⟩, ⟨16, 16, .ro, .always⟩]⟩, -- HLK_ERRCNT
  ⟨0x4080002C, [(24, 0x100)], 1, .port, [⟨0, 16, .ro, .always⟩, ⟨16, 16, .ro, .always⟩]⟩, -- HLK_EVTCNT
  ⟨0x40800030, [(24, 0x100)], 1, .port, [⟨0, 16, .ro, .always⟩]⟩ -- HLK_CRED_RESET
]
/-- Register rows from 0x40800000 on, part 1. -/
def rows408_1 : List RegRow := [
  ⟨0x40802000, [], 1, .none, [⟨0, 32, .ro, .always⟩]⟩, -- HLK_CLAIM
  ⟨0x40802008, [], 2, .none, [⟨0, 40, .ro, .always⟩]⟩, -- HLK_SEQ
  ⟨0x40804000, [(24, 0x80), (32, 0x4)], 1, .port, [⟨0, 32, .ro, .always⟩]⟩ -- HLK_HMEM
]
/-- Register rows from 0x40900000 on, part 0. -/
def rows409_0 : List RegRow := [
  ⟨0x40900000, [(4, 0x100)], 1, .cam, [⟨0, 1, .rw, .always⟩, ⟨1, 2, .rw, .camOff⟩, ⟨3, 2, .rw, .camOff⟩, ⟨5, 2, .rw, .camOff⟩, ⟨7, 1, .rw, .camOff⟩]⟩, -- CAM_CFG
  ⟨0x40900004, [(4, 0x100)], 1, .cam, [⟨0, 15, .rw, .always⟩, ⟨16, 11, .rw, .always⟩]⟩, -- CAM_SIZE
  ⟨0x40900008, [(4, 0x100)], 1, .cam, [⟨0, 12, .rw, .always⟩]⟩, -- CAM_PAD
  ⟨0x4090000C, [(4, 0x100)], 1, .cam, [⟨0, 16, .rw, .always⟩]⟩, -- CAM_LAT
  ⟨0x40900010, [(4, 0x100)], 1, .cam, [⟨0, 32, .rw, .always⟩]⟩, -- CAM_YPITCH
  ⟨0x40900014, [(4, 0x100)], 1, .cam, [⟨0, 1, .w1c, .always⟩, ⟨1, 1, .w1c, .always⟩, ⟨2, 1, .w1c, .always⟩, ⟨3, 1, .w1c, .always⟩, ⟨4, 1, .w1c, .always⟩, ⟨5, 1, .w1c, .always⟩, ⟨6, 1, .w1c, .always⟩, ⟨7, 1, .w1c, .always⟩, ⟨8, 1, .w1c, .always⟩, ⟨9, 1, .w1c, .always⟩, ⟨10, 1, .ro, .always⟩]⟩, -- CAM_STAT
  ⟨0x40900018, [(4, 0x100)], 1, .cam, [⟨0, 32, .ro, .always⟩]⟩, -- CAM_FRAMENO
  ⟨0x4090001C, [(4, 0x100)], 1, .cam, [⟨0, 16, .ro, .always⟩]⟩, -- CAM_DROPCNT
  ⟨0x40900020, [(4, 0x100)], 1, .cam, [⟨0, 16, .ro, .always⟩, ⟨16, 16, .ro, .always⟩]⟩, -- CAM_ERRCNT
  ⟨0x40900024, [(4, 0x100)], 1, .cam, [⟨0, 1, .wo, .always⟩, ⟨1, 1, .rw, .always⟩, ⟨2, 1, .ro, .always⟩, ⟨3, 1, .w1c, .always⟩, ⟨4, 1, .w1c, .always⟩, ⟨5, 1, .w1c, .always⟩]⟩, -- CAM_CAP
  ⟨0x40900028, [(4, 0x100)], 2, .cam, [⟨0, 64, .rw, .capFree⟩]⟩, -- CAM_CAPADDR
  ⟨0x40900030, [(4, 0x100)], 1, .cam, [⟨0, 32, .rw, .capFree⟩]⟩ -- CAM_CAPSIZE
]
/-- Register rows from 0x40900000 on, part 1. -/
def rows409_1 : List RegRow := [
  ⟨0x40900034, [(4, 0x100)], 1, .cam, [⟨0, 32, .ro, .always⟩]⟩, -- CAM_CAPLEN
  ⟨0x40901000, [(4, 0x400)], 1, .cam, [⟨0, 24, .rw, .notPrint⟩]⟩, -- CAM_PIPE_GEOM
  ⟨0x40901004, [(4, 0x400)], 1, .cam, [⟨0, 30, .rw, .notPrint⟩]⟩, -- CAM_PIPE_DIST
  ⟨0x40901008, [(4, 0x400)], 1, .cam, [⟨0, 24, .rw, .notPrint⟩]⟩, -- CAM_PIPE_PORTS
  ⟨0x4090100C, [(4, 0x400)], 1, .cam, [⟨0, 8, .rw, .always⟩, ⟨8, 8, .rw, .always⟩, ⟨16, 3, .rw, .always⟩, ⟨20, 4, .rw, .always⟩, ⟨24, 1, .rw, .always⟩]⟩, -- CAM_PIPE_SCORE
  ⟨0x40901010, [(4, 0x400)], 1, .cam, [⟨0, 5, .rw, .always⟩, ⟨8, 8, .rw, .always⟩, ⟨16, 8, .rw, .always⟩]⟩, -- CAM_PIPE_REGCFG
  ⟨0x40901014, [(4, 0x400)], 1, .cam, [⟨0, 24, .rw, .always⟩]⟩, -- CAM_PIPE_MPERIOD
  ⟨0x40901018, [(4, 0x400)], 1, .cam, [⟨0, 16, .ro, .always⟩, ⟨16, 16, .ro, .always⟩]⟩, -- CAM_PIPE_REG
  ⟨0x4090101C, [(4, 0x400)], 1, .cam, [⟨0, 1, .ro, .always⟩, ⟨1, 1, .w1c, .always⟩, ⟨2, 1, .w1c, .always⟩, ⟨3, 1, .ro, .always⟩, ⟨4, 1, .w1c, .always⟩, ⟨5, 1, .w1c, .always⟩]⟩, -- CAM_PIPE_STAT
  ⟨0x40901020, [(4, 0x400)], 1, .cam, [⟨0, 14, .rw, .always⟩, ⟨16, 14, .rw, .always⟩]⟩, -- CAM_PIPE_ILL
  ⟨0x40901024, [(4, 0x400)], 1, .cam, [⟨0, 8, .rw, .always⟩, ⟨8, 8, .rw, .always⟩, ⟨16, 1, .rw, .always⟩]⟩, -- CAM_PIPE_ILL2
  ⟨0x40901040, [(4, 0x400)], 2, .cam, [⟨0, 40, .ro, .always⟩]⟩ -- CAM_PIPE_SCORES
]
/-- Register rows from 0x40900000 on, part 2. -/
def rows409_2 : List RegRow := [
  ⟨0x40901048, [(4, 0x400)], 1, .cam, [⟨0, 16, .ro, .always⟩, ⟨16, 16, .ro, .always⟩]⟩, -- CAM_PIPE_VERDICTS
  ⟨0x40901050, [(4, 0x400)], 2, .cam, [⟨0, 40, .ro, .always⟩]⟩, -- CAM_PIPE_MASKMISS
  ⟨0x40901100, [(4, 0x400), (16, 0x8)], 1, .cam, [⟨0, 24, .rw, .always⟩, ⟨24, 8, .rw, .always⟩]⟩, -- CAM_PIPE_MARK
  ⟨0x40901104, [(4, 0x400), (16, 0x8)], 1, .cam, [⟨0, 18, .rw, .always⟩, ⟨18, 12, .rw, .always⟩]⟩, -- CAM_PIPE_MARK2
  ⟨0x40901200, [(4, 0x400), (24, 0x4)], 1, .cam, [⟨0, 22, .rw, .notPrint⟩]⟩, -- CAM_PIPE_PORTX
  ⟨0x40902000, [], 1, .none, [⟨0, 1, .rw, .always⟩, ⟨8, 7, .rw, .idle⟩]⟩, -- CAM_GCFG
  ⟨0x40902008, [], 1, .none, [⟨0, 32, .rw, .sringOff⟩]⟩, -- CAM_SRING_LO
  ⟨0x4090200C, [], 1, .none, [⟨0, 32, .rw, .sringOff⟩]⟩, -- CAM_SRING_HI
  ⟨0x40902010, [], 1, .none, [⟨0, 1, .rw, .always⟩, ⟨1, 3, .rw, .sringOff⟩]⟩, -- CAM_SRING_CFG
  ⟨0x40902014, [], 1, .none, [⟨0, 10, .rw, .always⟩]⟩, -- CAM_SRING_DONE
  ⟨0x40902018, [], 1, .none, [⟨0, 10, .ro, .always⟩]⟩, -- CAM_SRING_HEAD
  ⟨0x4090201C, [], 1, .none, [⟨0, 16, .ro, .always⟩]⟩ -- CAM_SRING_DROP
]
/-- Register rows from 0x40900000 on, part 3. -/
def rows409_3 : List RegRow := [
  ⟨0x40980000, [(4, 0x10000), (16384, 0x4)], 1, .cam, [⟨0, 32, .rw, .idleCal⟩]⟩ -- flat-field table (R201)
]
/-- Register rows from 0x40A00000 on, part 0. -/
def rows40A_0 : List RegRow := [
  ⟨0x40A00000, [], 1, .none, [⟨0, 1, .rw, .idle⟩, ⟨1, 1, .rw, .always⟩, ⟨2, 1, .rw, .always⟩, ⟨3, 1, .rw, .always⟩, ⟨8, 8, .rw, .idle⟩, ⟨16, 8, .rw, .always⟩]⟩, -- TSL_CFG
  ⟨0x40A00004, [], 1, .none, [⟨0, 1, .ro, .always⟩, ⟨1, 3, .ro, .always⟩, ⟨4, 1, .ro, .always⟩, ⟨5, 1, .ro, .always⟩, ⟨6, 2, .ro, .always⟩, ⟨8, 1, .w1c, .always⟩, ⟨9, 1, .w1c, .always⟩, ⟨10, 1, .w1c, .always⟩, ⟨11, 1, .w1c, .always⟩, ⟨12, 1, .w1c, .always⟩, ⟨13, 1, .w1c, .always⟩, ⟨14, 1, .w1c, .always⟩, ⟨16, 4, .ro, .always⟩]⟩, -- TSL_STAT
  ⟨0x40A00008, [], 1, .none, [⟨0, 32, .ro, .always⟩]⟩, -- TSL_PEER_CLAIM
  ⟨0x40A0000C, [], 1, .none, [⟨0, 16, .ro, .always⟩]⟩, -- TSL_DETECT
  ⟨0x40A00010, [], 1, .none, [⟨0, 32, .ro, .always⟩]⟩, -- TSL_LOG_TX
  ⟨0x40A00014, [], 1, .none, [⟨0, 32, .ro, .always⟩]⟩, -- TSL_LOG_ACK
  ⟨0x40A00018, [], 1, .none, [⟨0, 32, .ro, .always⟩]⟩, -- TSL_LOG_RX
  ⟨0x40A00020, [], 2, .none, [⟨0, 40, .ro, .always⟩]⟩, -- TSL_POS_DELTA
  ⟨0x40A00028, [], 2, .none, [⟨0, 40, .ro, .always⟩]⟩, -- TSL_TAKE_SEQ
  ⟨0x40A00030, [], 2, .none, [⟨0, 40, .ro, .always⟩]⟩, -- TSL_JOIN_SEQ
  ⟨0x40A00038, [], 2, .none, [⟨0, 40, .ro, .always⟩]⟩, -- TSL_WITHHELD
  ⟨0x40A00040, [], 1, .none, [⟨0, 16, .ro, .always⟩, ⟨16, 16, .ro, .always⟩]⟩ -- TSL_OCRC_CNT
]
/-- Register rows from 0x40A00000 on, part 1. -/
def rows40A_1 : List RegRow := [
  ⟨0x40A00044, [], 1, .none, [⟨0, 16, .ro, .always⟩, ⟨16, 16, .ro, .always⟩]⟩, -- TSL_LINKCNT
  ⟨0x40A00048, [], 1, .none, [⟨0, 8, .ro, .always⟩, ⟨8, 8, .ro, .always⟩, ⟨16, 8, .ro, .always⟩]⟩ -- TSL_EVTCNT
]
/-- Register rows from 0x40B00000 on, part 0. -/
def rows40B_0 : List RegRow := [
  ⟨0x40B01000, [], 1, .none, [⟨0, 4, .rw, .idle⟩, ⟨4, 1, .rw, .always⟩, ⟨5, 1, .rw, .always⟩]⟩, -- DRC_CTRL
  ⟨0x40B01004, [], 1, .none, [⟨0, 7, .rw, .idle⟩]⟩, -- DRC_LAYOUT
  ⟨0x40B01008, [], 1, .none, [⟨0, 4, .ro, .always⟩, ⟨4, 4, .ro, .always⟩, ⟨8, 1, .ro, .always⟩, ⟨9, 1, .ro, .always⟩, ⟨10, 1, .w1c, .always⟩, ⟨11, 1, .ro, .always⟩]⟩, -- DRC_STAT
  ⟨0x40B0100C, [], 1, .none, [⟨0, 20, .ro, .always⟩]⟩, -- DRC_STORE_MB
  ⟨0x40B01010, [], 1, .none, [⟨0, 8, .rw, .always⟩]⟩, -- DRC_SCRUB
  ⟨0x40B01014, [], 1, .none, [⟨0, 32, .ro, .always⟩]⟩, -- DRC_SCRUB_PASS
  ⟨0x40B00000, [(4, 0x100)], 1, .chan, [⟨0, 2, .ro, .always⟩, ⟨2, 2, .ro, .always⟩, ⟨4, 1, .ro, .always⟩, ⟨5, 1, .w1c, .always⟩, ⟨6, 1, .w1c, .always⟩, ⟨7, 1, .w1c, .always⟩, ⟨8, 1, .w1c, .always⟩]⟩, -- DRC_CH_STAT
  ⟨0x40B00004, [(4, 0x100)], 1, .chan, [⟨0, 2, .rw, .always⟩, ⟨8, 10, .ro, .always⟩, ⟨18, 1, .ro, .always⟩]⟩, -- DRC_CH_TEMP
  ⟨0x40B00008, [(4, 0x100)], 1, .chan, [⟨0, 16, .ro, .always⟩, ⟨16, 16, .ro, .always⟩]⟩, -- DRC_CH_CNT
  ⟨0x40B0000C, [(4, 0x100)], 1, .chan, [⟨0, 16, .ro, .always⟩, ⟨16, 16, .ro, .always⟩]⟩, -- DRC_CH_ALERT
  ⟨0x40B00010, [(4, 0x100)], 2, .chan, [⟨0, 40, .ro, .always⟩]⟩, -- DRC_CH_ERRADDR
  ⟨0x40B00018, [(4, 0x100)], 1, .chan, [⟨0, 16, .ro, .always⟩, ⟨16, 6, .ro, .always⟩]⟩ -- DRC_CH_ERRSYN
]
/-- Register rows from 0x40B00000 on, part 1. -/
def rows40B_1 : List RegRow := [
  ⟨0x40B0001C, [(4, 0x100)], 1, .chan, [⟨0, 16, .ro, .always⟩]⟩ -- DRC_CH_SIZE
]
/-- Register rows from 0x40C00000 on, part 0. -/
def rows40C_0 : List RegRow := [
  ⟨0x40C00000, [], 1, .none, [⟨0, 1, .wo, .always⟩]⟩, -- TMB_CTRL
  ⟨0x40C00004, [], 1, .none, [⟨0, 1, .rw, .always⟩, ⟨1, 1, .rw, .always⟩, ⟨2, 1, .rw, .always⟩, ⟨3, 1, .rw, .always⟩, ⟨4, 4, .rw, .always⟩, ⟨8, 8, .rw, .always⟩, ⟨16, 8, .rw, .always⟩]⟩, -- TMB_CFG
  ⟨0x40C00008, [], 1, .none, [⟨0, 2, .ro, .always⟩, ⟨2, 1, .w1c, .always⟩, ⟨3, 1, .w1c, .always⟩, ⟨4, 1, .w1c, .always⟩, ⟨5, 2, .ro, .always⟩]⟩, -- TMB_STAT
  ⟨0x40C00010, [(2, 0x8)], 1, .none, [⟨0, 32, .rw, .always⟩]⟩, -- TMB_ASYM_IN
  ⟨0x40C00014, [(2, 0x8)], 1, .none, [⟨0, 32, .rw, .always⟩]⟩, -- TMB_ASYM_EG
  ⟨0x40C00020, [], 2, .none, [⟨0, 40, .ro, .always⟩]⟩, -- TMB_TIME40
  ⟨0x40C00028, [], 1, .none, [⟨0, 30, .ro, .always⟩]⟩, -- TMB_PTP_NS
  ⟨0x40C0002C, [], 2, .none, [⟨0, 48, .ro, .always⟩]⟩, -- TMB_PTP_SEC
  ⟨0x40C00034, [], 1, .none, [⟨0, 32, .ro, .always⟩]⟩, -- TMB_OFFSET
  ⟨0x40C00038, [], 1, .none, [⟨0, 32, .ro, .always⟩]⟩, -- TMB_RATE
  ⟨0x40C0003C, [], 1, .none, [⟨0, 32, .ro, .always⟩]⟩, -- TMB_PATHDLY
  ⟨0x40C00040, [], 2, .none, [⟨0, 40, .ro, .always⟩]⟩ -- TMB_STEP_AMT
]
/-- Register rows from 0x40C00000 on, part 1. -/
def rows40C_1 : List RegRow := [
  ⟨0x40C00048, [], 2, .none, [⟨0, 40, .ro, .always⟩]⟩, -- TMB_STEP_AT
  ⟨0x40C00050, [], 2, .none, [⟨0, 64, .ro, .always⟩]⟩, -- TMB_GM_ID
  ⟨0x40C00058, [], 1, .none, [⟨0, 16, .ro, .always⟩, ⟨16, 1, .ro, .always⟩]⟩, -- TMB_UTC
  ⟨0x40C0005C, [], 1, .none, [⟨0, 8, .ro, .always⟩, ⟨8, 8, .ro, .always⟩, ⟨16, 16, .ro, .always⟩]⟩ -- TMB_CNT
]
/-- Register rows from 0x40D00000 on, part 0. -/
def rows40D_0 : List RegRow := [
  ⟨0x40D00000, [], 2, .none, [⟨0, 64, .ro, .always⟩]⟩, -- FLT_STATUS
  ⟨0x40D00008, [], 2, .none, [⟨0, 64, .ro, .always⟩]⟩, -- FLT_PARTED
  ⟨0x40D00010, [], 2, .none, [⟨0, 64, .ro, .always⟩]⟩, -- FLT_HELD
  ⟨0x40D00018, [], 2, .none, [⟨0, 64, .rw, .idle⟩]⟩, -- FLT_CHIP
  ⟨0x40D00020, [], 1, .none, [⟨0, 6, .ro, .always⟩, ⟨8, 8, .ro, .always⟩, ⟨16, 6, .ro, .always⟩, ⟨31, 1, .w1c, .always⟩]⟩, -- FLT_FIRST
  ⟨0x40D00024, [], 2, .none, [⟨0, 40, .ro, .always⟩]⟩, -- FLT_FIRST_T
  ⟨0x40D00030, [], 1, .none, [⟨0, 16, .rw, .always⟩, ⟨16, 8, .rw, .always⟩]⟩, -- FLT_QUIET
  ⟨0x40D00038, [], 2, .none, [⟨0, 64, .wo, .always⟩]⟩, -- FLT_CLEAR
  ⟨0x40D00100, [(64, 0x4)], 1, .none, [⟨0, 16, .ro, .always⟩, ⟨16, 8, .ro, .always⟩, ⟨24, 6, .ro, .always⟩, ⟨30, 1, .ro, .always⟩, ⟨31, 1, .ro, .always⟩]⟩, -- FLT_SRC
  ⟨0x40D00200, [(9, 0x4)], 1, .none, [⟨0, 16, .ro, .always⟩, ⟨16, 16, .ro, .always⟩]⟩ -- FLT_ECC
]
/-- Register rows from 0x40E00000 on, part 0. -/
def rows40E_0 : List RegRow := [
  ⟨0x40E00000, [], 1, .none, [⟨0, 1, .wo, .always⟩, ⟨1, 1, .rw, .always⟩, ⟨2, 1, .ro, .always⟩, ⟨3, 1, .ro, .always⟩, ⟨4, 1, .ro, .always⟩, ⟨16, 16, .ro, .always⟩]⟩, -- CNT_SNAP
  ⟨0x40E00004, [], 1, .none, [⟨0, 1, .wo, .always⟩, ⟨1, 1, .ro, .always⟩, ⟨2, 1, .w1c, .always⟩]⟩, -- CNT_DRAIN
  ⟨0x40E00008, [], 2, .none, [⟨0, 40, .rw, .always⟩]⟩, -- CNT_SNAP_AT
  ⟨0x40E00010, [], 2, .none, [⟨0, 40, .ro, .always⟩]⟩, -- CNT_CSHAV
  ⟨0x40E00018, [], 1, .none, [⟨0, 7, .ro, .always⟩]⟩, -- CNT_COMMITTED
  ⟨0x40E00020, [], 2, .none, [⟨0, 40, .ro, .always⟩]⟩, -- CNT_MBX_LOCK
  ⟨0x40E00028, [], 2, .none, [⟨0, 40, .ro, .always⟩]⟩, -- CNT_MBX_FINAL
  ⟨0x40E00030, [], 1, .none, [⟨0, 16, .ro, .always⟩]⟩, -- CNT_DRAINS
  ⟨0x40E00034, [], 2, .none, [⟨0, 40, .ro, .always⟩]⟩, -- CNT_DRAIN_T
  ⟨0x40E01000, [(24, 0x80)], 2, .port, [⟨0, 40, .ro, .always⟩]⟩, -- CNT_LINES
  ⟨0x40E01008, [(24, 0x80)], 2, .port, [⟨0, 40, .ro, .always⟩]⟩, -- CNT_FIRED
  ⟨0x40E01010, [(24, 0x80)], 2, .port, [⟨0, 40, .ro, .always⟩]⟩ -- CNT_BL_PARTED
]
/-- Register rows from 0x40E00000 on, part 1. -/
def rows40E_1 : List RegRow := [
  ⟨0x40E01018, [(24, 0x80)], 2, .port, [⟨0, 40, .ro, .always⟩]⟩, -- CNT_BL_PARTHO
  ⟨0x40E01020, [(24, 0x80)], 2, .port, [⟨0, 40, .ro, .always⟩]⟩, -- CNT_BL_OUT
  ⟨0x40E01028, [(24, 0x80)], 2, .port, [⟨0, 40, .ro, .always⟩]⟩, -- CNT_BL_RENDER
  ⟨0x40E01030, [(24, 0x80)], 2, .port, [⟨0, 40, .ro, .always⟩]⟩, -- CNT_BL_WITHHELD
  ⟨0x40E01038, [(24, 0x80)], 2, .port, [⟨0, 40, .ro, .always⟩]⟩, -- CNT_BL_TX
  ⟨0x40E01040, [(24, 0x80)], 2, .port, [⟨0, 40, .ro, .always⟩]⟩, -- CNT_BL_SPACE
  ⟨0x40E04000, [(6144, 0x4)], 1, .none, [⟨0, 32, .w1c, .always⟩]⟩ -- CNT_SATMAP
]
/-- Register rows from 0x40F00000 on, part 0. -/
def rows40F_0 : List RegRow := [
  ⟨0x40F00000, [], 1, .none, [⟨0, 1, .rw, .idle⟩, ⟨1, 1, .rw, .idle⟩]⟩, -- CHK_CTRL
  ⟨0x40F00004, [], 1, .none, [⟨0, 2, .ro, .always⟩, ⟨2, 1, .ro, .always⟩, ⟨3, 1, .ro, .always⟩, ⟨4, 1, .w1c, .always⟩, ⟨5, 1, .ro, .always⟩, ⟨6, 1, .w1c, .always⟩, ⟨7, 1, .w1c, .always⟩, ⟨8, 1, .w1c, .always⟩]⟩, -- CHK_STAT
  ⟨0x40F00008, [], 1, .none, [⟨0, 11, .ro, .always⟩, ⟨16, 11, .ro, .always⟩]⟩, -- CHK_DIE
  ⟨0x40F0000C, [], 1, .none, [⟨0, 8, .rw, .always⟩, ⟨8, 8, .rw, .always⟩, ⟨16, 8, .rw, .always⟩]⟩, -- CHK_DIE_CFG
  ⟨0x40F00010, [], 1, .none, [⟨0, 8, .rw, .always⟩, ⟨8, 8, .rw, .always⟩, ⟨16, 8, .rw, .always⟩, ⟨24, 8, .rw, .always⟩]⟩, -- CHK_RISE_CFG
  ⟨0x40F00014, [], 1, .none, [⟨0, 16, .ro, .always⟩]⟩, -- CHK_RISE
  ⟨0x40F00018, [], 1, .none, [⟨0, 8, .rw, .always⟩]⟩, -- CHK_XCHK
  ⟨0x40F0001C, [], 1, .none, [⟨0, 24, .ro, .always⟩]⟩, -- CHK_TS_BROKEN
  ⟨0x40F00020, [], 1, .none, [⟨0, 24, .ro, .always⟩]⟩, -- CHK_CEIL
  ⟨0x40F00024, [], 1, .none, [⟨0, 24, .ro, .always⟩]⟩, -- CHK_CEIL_T
  ⟨0x40F00028, [], 1, .none, [⟨0, 5, .rw, .idle⟩, ⟨8, 5, .rw, .idle⟩, ⟨16, 5, .rw, .idle⟩, ⟨24, 5, .rw, .idle⟩]⟩, -- CHK_SPFLOOR
  ⟨0x40F0002C, [], 1, .none, [⟨0, 10, .ro, .always⟩, ⟨16, 10, .ro, .always⟩]⟩ -- CHK_VCORE
]
/-- Register rows from 0x40F00000 on, part 1. -/
def rows40F_1 : List RegRow := [
  ⟨0x40F00030, [], 1, .none, [⟨0, 10, .ro, .always⟩, ⟨16, 10, .ro, .always⟩]⟩, -- CHK_VSP
  ⟨0x40F00034, [], 1, .none, [⟨0, 7, .ro, .always⟩, ⟨8, 7, .ro, .always⟩]⟩, -- CHK_RAIL
  ⟨0x40F00038, [], 1, .none, [⟨0, 4, .rw, .always⟩, ⟨8, 4, .ro, .always⟩]⟩, -- CHK_HV
  ⟨0x40F0003C, [], 1, .none, [⟨0, 12, .rw, .always⟩, ⟨16, 12, .rw, .always⟩]⟩, -- CHK_FFCFG
  ⟨0x40F00040, [], 1, .none, [⟨0, 32, .ro, .always⟩]⟩, -- CHK_CAL
  ⟨0x40F00044, [], 1, .none, [⟨0, 1, .ro, .always⟩, ⟨1, 4, .ro, .always⟩, ⟨5, 1, .ro, .always⟩]⟩, -- CHK_CAL2
  ⟨0x40F00048, [], 1, .none, [⟨0, 16, .ro, .always⟩, ⟨16, 16, .ro, .always⟩]⟩, -- CHK_CNT
  ⟨0x40F00060, [(8, 0x4)], 1, .none, [⟨0, 11, .ro, .always⟩, ⟨15, 1, .ro, .always⟩]⟩, -- CHK_CALPT
  ⟨0x40F00100, [(24, 0x4)], 1, .port, [⟨0, 16, .rw, .idle⟩]⟩, -- CHK_HVTGT
  ⟨0x40F00180, [(24, 0x4)], 1, .port, [⟨0, 12, .ro, .always⟩, ⟨16, 12, .rw, .always⟩]⟩, -- CHK_TRIM
  ⟨0x40F00200, [(4, 0x4)], 1, .none, [⟨0, 10, .rw, .always⟩, ⟨16, 10, .rw, .always⟩]⟩, -- CHK_SENSE
  ⟨0x40F00400, [(64, 0x4)], 1, .none, [⟨0, 16, .ro, .always⟩, ⟨16, 1, .ro, .always⟩, ⟨17, 1, .ro, .always⟩]⟩ -- CHK_CH
]
/-- Register rows from 0x41000000 on, part 0. -/
def rows410_0 : List RegRow := [
  ⟨0x41000000, [(8, 0x80)], 1, .none, [⟨0, 1, .rw, .always⟩, ⟨1, 1, .rw, .axisRest⟩, ⟨2, 1, .rw, .axisRest⟩, ⟨3, 1, .rw, .axisRest⟩, ⟨4, 1, .rw, .axisRest⟩, ⟨5, 1, .rw, .axisRest⟩, ⟨8, 8, .rw, .axisRest⟩, ⟨16, 3, .rw, .axisRest⟩, ⟨19, 1, .rw, .axisRest⟩, ⟨24, 8, .rw, .axisRest⟩]⟩, -- MOT_AX_W0
  ⟨0x41000004, [(8, 0x80)], 1, .none, [⟨0, 21, .rw, .axisRest⟩]⟩, -- MOT_AX_W1
  ⟨0x41000008, [(8, 0x80)], 1, .none, [⟨0, 32, .rw, .axisRest⟩]⟩, -- MOT_AX_W2
  ⟨0x4100000C, [(8, 0x80)], 1, .none, [⟨0, 32, .rw, .axisRest⟩]⟩, -- MOT_AX_W3
  ⟨0x41000010, [(8, 0x80)], 1, .none, [⟨0, 32, .rw, .axisRest⟩]⟩, -- MOT_AX_W4
  ⟨0x41000014, [(8, 0x80)], 1, .none, [⟨0, 21, .rw, .axisRest⟩]⟩, -- MOT_AX_W5
  ⟨0x41000018, [(8, 0x80)], 1, .none, [⟨0, 32, .rw, .axisRest⟩]⟩, -- MOT_AX_LIM_LO
  ⟨0x4100001C, [(8, 0x80)], 1, .none, [⟨0, 32, .rw, .axisRest⟩]⟩, -- MOT_AX_LIM_HI
  ⟨0x41000020, [(8, 0x80)], 1, .none, [⟨0, 32, .rw, .axisRest⟩]⟩, -- MOT_AX_W8
  ⟨0x41000024, [(8, 0x80)], 1, .none, [⟨0, 32, .rw, .axisRest⟩]⟩, -- MOT_AX_W9
  ⟨0x41000028, [(8, 0x80)], 1, .none, [⟨0, 21, .rw, .axisRest⟩, ⟨24, 8, .rw, .axisRest⟩]⟩, -- MOT_AX_W10
  ⟨0x4100002C, [(8, 0x80)], 1, .none, [⟨0, 16, .rw, .axisRest⟩]⟩ -- MOT_AX_W11
]
/-- Register rows from 0x41000000 on, part 1. -/
def rows410_1 : List RegRow := [
  ⟨0x41000030, [(8, 0x80)], 1, .none, [⟨0, 32, .rw, .axisRest⟩]⟩, -- MOT_AX_W12
  ⟨0x41000034, [(8, 0x80)], 1, .none, [⟨0, 32, .rw, .axisRest⟩]⟩, -- MOT_AX_W13
  ⟨0x41000038, [(8, 0x80)], 1, .none, [⟨0, 16, .rw, .axisRest⟩]⟩, -- MOT_AX_W14
  ⟨0x41000040, [(8, 0x80)], 1, .none, [⟨0, 3, .ro, .always⟩, ⟨3, 1, .ro, .always⟩, ⟨4, 1, .ro, .always⟩, ⟨5, 1, .w1c, .always⟩, ⟨6, 1, .w1c, .always⟩, ⟨7, 1, .w1c, .always⟩, ⟨8, 1, .ro, .always⟩, ⟨9, 1, .ro, .always⟩, ⟨10, 1, .w1c, .always⟩, ⟨11, 1, .w1c, .always⟩, ⟨12, 1, .ro, .always⟩, ⟨13, 1, .ro, .always⟩]⟩, -- MOT_AX_STAT
  ⟨0x41000044, [(8, 0x80)], 1, .none, [⟨0, 32, .ro, .always⟩]⟩, -- MOT_AX_POS
  ⟨0x41000048, [(8, 0x80)], 1, .none, [⟨0, 32, .ro, .always⟩]⟩, -- MOT_AX_TGT
  ⟨0x4100004C, [(8, 0x80)], 1, .none, [⟨0, 32, .ro, .always⟩]⟩, -- MOT_AX_VEL
  ⟨0x41000050, [(8, 0x80)], 1, .none, [⟨0, 16, .ro, .always⟩]⟩, -- MOT_AX_UNCERT
  ⟨0x41000054, [(8, 0x80)], 1, .none, [⟨0, 32, .ro, .always⟩]⟩, -- MOT_AX_SSIPOS
  ⟨0x41000058, [(8, 0x80)], 1, .none, [⟨0, 1, .rw, .always⟩, ⟨1, 1, .wo, .always⟩]⟩, -- MOT_AX_CMD
  ⟨0x41000800, [(4, 0x10)], 1, .none, [⟨0, 1, .rw, .always⟩, ⟨1, 3, .rw, .ssiOff⟩, ⟨4, 6, .rw, .ssiOff⟩, ⟨10, 1, .rw, .ssiOff⟩, ⟨16, 8, .rw, .ssiOff⟩]⟩, -- MOT_SSI_CFG
  ⟨0x41000804, [(4, 0x10)], 1, .none, [⟨0, 32, .ro, .always⟩]⟩ -- MOT_SSI_DATA
]
/-- Register rows from 0x41000000 on, part 2. -/
def rows410_2 : List RegRow := [
  ⟨0x41000808, [(4, 0x10)], 1, .none, [⟨0, 16, .ro, .always⟩]⟩, -- MOT_SSI_ERR
  ⟨0x41000900, [], 1, .none, [⟨0, 8, .w1c, .always⟩]⟩, -- MOT_PAIR
  ⟨0x41000904, [], 1, .none, [⟨0, 32, .ro, .always⟩]⟩ -- MOT_TOFF
]
/-- Register rows from 0x41100000 on, part 0. -/
def rows411_0 : List RegRow := [
  ⟨0x41100004, [], 1, .none, [⟨0, 1, .ro, .always⟩, ⟨1, 1, .ro, .always⟩, ⟨2, 1, .ro, .always⟩, ⟨3, 1, .ro, .always⟩, ⟨4, 1, .ro, .always⟩]⟩, -- BTJ_RSTCAUSE
  ⟨0x41100008, [], 1, .none, [⟨0, 4, .ro, .always⟩, ⟨4, 1, .ro, .always⟩, ⟨5, 1, .ro, .always⟩, ⟨6, 2, .ro, .always⟩, ⟨8, 1, .ro, .always⟩, ⟨9, 1, .ro, .always⟩, ⟨10, 1, .ro, .always⟩, ⟨11, 1, .ro, .always⟩, ⟨12, 1, .ro, .always⟩, ⟨13, 1, .ro, .always⟩, ⟨14, 1, .ro, .always⟩, ⟨15, 1, .w1c, .always⟩, ⟨16, 4, .ro, .always⟩, ⟨20, 1, .ro, .always⟩]⟩, -- BTJ_STAT
  ⟨0x4110000C, [], 1, .none, [⟨0, 32, .ro, .always⟩]⟩, -- BTJ_BOOTNO
  ⟨0x41100010, [], 1, .none, [⟨0, 32, .ro, .always⟩]⟩, -- BTJ_FWVER
  ⟨0x41100014, [], 1, .none, [⟨0, 32, .ro, .always⟩]⟩, -- BTJ_OCVER
  ⟨0x41100018, [], 1, .none, [⟨0, 7, .ro, .always⟩, ⟨8, 6, .ro, .always⟩, ⟨16, 1, .ro, .always⟩]⟩, -- BTJ_SVN
  ⟨0x4110001C, [], 1, .none, [⟨0, 4, .ro, .always⟩]⟩, -- BTJ_FAILRUN
  ⟨0x41100020, [], 1, .none, [⟨0, 32, .ro, .always⟩]⟩, -- BTJ_BOOTTIME
  ⟨0x41100024, [], 1, .none, [⟨0, 18, .ro, .always⟩]⟩, -- BTJ_JPTR
  ⟨0x41100028, [], 1, .none, [⟨0, 4, .ro, .always⟩, ⟨4, 4, .ro, .always⟩, ⟨8, 4, .ro, .always⟩, ⟨12, 4, .ro, .always⟩]⟩, -- BTJ_IMGCAUSE
  ⟨0x4110002C, [], 1, .none, [⟨0, 16, .ro, .always⟩]⟩, -- BTJ_FLASHERR
  ⟨0x41100030, [], 1, .none, [⟨0, 1, .ro, .always⟩, ⟨1, 2, .ro, .always⟩, ⟨3, 1, .ro, .always⟩, ⟨4, 1, .ro, .always⟩]⟩ -- BTJ_STRAP
]
/-- Register rows from 0x42100000 on, part 0. -/
def rows421_0 : List RegRow := [
  ⟨0x42100000, [(16384, 0x4)], 1, .none, [⟨0, 32, .rw, .gmpList⟩]⟩ -- grain-map change list (R96)
]
/-- Register rows from 0x42200000 on, part 0. -/
def rows422_0 : List RegRow := [
  ⟨0x42200000, [], 1, .none, [⟨0, 13, .rw, .gmpFree⟩, ⟨13, 1, .rw, .gmpFree⟩, ⟨31, 1, .wo, .always⟩]⟩, -- GMP_COMMIT
  ⟨0x42200004, [], 1, .none, [⟨0, 1, .ro, .always⟩, ⟨1, 1, .w1c, .always⟩, ⟨2, 1, .w1c, .always⟩, ⟨3, 4, .ro, .always⟩, ⟨12, 12, .ro, .always⟩]⟩, -- GMP_CSTAT
  ⟨0x42200008, [], 2, .none, [⟨0, 40, .rw, .gmpFree⟩]⟩, -- GMP_COMMIT_AT
  ⟨0x42200010, [], 1, .none, [⟨0, 16, .ro, .always⟩]⟩, -- GMP_GEN
  ⟨0x42200014, [], 1, .none, [⟨0, 17, .ro, .always⟩]⟩ -- GMP_PARKWORDS
]

/-- The rows of the 1 MiB block that holds an address. -/
def rowsOf (a : Nat) : List RegRow :=
  match a >>> 20 with
  | 0x400 => rows400_0 ++ rows400_1
  | 0x401 => rows401_0 ++ rows401_1
  | 0x402 => rows402_0
  | 0x403 => rows403_0 ++ rows403_1 ++ rows403_2
  | 0x404 => rows404_0 ++ rows404_1
  | 0x406 => rows406_0 ++ rows406_1 ++ rows406_2 ++ rows406_3
  | 0x407 => rows407_0 ++ rows407_1 ++ rows407_2
  | 0x408 => rows408_0 ++ rows408_1
  | 0x409 => rows409_0 ++ rows409_1 ++ rows409_2 ++ rows409_3
  | 0x40A => rows40A_0 ++ rows40A_1
  | 0x40B => rows40B_0 ++ rows40B_1
  | 0x40C => rows40C_0 ++ rows40C_1
  | 0x40D => rows40D_0
  | 0x40E => rows40E_0 ++ rows40E_1
  | 0x40F => rows40F_0 ++ rows40F_1
  | 0x410 => rows410_0 ++ rows410_1 ++ rows410_2
  | 0x411 => rows411_0
  | 0x421 => rows421_0
  | 0x422 => rows422_0
  | _ => []

/-- Fields whose reset value is not 0: (base, dims, lsb, value), from the reset columns of the register tables. -/
def resetTable_0 : List (Nat × List (Nat × Nat) × Nat × Nat) := [
  (0x40300000, [], 0, 2048), -- BLT_STORE_CFG.RUNAHEAD_BANDS
  (0x40300000, [], 16, 256), -- BLT_STORE_CFG.REPLAY_BANDS
  (0x40302000, [], 0, 16), -- BLT_ENG_CFG.DEPTH
  (0x40302000, [], 8, 1), -- BLT_ENG_CFG.CAP_ENABLE
  (0x40400000, [], 0, 32), -- SPN_CTRL.WINDOW
  (0x40400000, [], 8, 1), -- SPN_CTRL.SPARE_SHADOW
  (0x40400000, [], 16, 16), -- SPN_CTRL.KAT_PERIOD
  (0x40400004, [], 0, 2), -- SPN_STAT.SPARES
  (0x40400008, [], 0, 100), -- SPN_PACE.MARGIN
  (0x4040000C, [], 0, 30), -- SPN_PACE_CFG.DOWN_PCT
  (0x40400014, [], 0, 57), -- SPN_SIZEMAP.NORMAL
  (0x40400014, [], 8, 57) -- SPN_SIZEMAP.SHORT
]
def resetTable_1 : List (Nat × List (Nat × Nat) × Nat × Nat) := [
  (0x40400180, [], 0, 12884901888), -- SPN_POOL.POOL
  (0x40600000, [(2, 0x100)], 4, 4), -- ENC_CH_CFG.FILT
  (0x40600000, [(2, 0x100)], 12, 1), -- ENC_CH_CFG.MISSING
  (0x40600000, [(2, 0x100)], 16, 3), -- ENC_CH_CFG.AVG
  (0x40600000, [(2, 0x100)], 24, 20), -- ENC_CH_CFG.STANDSTILL
  (0x40600004, [(2, 0x100)], 1, 1), -- ENC_CH_STAT.DIR
  (0x40600004, [(2, 0x100)], 2, 1), -- ENC_CH_STAT.STANDSTILL
  (0x40600210, [], 0, 65536), -- ENC_LINE_PITCH.PITCH
  (0x40600218, [], 0, 1099511627775), -- ENC_LINE.INDEX
  (0x40600220, [], 0, 16777215), -- ENC_LINE_T.T
  (0x40600224, [], 0, 16777215), -- ENC_LINE_TP.T
  (0x40600228, [], 0, 16777215) -- ENC_LINE_GAP.T
]
def resetTable_2 : List (Nat × List (Nat × Nat) × Nat × Nat) := [
  (0x4060022C, [], 0, 80), -- ENC_LATENCY.LAT
  (0x40600300, [], 16, 50), -- ENC_XCHK_CFG.TOL
  (0x40600304, [], 0, 16777216), -- ENC_XCHK_RATIO.RATIO
  (0x40600308, [], 0, 65536), -- ENC_XCHK_LEN.LEN
  (0x40600400, [], 0, 192000), -- ENC_CEIL_FS.FS
  (0x40600404, [], 0, 16777215), -- ENC_CEIL_HOST.CEIL
  (0x40600408, [], 0, 16777215), -- ENC_CEIL.CEIL
  (0x40680000, [(8, 0x100)], 3, 1), -- CMP_CTRL.POL
  (0x40680000, [(8, 0x100)], 16, 25), -- CMP_CTRL.WIDTH
  (0x40700000, [], 4, 1), -- FIR_CTRL.BAND_AUTO
  (0x40700004, [], 0, 8), -- FIR_CLASS_CFG.LEAD
  (0x40700004, [], 8, 3) -- FIR_CLASS_CFG.UP_PCT
]
def resetTable_3 : List (Nat × List (Nat × Nat) × Nat × Nat) := [
  (0x40700004, [], 16, 8), -- FIR_CLASS_CFG.DOWN_PCT
  (0x40700008, [], 0, 1280), -- FIR_PHASE.OFF_N
  (0x40700008, [], 16, 1280), -- FIR_PHASE.OFF_S
  (0x40700020, [], 0, 16777215), -- FIR_HCEIL.CEIL
  (0x40700024, [], 0, 65), -- FIR_HTEMP_CFG.WARN
  (0x40700024, [], 8, 75), -- FIR_HTEMP_CFG.LIMIT
  (0x40700024, [], 16, 50), -- FIR_HTEMP_CFG.FLOOR_PCT
  (0x40700028, [], 0, 30), -- FIR_BAND_CFG.TB1
  (0x40700028, [], 8, 45), -- FIR_BAND_CFG.TB2
  (0x40700028, [], 16, 60), -- FIR_BAND_CFG.TB3
  (0x40700028, [], 24, 2), -- FIR_BAND_CFG.HYST
  (0x40700030, [], 0, 1) -- FIR_RES_CFG.EN
]
def resetTable_4 : List (Nat × List (Nat × Nat) × Nat × Nat) := [
  (0x40700030, [], 1, 2), -- FIR_RES_CFG.PER_LINE
  (0x40700030, [], 5, 32), -- FIR_RES_CFG.GAP_PER_LINE
  (0x40700030, [], 12, 256), -- FIR_RES_CFG.IDLE_LINES
  (0x40700034, [], 0, 15), -- FIR_RES_WIN.LO_PCT
  (0x40700034, [], 8, 15), -- FIR_RES_WIN.HI_PCT
  (0x40700068, [], 2, 4), -- FIR_SPIT_CFG.GAP_SPITS
  (0x40700068, [], 8, 37), -- FIR_SPIT_CFG.STRIDE
  (0x40800000, [(24, 0x100)], 2, 1), -- HLK_CTRL.ONE_LANE_OK
  (0x40900004, [(4, 0x100)], 0, 16384), -- CAM_SIZE.WIDTH
  (0x40900004, [(4, 0x100)], 16, 1024), -- CAM_SIZE.HEIGHT
  (0x40900010, [(4, 0x100)], 0, 65536), -- CAM_YPITCH.YPITCH
  (0x40901000, [(4, 0x400)], 0, 65536) -- CAM_PIPE_GEOM.SCALE
]
def resetTable_5 : List (Nat × List (Nat × Nat) × Nat × Nat) := [
  (0x4090100C, [(4, 0x400)], 0, 64), -- CAM_PIPE_SCORE.THRESH
  (0x4090100C, [(4, 0x400)], 8, 128), -- CAM_PIPE_SCORE.REF
  (0x4090100C, [(4, 0x400)], 16, 1), -- CAM_PIPE_SCORE.ISO
  (0x4090100C, [(4, 0x400)], 20, 4), -- CAM_PIPE_SCORE.MINHIT
  (0x40901010, [(4, 0x400)], 8, 16), -- CAM_PIPE_REGCFG.SEARCH
  (0x40901010, [(4, 0x400)], 16, 128), -- CAM_PIPE_REGCFG.MTHRESH
  (0x40901024, [(4, 0x400)], 0, 16), -- CAM_PIPE_ILL2.HYST
  (0x40901024, [(4, 0x400)], 8, 50), -- CAM_PIPE_ILL2.DEPTH_MAX
  (0x40902000, [], 0, 1), -- CAM_GCFG.SHARE_EN
  (0x40902000, [], 8, 16), -- CAM_GCFG.MASK_DEPTH
  (0x40A00000, [], 1, 1), -- TSL_CFG.AUTO_RESYNC
  (0x40A00000, [], 3, 1) -- TSL_CFG.WITHHOLD
]
def resetTable_6 : List (Nat × List (Nat × Nat) × Nat × Nat) := [
  (0x40A00000, [], 8, 32), -- TSL_CFG.BILLET_WIN
  (0x40A00000, [], 16, 4), -- TSL_CFG.POS_TOL
  (0x40A0000C, [], 0, 19200), -- TSL_DETECT.D
  (0x40104050, [], 8, 10), -- MBX_UDP_CFG.TIMEOUT
  (0x40104050, [], 16, 42456), -- MBX_UDP_CFG.UDPPORT
  (0x41100004, [], 0, 1), -- BTJ_RSTCAUSE.POR
  (0x41100008, [], 0, 1), -- BTJ_STAT.STEP
  (0x40000500, [], 0, 100), -- HIC_REDIRECT_T.T
  (0x40001800, [(6, 0x4)], 1, 1), -- HIC_CORE.PARTED
  (0x40002000, [(384, 0x4)], 3, 7), -- HIC_ROUTE.ALT
  (0x40003000, [(16, 0x4)], 0, 1), -- HIC_EXT.FILT
  (0x40B01000, [], 0, 4) -- DRC_CTRL.GRAIN
]
def resetTable_7 : List (Nat × List (Nat × Nat) × Nat × Nat) := [
  (0x40B01000, [], 4, 1), -- DRC_CTRL.SCRUB_EN
  (0x40B01000, [], 5, 1), -- DRC_CTRL.DEMAND_WB
  (0x40B01004, [], 0, 16), -- DRC_LAYOUT.MASK_MAX
  (0x40B01010, [], 0, 8), -- DRC_SCRUB.HOURS
  (0x40C00004, [], 16, 100), -- TMB_CFG.LOCK_NS
  (0x40D00018, [], 0, 143833713099145216), -- FLT_CHIP.CHIP
  (0x40D00030, [], 0, 250), -- FLT_QUIET.MS
  (0x40D00030, [], 16, 8), -- FLT_QUIET.HOLD_N
  (0x40E00000, [], 1, 1), -- CNT_SNAP.NEXT
  (0x40F0000C, [], 0, 125), -- CHK_DIE_CFG.WARN
  (0x40F0000C, [], 8, 130), -- CHK_DIE_CFG.LIMIT
  (0x40F0000C, [], 16, 50) -- CHK_DIE_CFG.FLOOR_PCT
]
def resetTable_8 : List (Nat × List (Nat × Nat) × Nat × Nat) := [
  (0x40F00010, [], 0, 20), -- CHK_RISE_CFG.RISE_MAX
  (0x40F00010, [], 8, 10), -- CHK_RISE_CFG.RISE_BAND
  (0x40F00010, [], 16, 50), -- CHK_RISE_CFG.HOR
  (0x40F00010, [], 24, 10), -- CHK_RISE_CFG.RAMP_PCT
  (0x40F00018, [], 0, 8), -- CHK_XCHK.LIMIT
  (0x40F00020, [], 0, 16777215), -- CHK_CEIL.DIE
  (0x40F00024, [], 0, 16777215), -- CHK_CEIL_T.THERMAL
  (0x40F00028, [], 8, 2), -- CHK_SPFLOOR.F1
  (0x40F00028, [], 16, 5), -- CHK_SPFLOOR.F2
  (0x40F00028, [], 24, 8), -- CHK_SPFLOOR.F3
  (0x40F0002C, [], 0, 850), -- CHK_VCORE.TARGET
  (0x40F00030, [], 0, 700) -- CHK_VSP.TARGET
]
def resetTable_9 : List (Nat × List (Nat × Nat) × Nat × Nat) := [
  (0x40F0003C, [], 0, 256), -- CHK_FFCFG.DARK_MAX
  (0x40F0003C, [], 16, 2048), -- CHK_FFCFG.WHITE_MIN
  (0x40F00180, [(24, 0x4)], 0, 2048), -- CHK_TRIM.CODE
  (0x40F00180, [(24, 0x4)], 16, 2048), -- CHK_TRIM.MAN
  (0x40F00200, [(4, 0x4)], 0, 100), -- CHK_SENSE.LO
  (0x40F00200, [(4, 0x4)], 16, 1000), -- CHK_SENSE.HI
  (0x41000000, [(8, 0x80)], 3, 1), -- MOT_AX_W0.STALL_STOP
  (0x41000000, [(8, 0x80)], 4, 1), -- MOT_AX_W0.STALL_POL
  (0x41000000, [(8, 0x80)], 8, 25), -- MOT_AX_W0.FILT
  (0x41000000, [(8, 0x80)], 16, 7), -- MOT_AX_W0.SSI
  (0x41000000, [(8, 0x80)], 24, 10), -- MOT_AX_W0.PULSE
  (0x41000004, [(8, 0x80)], 0, 200000) -- MOT_AX_W1.SPEED_MAX
]
def resetTable_10 : List (Nat × List (Nat × Nat) × Nat × Nat) := [
  (0x41000008, [(8, 0x80)], 0, 1000000), -- MOT_AX_W2.ACC_DEF
  (0x4100000C, [(8, 0x80)], 0, 1000000), -- MOT_AX_W3.DEC_DEF
  (0x41000010, [(8, 0x80)], 0, 4000000), -- MOT_AX_W4.DEC_MAX
  (0x41000014, [(8, 0x80)], 0, 100000), -- MOT_AX_W5.SPEED_DEF
  (0x41000024, [(8, 0x80)], 0, 16777216), -- MOT_AX_W9.HOME_TRAVEL
  (0x41000028, [(8, 0x80)], 0, 20000), -- MOT_AX_W10.STALL_MIN
  (0x41000028, [(8, 0x80)], 24, 20), -- MOT_AX_W10.STALL_BLANK
  (0x4100002C, [(8, 0x80)], 0, 128), -- MOT_AX_W11.UNCERT_MAX
  (0x41000030, [(8, 0x80)], 0, 65536), -- MOT_AX_W12.SSI_SCALE
  (0x41000038, [(8, 0x80)], 0, 64), -- MOT_AX_W14.SSI_TOL
  (0x41000040, [(8, 0x80)], 3, 1), -- MOT_AX_STAT.LOST
  (0x41000800, [(4, 0x10)], 4, 24) -- MOT_SSI_CFG.BITS
]
def resetTable_11 : List (Nat × List (Nat × Nat) × Nat × Nat) := [
  (0x41000800, [(4, 0x10)], 16, 10) -- MOT_SSI_CFG.PERIOD
]
/-- The whole table of reset values that are not 0. -/
def resetTable : List (Nat × List (Nat × Nat) × Nat × Nat) :=
  resetTable_0 ++ resetTable_1 ++ resetTable_2 ++ resetTable_3 ++ resetTable_4 ++ resetTable_5 ++ resetTable_6 ++ resetTable_7 ++ resetTable_8 ++ resetTable_9 ++ resetTable_10 ++ resetTable_11

/-- The indices of a register inside a row, from the byte offset to the row's base. -/
def indices : List (Nat × Nat) → Nat → Option (List Nat × Nat)
  | [], off => some ([], off)
  | (c, st) :: ds, off =>
    if off / st < c then
      match indices ds (off - off / st * st) with
      | some (is, r) => some (off / st :: is, r)
      | none => none
    else none

/-- The row, indices and word (0 or 1) an address falls into, if a register stands there. -/
def findRow : List RegRow → Nat → Option (RegRow × List Nat × Nat)
  | [], _ => none
  | r :: rs, a =>
    if a < r.base then findRow rs a else
    match indices r.dims (a - r.base) with
    | some (is, off) => if off < 4 * r.words then some (r, is, off / 4) else findRow rs a
    | none => findRow rs a

/-- The value the reset columns give the field at (address, lsb), 0 where the table lists none. -/
def resetLookup : List (Nat × List (Nat × Nat) × Nat × Nat) → Nat → Nat → Nat
  | [], _, _ => 0
  | (b, ds, l, v) :: rs, a, lsb =>
    if l = lsb ∧ b ≤ a ∧ (match indices ds (a - b) with | some (_, 0) => true | _ => false) = true then v
    else resetLookup rs a lsb

end Sys2Proof.Machine
end

