-- ==== Sys2Proof/Machine/Defaults.lean ====
section
/-! DEFINITION. What an unlisted entry of each sparse table of the state reads as: the reset values of the register
tables, erased flash, the initial grain map. -/

namespace Sys2Proof.Machine

/-- Entry (y, x) of the ordered matrix M of side 2^k (R101). -/
def bayer : Nat → Nat → Nat → Nat
  | 0, _, _ => 0
  | k + 1, y, x =>
    let n := 2 ^ k
    let q := if y / n % 2 = 0 then (if x / n % 2 = 0 then 0 else 2) else (if x / n % 2 = 0 then 3 else 1)
    4 * bayer k (y % n) (x % n) + q

/-- The built-in dither threshold of entry t (R101). -/
def ditherDefault (t : Nat) : Nat := bayer 6 (t / 64 % 64) (t % 64) / 2

/-- The built-in flat-field word: DARK 0, FF 4,081 (R398). -/
def flatDefault : Nat := 4081 * 2 ^ 16

/-- Interrupt sources an open core may route (R331, HIC_ROUTE_s.OPEN). -/
def openSource (s : Nat) : Bool :=
  decide ((8 ≤ s ∧ s ≤ 15) ∨ s = 92 ∨ s = 104 ∨ s = 126 ∨ s = 127 ∨ (176 ≤ s ∧ s ≤ 191))

/-- What a register field that nothing has written reads as: its reset value (R8 and the register tables). -/
def dfltReg (key : Nat) : Nat :=
  let a := key / 32
  let l := key % 32
  if 0x40400100 ≤ a ∧ a < 0x40400180 then (a - 0x40400100) / 4
  else if 0x40408000 ≤ a ∧ a < 0x4040C000 then ditherDefault ((a - 0x40408000) / 4)
  else if 0x40980000 ≤ a ∧ a < 0x409C0000 then (if l = 0 then flatDefault else 0)
  else if 0x40002000 ≤ a ∧ a < 0x40002600 then
    let s := (a - 0x40002000) / 4
    if l = 3 then 7 else if l = 12 then b2n (decide (s < 16)) else if l = 13 then b2n (openSource s) else 0
  else if 0x40001840 ≤ a ∧ a < 0x40001858 then (if a < 0x40001850 then 0x200000 else 0x206000)
  else if a = 0x40B00104 ∨ a = 0x40B00204 ∨ a = 0x40B00304 then (if l = 0 then (a - 0x40B00004) / 0x100 else 0)
  else resetLookup resetTable a l

/-- Erased flash reads 0xFF (R302, R310). -/
def dfltFlash (_ : Nat) : Nat := 0xFF

/-- An initial grain-map entry: STATE OK, GAIN 0x800, all else 0 (R93). -/
def dfltGrain (_ : Nat) : Nat := 0x800 * 2 ^ 21

/-- Tables whose unlisted entries read 0. -/
def dfltZero (_ : Nat) : Nat := 0

end Sys2Proof.Machine
end

