-- ==== Sys2Proof/Machine/State.lean ====
section
/-! DEFINITION. The state of the block: registers, stores, queues, engines, pins and the commands that are waiting.
Plain data throughout.  Register fields live in one sparse table (`regs`) keyed by field; what the register tables do not
name stands in the structures below, one per chapter. -/

namespace Sys2Proof.Machine

/-- Why a step stops with a fault.  No meaning of this model raises it; it exists because the interface asks for a reason type. -/
inductive Fault where
  /-- Raised by nothing: every command of the table has an effect in every state (safe). -/
  | none
  deriving DecidableEq, Repr

/-- Why a step is refused. -/
inductive Refusal where
  /-- Raised by an arm of `exec` that has no meaning yet (safe: the run stops there). -/
  | notModelled (mnemonic : String)
  deriving DecidableEq, Repr

/-- The eight modes (Table 2.2, R32). -/
inductive Mode where
  | reset | boot | idle | calibrate | print | maintain | shadow | safe
  deriving DecidableEq, Repr

/-- The MODE code of Table 2.2. -/
def Mode.code : Mode → Nat
  | .reset => 0 | .boot => 1 | .idle => 2 | .calibrate => 3 | .print => 4 | .maintain => 5 | .shadow => 6 | .safe => 7

/-- The mode of a code of Table 2.2. -/
def Mode.ofCode : Nat → Mode
  | 0 => .reset | 1 => .boot | 2 => .idle | 3 => .calibrate | 4 => .print | 5 => .maintain | 6 => .shadow | _ => .safe

/-- Output balls and lines the model reports changes of. -/
inductive Pin where
  | alive | railEn | hvEn | cmpOut | step | dir | drvEn | loadStrobe | speedCeil | pairLiveO | claimGate | linkIdle
  deriving DecidableEq, Repr

/-- What leaves the block, in the order it leaves: the model's own record, newest first in `State.out`. -/
inductive Emit where
  /-- Output `i` of a pin group takes a level or a duty. -/
  | pin (p : Pin) (i v : Nat)
  /-- A Holza-H downstream frame or control block on a port: kind and bytes. -/
  | down (port kind : Nat) (body : List Nat)
  /-- A Holza-H upstream frame sent by a head: kind and bytes. -/
  | up (head kind : Nat) (body : List Nat)
  /-- A Holza-P block or frame: kind and bytes. -/
  | pair (kind : Nat) (body : List Nat)
  /-- A posted write to host memory. -/
  | hostWrite (addr : Nat) (bytes : List Nat)
  /-- A read request to host memory. -/
  | hostRead (addr len : Nat)
  /-- An MSI-X message. -/
  | msix (vec : Nat)
  /-- A UDP mailbox datagram to the session host: kind and bytes after the header. -/
  | udp (kind : Nat) (body : List Nat)
  /-- An AVSBus Vout write: rail select and millivolts. -/
  | avs (rail mv : Nat)
  /-- A core takes an entry point at VBASE + offset. -/
  | coreEntry (core off : Nat)
  /-- A DRAM command on a channel. -/
  | dram (chan kind : Nat)
  /-- A PTP message on an Ethernet port. -/
  | ptp (port kind : Nat)
  deriving DecidableEq, Repr

/-- The always-on domain (R47, R297): what a reset does not clear. -/
structure Aon where
  thermLatch : Bool := false
  /-- BTJ_RSTCAUSE bits [4:0]. -/
  cause : Nat := 1
  /-- How long RESET_N was last held low, ns. -/
  lowNs : Nat := 0
  /-- Power-on cleared BTJ_FAILRUN and no boot has read it since. -/
  failRunClear : Bool := true
  /-- 0 normal, 1 waiting to lower the core rails, 2 core rails at retention (R382). -/
  retention : Nat := 0
  deriving DecidableEq, Repr

/-- Fuses and OTP (R4, R305, R308). -/
structure Fuses where
  part12A : Bool := false
  stepMaj : Nat := 0
  stepMin : Nat := 0
  svnVendor : Nat := 0
  svnCust : Nat := 0
  vendorKeyHash : Nat := 0
  otpKeyHash : Option Nat := none
  deriving DecidableEq, Repr

/-- A journal entry (Table 13.7), without its CRC. -/
structure JEntry where
  type : Nat
  step : Nat
  result : Nat
  way : Nat
  bootNo : Nat
  tus : Nat
  data : Nat
  deriving DecidableEq, Repr

/-- A point of a calibration set (Table 18.6). -/
structure CalPoint where
  temp : Int
  vcore : Nat
  trim : List Nat
  /-- LO then HI of sense DACs 0 to 3. -/
  sense : List Nat
  deriving DecidableEq, Repr

/-- A calibration set (Table 18.6); a part whose flag bit is 0 is `none`. -/
structure CalSet where
  gen : Nat := 0
  points : List (Nat × CalPoint) := []
  rnom : Option (List Nat) := none
  dither : Option (List Nat) := none
  flat : List (Option (List Nat)) := []
  deriving DecidableEq, Repr

/-- The SPI flash (Table 13.3). -/
structure Flash where
  /-- Bytes of the regions that are programmed from outside (configuration record, image slots). -/
  bytes : Cells := []
  /-- Journal entries, oldest first. -/
  journal : List JEntry := []
  /-- Channels that hold a DRAM training result, and the description CRC stored with each (R336). -/
  dramStore : Nat := 0
  dramCrc : List Nat := [0, 0, 0, 0]
  /-- Usage keys: serial and key (R192, R291), at most 64. -/
  usageKeys : List (Nat × Nat) := []
  /-- Failure records, newest first (R370). -/
  failRecords : List (List Nat) := []
  /-- Calibration banks 0 and 1: `none` without a valid commit record and matching CRC (R397). -/
  bank0 : Option CalSet := none
  bank1 : Option CalSet := none
  deriving DecidableEq, Repr

/-- The boot sequencer (R299, R301). -/
structure Boot where
  /-- 0 normal way, 1 alternative way of the step in progress. -/
  way : Nat := 0
  /-- Steps the plan runs in their alternative way. -/
  planAlt : List Nat := []
  /-- Steps the plan gives their final action at once. -/
  planFinal : List Nat := []
  /-- DRAM channels the plan trains from stored values, and those it parts. -/
  dramAlt : Nat := 0
  dramPart : Nat := 0
  /-- Channels whose training has ended well at step 10. -/
  dramDone : Nat := 0
  /-- The plan names the firmware slot not used by the last two boots. -/
  otherSlot : Option Nat := none
  /-- `now` at the release of reset. -/
  t0 : Nat := 0
  /-- Slots tried at step 7 and 9. -/
  fwTried : Nat := 0
  ocTried : Nat := 0
  pcieUp : Bool := false
  flashOk : Bool := false
  coresUp : Bool := false
  journalOk : Bool := false
  /-- Ethernet ports started. -/
  eth : Nat := 0
  ssvid : Nat := 0
  ssid : Nat := 0
  ocEn : Bool := false
  /-- LEN of the open-core image in service (R306, Table 14.1). -/
  ocLen : Nat := 0
  /-- SVN_COMMIT and SVN of the running images. -/
  fwSvn : Option Nat := none
  ocSvn : Option Nat := none
  /-- A CAL_OPEN without CAL_CLOSE was found: its DATA. -/
  calOpen : Option Nat := none
  deriving DecidableEq, Repr

/-- Chuck's working state (chapter 18). -/
structure Chuck where
  slot : Nat := 0
  /-- Raw readings of the 24 on-die sensors, substituted or not. -/
  raw : List Nat := List.replicate 24 0
  /-- Rail sequencing: the rail whose power-good is awaited, 0 when none. -/
  seqRail : Nat := 0
  /-- θ_max of the last 16 rounds, newest first. -/
  hist : List Int := []
  /-- Rounds in a row outside the window, per rail 1–7 and VDD_AON. -/
  railBad : List Nat := List.replicate 8 0
  /-- Rounds in a row beyond the cross-check limit, and within half of it, per sensor. -/
  sensOver : List Nat := List.replicate 24 0
  sensIn : List Nat := List.replicate 24 0
  limitRounds : Nat := 0
  /-- The THERMAL source with its fraction (R393). -/
  thermal : Option Rat := none
  lastInterp : Int := 0
  /-- Shadow codes: trims and sense codes (LO, HI per DAC). -/
  shadowTrim : List Nat := List.replicate 24 2048
  shadowSense : List Nat := [100, 1000, 100, 1000, 100, 1000, 100, 1000]
  loadDue : Bool := false
  /-- Output codes of the sense DACs. -/
  outSense : List Nat := [100, 1000, 100, 1000, 100, 1000, 100, 1000]
  /-- AVSBus: transaction in progress (rail select, mV), failed attempts, waiting targets. -/
  avs : Option (Nat × Nat) := none
  avsTries : Nat := 0
  spWait : Option Nat := none
  coreWait : Option Nat := none
  aliveOn : Bool := false
  aliveLevel : Bool := false
  /-- HV_EN_g outputs. -/
  hvOut : Nat := 0
  /-- Maintenance or sweep request for HV_EN_g, when one holds. -/
  hvReq : Option Nat := none
  /-- The set in force. -/
  cal : CalSet := {}
  calBank : Option Nat := none
  deriving DecidableEq, Repr

/-- A command taken from a slot and not finally completed (R250, R251). -/
structure Cmd where
  ref : SlotRef
  tag : Nat
  op : Nat
  flags : Nat
  vec : Nat
  /-- Order of the take. -/
  order : Nat
  /-- SEQ of the CMD datagram for a virtual slot. -/
  seq : Nat
  /-- A long command that has been accepted and runs on (R257). -/
  running : Bool
  progress : Nat
  /-- Core that executes it (R258). -/
  core : Nat
  /-- Its completion is discarded (R259, R265). -/
  discard : Bool
  /-- What the take notes: the result of IDENTIFY (R273), the host and Ethernet port of a datagram (R265). -/
  atTake : List Nat
  deriving DecidableEq, Repr

/-- A tag-table entry (R239, R251). -/
structure TagRec where
  tag : Nat
  op : Nat
  status : Nat
  detail : Nat
  result : List Nat
  deriving DecidableEq, Repr

/-- The host interface beside its registers (chapter 11). -/
structure Mbx where
  /-- PHASE of the pass through the completion queue in progress. -/
  phase : Bool := true
  /-- Entries dropped since the last LOST event. -/
  lost : Nat := 0
  pcieUp : Bool := false
  perst : Bool := false
  /-- A host-side reset awaits its HOST_RESET event: completions discarded since. -/
  resetPending : Option Nat := none
  /-- Locked virtual slots. -/
  udpLocked : Nat := 0
  cmds : List Cmd := []
  takes : Nat := 0
  /-- Doorbells latched before the vendor firmware runs (R37). -/
  latched : List DoorbellSrc := []
  tags : List TagRec := []
  /-- Running MSI-X gaps: vector and whether a message waits (R254). -/
  gaps : List (Nat × Bool) := []
  /-- Per virtual slot: SEQ of the last command and its CPL when sent. -/
  udpLast : List (Nat × Nat × Option (List Nat)) := []
  evtSeq : Nat := 0
  icplSeq : Nat := 0
  sessions : Nat := 0
  deriving DecidableEq, Repr

/-- A parted unit (R365–R367). -/
structure PartedUnit where
  src : Nat
  unit : Nat
  cause : Nat
  /-- Its error line is still asserted. -/
  asserted : Bool
  held : Bool
  deriving DecidableEq, Repr

/-- A snapshot bank (Table 17.5). -/
structure Bank where
  complete : Bool := false
  gen : Nat := 0
  line : Nat := 0
  time : Nat := 0
  seq : Nat := 0
  claim : Nat := 0
  modeWord : Nat := 0
  status : Nat := 0
  drainFlag : Bool := false
  takeover : Bool := false
  /-- Register fields frozen at the boundary. -/
  image : Cells := []
  /-- Drop totals and saturated nozzles. -/
  drops : Cells := []
  sat : Cells := []
  deriving DecidableEq, Repr

/-- The fault collector and the counter block beside their registers (chapter 17). -/
structure Acct where
  parted : List PartedUnit := []
  /-- Restorations: source and time. -/
  restored : List (Nat × Nat) := []
  bank0 : Bank := {}
  bank1 : Bank := {}
  /-- Bank being written, with the TAKEOVER flag. -/
  busy : Option Nat := none
  /-- A snapshot is requested: none, next boundary, or a line. -/
  snapAt : Option (Option Nat) := none
  snapTakeover : Bool := false
  /-- Live drop counters and accumulators per nozzle. -/
  drops : Cells := []
  accum : Cells := []
  failSeq : Nat := 0
  /-- GEN of the last snapshot started (R375). -/
  snapGen : Nat := 0
  deriving DecidableEq, Repr

/-- The interrupt controller beside its registers (chapter 14). -/
structure Hic where
  /-- Sources whose redirect timer runs. -/
  redirect : List Nat := []
  /-- Accepted levels of EXT_IRQ0–15. -/
  extLevel : Nat := 0
  /-- Filter counts of EXT_IRQ0–15. -/
  extCount : List Nat := List.replicate 16 0
  deriving DecidableEq, Repr

/-- A job definition (R274). -/
structure JobDef where
  num : Nat
  continuous : Bool
  lastBand : Nat
  period : Nat
  gapLen : Nat
  ranges : List (Nat × Nat)
  deriving DecidableEq, Repr

/-- A defined job: definition, reference band (R443), whether a descriptor of it was accepted, and whether an abort has
closed it to descriptors until it is started or defined again (R60). -/
structure Job where
  d : JobDef
  refBand : Nat
  accepted : Bool
  closed : Bool
  deriving DecidableEq, Repr

/-- Staging of a billet from DRAM (R16, Table 1.8). -/
inductive Staging where
  | no | requested | arrived
  deriving DecidableEq, Repr

/-- A billet of the store index (R56–R59, R67). -/
structure Billet where
  job : Nat
  col : Nat
  band : Nat
  zero : Bool
  /-- Stored bytes, header first. -/
  bytes : List Nat
  consumed : Bool
  poisoned : Bool
  staging : Staging
  /-- Stagings that have failed. -/
  fails : Nat
  /-- DRAM unit address it was stored at (R340). -/
  addr : Nat
  deriving DecidableEq, Repr

/-- A descriptor taken and not yet completed (R54, R68). -/
structure Flight where
  /-- Order of the take. -/
  id : Nat
  ring : Nat
  udp : Bool
  addr : Nat
  len : Nat
  flags : Nat
  col : Nat
  job : Nat
  band : Nat
  cookie : Nat
  /-- 0 host read, 1 waiting for a compressor, 2 in a compressor, 3 ended, 4 to be appended to the pair log, 5 appended
  and not acknowledged (R224). -/
  phase : Nat
  /-- End offset of its BILLET record in the log stream. -/
  logEnd : Nat
  /-- Bytes read, then the stored form. -/
  bytes : List Nat
  status : Nat
  store : Nat
  slen : Nat
  /-- Its job was aborted (R60). -/
  noJob : Bool
  /-- No completion record is written: a host-side reset has cleared its ring (R259). -/
  quiet : Bool
  deriving DecidableEq, Repr

/-- A tile in a port's tile buffers (R16). -/
structure Tile where
  col : Nat
  band : Nat
  /-- Lines available. -/
  written : Nat
  bytes : List Nat
  /-- Words of 64 nozzles that print code 0: line · 16 + word (Table 1.8). -/
  bad : List Nat
  deriving DecidableEq, Repr

/-- A decompressor at work (R87): tile, bytes the stream decodes to, whether it decodes to a whole tile, lines written. -/
structure DecJob where
  col : Nat
  band : Nat
  bytes : List Nat
  whole : Bool
  written : Nat
  deriving DecidableEq, Repr

/-- A compressor's work (R81–R85): a flight by its order of take, or a piece of a capture; with the DEPTH it started with. -/
inductive CmpJob where
  | flight (id depth : Nat)
  | capture (cam piece depth : Nat)
  deriving DecidableEq, Repr

/-- A billet being assembled from BIL datagrams (R266). -/
structure BilAsm where
  host : Nat
  desc : List Nat
  len : Nat
  /-- First byte and bytes of each piece. -/
  parts : List (Nat × List Nat)
  t : Nat
  deriving DecidableEq, Repr

/-- Ingest and job store (chapters 3 and 4). -/
structure Store where
  cur : Option Job := none
  next : Option Job := none
  planes : Nat := 1
  planeOf : List Nat := List.replicate 24 0xFF
  billets : List Billet := []
  flights : List Flight := []
  flightNo : Nat := 0
  lastRing : Nat := 3
  /-- PHASE and write index of each completion ring. -/
  cqPhase : List Bool := [true, true, true, true]
  cqIndex : List Nat := [0, 0, 0, 0]
  /-- Next unit the store writes to (the model's own bump pointer, DRAM unit address). -/
  alloc : Nat := 0
  dec : List (Option DecJob) := List.replicate 32 none
  /-- Tiles under a second attempt: column, band, first decompressor (R89). -/
  retry : List (Nat × Nat × Nat) := []
  cmp : List (Option CmpJob) := List.replicate 4 none
  cmpWait : List CmpJob := []
  /-- Verify mismatches: compressor and tick (R84). -/
  cmpFail : List (Nat × Nat) := []
  bils : List BilAsm := []
  deriving DecidableEq, Repr

/-- A line of a port's queue: started, not handed off (R104, R105). -/
structure QLine where
  line : Nat
  /-- Logical lanes that have rendered their part. -/
  done : Nat
  /-- Raw codes of the tile columns (0–7) rendered so far. -/
  rows : List (Nat × List Nat)
  complete : Bool
  mapTag : Nat
  skewTag : Nat
  cls : Nat
  codes : List Nat
  uncovered : Bool
  deriving DecidableEq, Repr

/-- A port-line taken at hand-off or blank from it, not yet at its boundary (R18). -/
structure CLine where
  line : Nat
  seq : Nat
  cls : Nat
  band : Nat
  codes : List Nat
  /-- No render was handed off: the blank cause of R377 (1 PARTED, 3 OUT, 4 RENDER); 2 handed off, then parted; 0 none. -/
  blank : Nat
  withheld : Bool
  /-- Nozzles whose resistance its frame requests (R158). -/
  res : List Nat
  deriving DecidableEq, Repr

/-- A grain-map record of a commit (Table 5.4). -/
structure GRec where
  nozzle : Nat
  fmask : Nat
  value : Nat
  deriving DecidableEq, Repr

/-- A change that is not yet in force (R21, R155). -/
inductive ChangeKind where
  | commit (recs : List GRec)
  /-- Verdict of source 0 resistance, 1 camera (R98, R159). -/
  | verdict (nozzle state source : Nat)
  | skew (p off : Nat)
  | cls (c : Nat)
  deriving DecidableEq, Repr

structure Change where
  /-- First fire line it affects. -/
  line : Nat
  kind : ChangeKind
  deriving DecidableEq, Repr

/-- A pulse of a waveform (R145). -/
structure Pulse where
  start : Nat
  width : Nat
  deriving DecidableEq, Repr

/-- A class's tables as loaded (R149): phase offset, 32 trim entries, 48 pulses (band, size, pulse). -/
structure ClassTab where
  off : Nat
  trim : List Nat
  wf : List Pulse
  deriving DecidableEq, Repr

/-- The path of one head port. -/
structure Port where
  tiles : List Tile := []
  queue : List QLine := []
  committed : List CLine := []
  mapTag : Nat := 0
  /-- Offsets by first fire line, newest first (R15, R42). -/
  offs : List (Nat × Nat) := []
  /-- Lines rendered with late tiles: line and mask of tile columns (R65). -/
  late : List (Nat × Nat) := []
  /-- Lines counted in BLT_LATE_p and in BLT_POISONL_p, not yet handed off. -/
  lateCnt : List Nat := []
  poisCnt : List Nat := []
  /-- 1 + the greatest page line hand-off has passed. -/
  passed : Nat := 0
  /-- The page line last handed off. -/
  handPl : Option Nat := none
  /-- The classes in force are loaded and the trim table sent since the last training (R150, Table 17.1). -/
  loaded : Bool := false
  /-- First line handed off again after a restoration (R365). -/
  resume : Nat := 0
  /-- Start of phase 0 and class of the last line fired with data (R151). -/
  fired : Option (Nat × Nat) := none
  /-- A band decision not yet in force: first line and band (R155). -/
  bandPend : Option (Nat × Nat) := none
  /-- Resistance cursor; port-lines handed off; per nozzle 1 + the number handed off before its last non-zero code (R158). -/
  cursor : Nat := 0
  handNo : Nat := 0
  nonzero : Cells := []
  /-- Out-of-window readings held: nozzle and 1 + fire line (R159). -/
  resHeld : Cells := []
  /-- Boundaries without a temperature report (R162). -/
  noTemp : Nat := 0
  /-- Requests whose readings are due: line and nozzles. -/
  resDue : List (Nat × List Nat) := []
  deriving DecidableEq, Repr

/-- What a logical lane is rendering: line and ports (R105). -/
structure LaneItem where
  line : Nat
  ports : List Nat
  deriving DecidableEq, Repr

/-- Line production: job run, Spindle, grain map, firing (chapters 1, 2, 5, 7). -/
structure Path where
  /-- Line triggering is armed. -/
  armed : Bool := false
  startBand : Nat := 0
  /-- Next fire line: its boundary has not come. -/
  next : Nat := 0
  /-- Next line to be handed off. -/
  handed : Nat := 0
  /-- Last fire line of a stop, and the mode-event cause of its end (R40, R132). -/
  stop : Option Nat := none
  stopCause : Nat := 0
  /-- Uncommitted lines of the stop were discarded; no render starts. -/
  closed : Bool := false
  /-- E may not move before this line (R64). -/
  endFloor : Nat := 0
  lastFired : Option Nat := none
  /-- The last run ended by an abort (R276). -/
  aborted : Bool := false
  ports : List Port := List.replicate 24 {}
  lanes : List (Option LaneItem) := List.replicate 32 none
  changes : List Change := []
  gmap : Cells := []
  parkWords : List Nat := []
  /-- Classes by first fire line, newest first. -/
  clsAt : List (Nat × Nat) := [(0, 0)]
  /-- The latest class decision since job start: class, first line, whether it is in force (R153, R154). -/
  decision : Option (Nat × Nat × Bool) := none
  normRun : Nat := 0
  /-- Class tables brought into force (R150). -/
  tab : List (Option ClassTab) := [none, none]
  /-- Steps the shadows of the two spares have made, and lines since they moved (R110). -/
  shadowPos : List Nat := [0, 0]
  shadowLines : Nat := 0
  /-- Known-answer tests due: physical lanes; lanes of a demand of SPN_KAT.RUN; lines since the last periodic test, its turn. -/
  katDue : Nat := 0
  katRun : Nat := 0
  katLines : Nat := 0
  katTurn : Nat := 0
  /-- Shadow mismatches awaiting both tests: logical lane, serving lane, spare; and lanes waiting to be replaced (R112). -/
  misWait : List (Nat × Nat × Nat) := []
  misCmp : List (Nat × Nat) := []
  misDisc : Nat := 0
  /-- Parted physical lanes that have passed the known-answer test since (R114). -/
  katOk : Nat := 0
  /-- Lane times of lines not yet handed off: line, whether its margin has been judged (1), greatest τ (R108). -/
  tau : List (Nat × Nat × Nat) := []
  lowRun : Nat := 0
  highRun : Nat := 0
  /-- Lines since the last step's acknowledgement (R109). -/
  sinceStep : Nat := 64
  /-- Lines from the test or spit pattern source instead of a job (R100, R126): code fired by every nozzle that fires, or 0 for
  a resistance sweep, first line and end of the present pattern. -/
  test : Option (Nat × Nat × Nat) := none
  deriving DecidableEq, Repr

/-- One DRAM channel beside its registers (R343–R347). -/
structure DrcChan where
  /-- ALERT_n is low, since when; attempt in progress and tick of the last replay. -/
  low : Bool := false
  fallT : Nat := 0
  attempt : Nat := 0
  replayT : Nat := 0
  /-- Retry buffer: kind and tick of the last 64 commands, newest first. -/
  cmds : List (Nat × Nat) := []
  /-- Ticks of uncorrectable words within the last second. -/
  ues : List Nat := []
  /-- The scrubber has reached the end of the channel in this pass. -/
  scrubbed : Bool := false
  deriving DecidableEq, Repr

/-- The DRAM controller beside its registers (chapter 15). -/
structure Drc where
  /-- ch[] and G of the present layout (R339). -/
  layout : List Nat := []
  grain : Nat := 4
  maskMax : Nat := 16
  chans : List DrcChan := List.replicate 4 {}
  deriving DecidableEq, Repr

/-- Network time (chapter 16). -/
structure Tmb where
  /-- Per Ethernet port: state of clause 9.2 (0 LISTENING, 1 SLAVE, 2 MASTER, 3 PASSIVE) and the qualified master heard. -/
  ports : List Nat := [0, 0]
  heard : List (Option PtpAnnounce) := [none, none]
  /-- Mean path delay per port, 1/16 ns, once measured. -/
  delay : List (Option Int) := [none, none]
  gm : Option (List Nat) := none
  /-- Offsets of the acquisition, newest first, 2⁻¹⁶ ns; at most four. -/
  offs : List Int := []
  /-- The mean of step 2 has been formed in this acquisition. -/
  meanDone : Bool := false
  /-- Consecutive offsets within LOCK_NS, and above 1 ms. -/
  inLock : Nat := 0
  large : Nat := 0
  /-- TMB_RATE of the last 16 Sync intervals, newest first. -/
  rates : List Int := []
  /-- PTP time has been acquired: PTP nanoseconds / 2⁴⁰ (R350). -/
  epoch : Option Nat := none
  deriving DecidableEq, Repr

/-- One encoder channel beside its registers (R119–R125). -/
structure EncCh where
  /-- Furthest point in the present direction, and run of R124. -/
  ext : Nat := 0
  run : Nat := 0
  /-- Stamp of the last count the run includes, and of the last count of any kind. -/
  tRun : Nat := 0
  tAny : Option Nat := none
  /-- Intervals of the run, newest first, at most 64, in ticks. -/
  ivals : List Rat := []
  /-- Single-tooth intervals in the present direction, newest first, at most 8 (R121). -/
  teeth : List Rat := []
  /-- Stamp of an edge held as a possible extra tooth: stamp and interval before it (R121). -/
  held : Option (Nat × Rat) := none
  /-- Position and direction of the last reference mark (R122). -/
  mark : Option (Nat × Bool) := none
  deriving DecidableEq, Repr

/-- A line that has triggered and whose boundary has not come: line, earliest boundary instant, backlog line (R127–R129). -/
structure Due where
  line : Nat
  at_ : Nat
  backlog : Bool
  deriving DecidableEq, Repr

/-- Line triggering, cross-check and speed ceiling (R126–R136). -/
structure LineT where
  /-- Next line index to trigger; instant scheduled for it inside the next count. -/
  trig : Nat := 0
  sched : Option Nat := none
  /-- Lines below it trigger at counts only: their instants were withdrawn (R127). -/
  counted : Nat := 0
  /-- ORIGIN resolved for this arming, first line and pitch (1/65,536 tick) it governs (R126, R133). -/
  origin : Option Nat := none
  base : Nat := 0
  pitch : Nat := 2 ^ 32
  due : List Due := []
  /-- Instant of the last boundary, of this arming. -/
  lastB : Option Nat := none
  /-- Recorded line periods: line and ENC_LINE_T, newest first, at most 64 (R130). -/
  hist : List (Nat × Nat) := []
  /-- Cross-check window: counts of ENC0, ΔENC0 and ΔENC1 in counts, ENC0 in error (R131, R132); and the window that has ended. -/
  wn : Nat := 0
  w0 : Int := 0
  w1 : Int := 0
  wbad : Bool := false
  wdone : Option (Int × Int × Bool) := none
  /-- Counts of ENC1 since the last count of ENC0. -/
  silent : Nat := 0
  /-- Lines without an over-speed blank since the last, while the OVERSPEED source is active (Table 6.4). -/
  speeding : Option Nat := none
  /-- Sources and ceiling of the last speed-ceiling event, and tick of the last one posted for a rise (R136). -/
  posted : Nat × Nat := (0, 0xFFFFFF)
  riseT : Option Nat := none
  deriving DecidableEq, Repr

/-- A compare output beside its registers (R137–R139). -/
structure CmpOut where
  armed : Bool := false
  /-- Instant at which the position reaches or reached the armed entry, and whether it has been reached. -/
  reach : Option Nat := none
  hard : Bool := false
  /-- The armed entry fires late, at once (R138). -/
  late : Bool := false
  /-- Its instant inside a count was withdrawn: a later count must reach it (R127). -/
  counted : Bool := false
  /-- Pulses whose end has not come. -/
  pulses : Nat := 0
  deriving DecidableEq, Repr

/-- A WAVE or CMD frame of a port's command queue (R172–R175, R185). -/
structure LinkFrame where
  cseq : Nat
  /-- 3 WAVE, 4 CMD. -/
  ftype : Nat
  /-- Table 8.4; 0 for WAVE. -/
  op : Nat
  /-- Data bytes after the header word. -/
  body : List Nat
  sent : Bool
  /-- What it belongs to: 1 a WAVE_LOAD, 2 a reload, 3 FLUSH, 4 MEM_READ, 5 usage. -/
  owner : Nat
  deriving DecidableEq, Repr

/-- A head port's link beside its registers (chapter 8). -/
structure Link where
  cseq : Nat := 0
  creturn : Nat := 0
  queue : List LinkFrame := []
  /-- TRIM frames that wait: first SEQ and records (R171). -/
  trims : List (Nat × List (Nat × Nat)) := []
  /-- Trim records sent whose line has not fired: SEQ and number (R171). -/
  trimOut : List (Nat × Nat) := []
  /-- It has trained before. -/
  trained : Bool := false
  /-- Downstream lanes the stream uses (R167). -/
  mask : Nat := 3
  /-- STATs in a row with both lanes locked, tick of the last return, the dropped lane stays dropped (R191). -/
  both : Nat := 0
  backT : Option Nat := none
  sticky : Bool := false
  /-- Ticks of reported frame errors within 1 ms (R187). -/
  errT : List Nat := []
  /-- Resistance rank (R157). -/
  rank : Nat := 0
  /-- Classes still to be reloaded, the first in progress; its stage: 0 to be sent, 1 WAVE sent, 2 WAVE_COMMIT sent (R150). -/
  reload : List Nat := []
  stage : Nat := 0
  /-- Usage operation outstanding: OP, nonce, whether it is the one repeat (R193). -/
  usage : Option (Nat × Nat × Bool) := none
  deriving DecidableEq, Repr

/-- A WAVE_LOAD that runs (R149, R172, R280). -/
structure WaveLoad where
  cls : Nat
  tab : ClassTab
  /-- Waiting for the answers to WAVE_COMMIT. -/
  committing : Bool
  sent : Nat
  ok : Nat
  refused : Nat
  done : Nat
  deriving DecidableEq, Repr

/-- A line slot of a head (R180). -/
structure HeadSlot where
  seq : Nat
  damaged : Bool
  cls : Nat
  band : Nat
  /-- Line packet bytes, uncorrectable words as 0. -/
  packet : List Nat
  res : List Nat
  deriving DecidableEq, Repr

/-- A marker held for an open decision (R181). -/
structure HeadMark where
  input : Nat
  blank : Bool
  delay : Nat
  deriving DecidableEq, Repr

/-- One input of a head (R179, R183, R185, R186). -/
structure HeadIn where
  /-- CL_i, none before its first valid header. -/
  claim : Option Nat := none
  creturn : Nat := 0
  /-- ERR bits since the last STAT. -/
  err : Nat := 0
  /-- Staged trim records: SEQ, nozzle, class. -/
  trims : List (Nat × Nat × Nat) := []
  deriving DecidableEq, Repr

/-- A head as receiver of Holza-H (R178–R186). -/
structure Head where
  high : Nat := 0
  /-- F, none after a reset or FLUSH. -/
  fired : Option Nat := none
  slots : List HeadSlot := []
  /-- Open decisions, oldest first: SEQ and the eligible markers that have arrived. -/
  marks : List (Nat × List HeadMark) := []
  ins : List HeadIn := [{}, {}]
  /-- Trim classes in force, by nozzle. -/
  trim : Cells := []
  /-- Class tables in force and staged (R172). -/
  tabs : List (Option (List Nat)) := [none, none]
  staged : List (Option (List Nat)) := [none, none]
  usage : Nat := 0
  /-- Lines whose rows are still delayed: SEQ of the line (R184). -/
  delayed : List Nat := []
  /-- OUTCOME and SEQ of the last decision. -/
  outcome : Nat := 7
  deriving DecidableEq, Repr

/-- A move, stop or homing as commanded (R285, R405–R409), after defaults and clamps. -/
inductive AxReq where
  | move (tgt : Int) (speed acc dec : Rat)
  | stop (hard : Bool)
  | home (up : Bool) (speed : Rat) (backoff : Nat)
  | group (mask : Nat) (tgts : List Int) (speed acc dec : Rat)
  deriving DecidableEq, Repr

/-- What an axis is doing (MOT_AXn_STAT.STATE with its particulars). -/
inductive AxRun where
  | rest
  | move
  | stop (dec : Rat)
  | home (up : Bool)
  /-- The 32 µs between the homing stall and the back-off. -/
  | homeWait
  | back
  /-- A member of an interpolation group other than its leader (R408). -/
  | follow (leader : Nat)
  deriving DecidableEq, Repr

/-- One stepper axis beside its registers (chapter 19): microsteps and microsteps per second, exact (R405). -/
structure Axis where
  run : AxRun := .rest
  pos : Rat := 0
  vel : Rat := 0
  goal : Int := 0
  speed : Rat := 0
  acc : Rat := 0
  dec : Rat := 0
  /-- Deceleration toward the target has begun; a_need while it is held; DEC_MAX past the target (R405, R407). -/
  braking : Bool := false
  held : Option Rat := none
  overrun : Bool := false
  /-- A target that needs a reversal, taken once the axis is at rest (Table 19.1). -/
  next : Option (Int × Rat × Rat × Rat) := none
  /-- Group: start and distance, and the ratio its values were scaled by (R408). -/
  start : Int := 0
  delta : Int := 0
  ratio : Rat := 1
  /-- Profile ticks at or above STALL_MIN (R409). -/
  fast : Nat := 0
  homeFrom : Int := 0
  homeUp : Bool := false
  backoff : Nat := 0
  rebase : Bool := false
  /-- Leader of a group; a homing that found no stall comes to rest; DRVENn falls once it is at rest (R408–R410). -/
  grp : Bool := false
  noStall : Bool := false
  drvOff : Bool := false
  /-- Commands of a pair that wait for their START (R416). -/
  wait : List (Nat × AxReq) := []
  deriving DecidableEq, Repr

/-- A maintenance step (Table 12.3). -/
structure MaintStep where
  op : Nat
  a8 : Nat
  a32 : Nat
  deriving DecidableEq, Repr

/-- Maintenance sequences and the one that runs (R283, R284). -/
structure Maint where
  seqs : List (Nat × List MaintStep) := []
  /-- Steps left of the running sequence, the one in progress first, and its number from 0. -/
  run : Option (List MaintStep) := none
  step : Nat := 0
  /-- The sequence ends with this status and DETAIL of MAINT_START once its axes are at rest. -/
  ending : Option (Nat × Nat) := none
  /-- Cameras the sequence enables (Table 9.2). -/
  cams : Nat := 0
  /-- Axes of the running sequence. -/
  axes : Nat := 0
  deriving DecidableEq, Repr

/-- A calibration run (R281, R401). -/
structure CalRun where
  sweeps : Nat
  point : Nat
  cams : Nat
  /-- Sweep bit and step in progress, and the port, DAC or camera it is at. -/
  bit_ : Nat
  step : Nat
  at_ : Nat
  /-- The set under construction, and the trims and sense codes of the point. -/
  set : CalSet
  trim : List Nat
  sense : List Nat
  theta : Int
  /-- Values kept between steps: V1 and V2 in mV, or sums of 256 frames per pixel. -/
  v1 : List Nat
  v2 : List Nat
  /-- Baseline readings by rank: rank and 0.01 Ω (R401). -/
  reads : List (Nat × Nat)
  /-- The registers at the start, from which parts that are not swept are taken (R401). -/
  regs0 : Cells
  committing : Bool
  /-- A CAL_ABORT waits for the commit write (R282). -/
  abort : Bool
  deriving DecidableEq, Repr

/-- One image line as the pipeline keeps it (R197, R201, R202). -/
structure CamRow where
  /-- Line coordinate c in 1/64 line. -/
  c : Int
  /-- 12-bit values. -/
  raw : List Nat
  /-- Darkness 255 − v. -/
  dark : List Nat
  /-- Line flags of R212: bit 0 padded, 1 CRC_ERR, 2 SHORT_LINE, 3 LONG_LINE. -/
  flags : Nat
  /-- Pixels from here on are padding. -/
  used : Nat
  time : Nat
  deriving DecidableEq, Repr

/-- A camera frame in progress (R196, R199, Table 9.4). -/
structure CamFrame where
  num : Nat
  time : Nat
  pos : Nat
  width : Nat
  height : Nat
  /-- Line source position for area frames (R202). -/
  base : Nat
  /-- Oldest first. -/
  rows : List CamRow
  flags : Nat
  scores : Nat
  low : Nat
  verds : Nat
  /-- Density sums: tile column, sum, samples. -/
  dens : List (Nat × Nat × Nat)
  /-- Processed by the partner, whole, at its end (R199); its end has come. -/
  shared : Bool
  ended : Bool
  /-- Dropped whole (R199). -/
  dropped : Bool
  deriving DecidableEq, Repr

/-- A scoring window of a head port on a pipeline (R206). -/
structure CamWin where
  p : Nat
  m : Nat
  hits : Cells
  dark : Cells
  deriving DecidableEq, Repr

/-- A capture whose pieces are being compressed (R212): header, line flags, pieces in order with their stored forms. -/
structure CamCap where
  head : List Nat
  lines : List Nat
  pieces : List (List Nat × Option (List Nat))
  deriving DecidableEq, Repr

/-- A camera port and its pipeline (chapter 9). -/
structure CamPort where
  frame : Option CamFrame := none
  /-- The frame in progress is the next to be captured; the capture in hand. -/
  wanted : Bool := false
  /-- RAWMODE as the last accepted request took it. -/
  capRaw : Bool := false
  cap : Option CamCap := none
  wins : List CamWin := []
  /-- Runs: nozzle and 1 + first line (R207). -/
  runs : Cells := []
  /-- Rows kept for registration, newest first, and consecutive misses (R205). -/
  rows : List CamRow := []
  misses : Nat := 0
  deriving DecidableEq, Repr

/-- A line of the mask ring (R204): line and, per port, the nozzles fired as one number. -/
structure MaskLine where
  line : Nat
  ports : List (Nat × Nat)
  deriving DecidableEq, Repr

/-- Inspection (chapter 9). -/
structure Cam where
  ports : List CamPort := List.replicate 4 {}
  /-- Newest first. -/
  masks : List MaskLine := []
  /-- Whole frames in shared mode, in order of frame start: port and frame (R199). -/
  slots : List (Nat × CamFrame) := []
  /-- PHASE of the statistics ring. -/
  phase : Bool := true
  deriving DecidableEq, Repr

/-- A record of the input log (R220). -/
structure LogRec where
  rtype : Nat
  gend : Bool
  /-- Boundary it comes into force at; none on arrival. -/
  eff : Option Nat
  src : Nat
  gseq : Nat
  body : List Nat
  deriving DecidableEq, Repr

/-- An OCRC frame's content (R226). -/
structure Ocrc where
  line : Nat
  div : Nat
  parted : Nat
  crcs : List Nat
  deriving DecidableEq, Repr

/-- What a member does at a log step (R222). -/
inductive LogStep where
  | switchover
  | align
  deriving DecidableEq, Repr

/-- Pair operation (chapter 10). -/
structure Pair where
  /-- The input log is open on this primary (R224). -/
  logOpen : Bool := false
  /-- Lanes of the pair link in use. -/
  lanes : Nat := 0
  /-- Link training state: 0 down, 1 LOCK, 2 DESKEW, 3 IDENT, 4 UP (R218); lanes that are retrained alone. -/
  state : Nat := 0
  laneReady : Nat := 0
  /-- Body of the partner's last IDENT frame. -/
  ident : Option (List Nat) := none
  /-- HBCNT of the last HB sent; last boundary's POS40; level of PAIR_LIVE_O. -/
  hbCnt : Nat := 0
  posB : Nat := 0
  liveO : Bool := false
  /-- Last HB received, its tick, and the last valid STATE body that goes with it (R230). -/
  peerHb : Option (List Nat) := none
  peerT : Option Nat := none
  peerState : Option (List Nat) := none
  /-- Level of PAIR_LIVE_I and the tick of its last change. -/
  liveI : Bool := false
  liveT : Option Nat := none
  /-- Own POS40 at recent boundaries: line and position (R225). -/
  posAt : List (Nat × Nat) := []
  encBad : Nat := 0
  /-- Records appended and not acknowledged: end offset and bytes; next group number (R217, R224). -/
  buf : List (Nat × List Nat) := []
  gseq : Nat := 0
  /-- Records of the group the primary is forming (R221). -/
  part : List LogRec := []
  /-- Stream bytes received that form no whole record; records of the group in progress; records that wait for their
  boundary (R221). -/
  rx : List Nat := []
  group : List LogRec := []
  due : List LogRec := []
  /-- Log steps awaited: end offset and what follows (R222). -/
  steps : List (Nat × LogStep) := []
  /-- Host groups held up by a step. -/
  hold : Bool := false
  /-- OCRC frames sent and received, newest first; unresolved mismatches; a mismatch awaits the lane tests (R226, R227). -/
  mine : List Ocrc := []
  theirs : List Ocrc := []
  unres : List Nat := []
  judging : Bool := false
  /-- DIV masks by line; port-lines whose LINE frame is held back (R228). -/
  div : List (Nat × Nat) := []
  held : List (Nat × Nat) := []
  /-- Join in progress: 0 none, 1 HELLO, 2 OPEN, 3 COPY, 4 ALIGN, 5 VERIFY; lines compared; boundary J and SEQ (R241). -/
  join : Nat := 0
  verified : Nat := 0
  alignAt : Option (Nat × Nat) := none
  /-- Bytes of COPY received and to come. -/
  copied : Nat := 0
  copyAll : Nat := 0
  /-- Position in ALIGN: 0 not aligned, 1 coarsely, waiting for a reference mark, 2 aligned (R243). -/
  aligned : Nat := 0
  /-- RSYNC items and records that wait for the end of the copy, by offset; bytes of an item not yet whole (R242). -/
  chunk : List Nat := []
  items : List (Nat × List Nat) := []
  /-- Boundary of a planned switchover (R45). -/
  switchAt : Option Nat := none
  /-- Leaves synchronisation; frames and markers stop at its next boundary (R244). -/
  quiet : Bool := false
  /-- SYNCED is set at the next boundary (R244). -/
  syncDue : Bool := false
  /-- The new primary's snapshot and mode event are due at its next boundary (R232). -/
  takeDue : Bool := false
  deriving DecidableEq, Repr

/-- The whole block. -/
structure State where
  regs : Cells := []
  mode : Mode := .boot
  prev : Mode := .reset
  follow : Mode := .reset
  trans : Bool := false
  primary : Bool := true
  synced : Bool := false
  safeCause : Nat := 0xFF
  modeT : Nat := 0
  /-- Ticks of 0.625 ns since power-on: the model's own clock of the fire grid. -/
  now : Nat := 0
  time40 : Nat := 0
  /-- Sub-nanosecond accumulator of TIME40, units of 2⁻⁴³ ns (R349). -/
  subNs : Nat := 0
  aon : Aon := {}
  fuse : Fuses := {}
  flash : Flash := {}
  boot : Boot := {}
  chuck : Chuck := {}
  mbx : Mbx := {}
  acct : Acct := {}
  hic : Hic := {}
  store : Store := {}
  path : Path := {}
  tmb : Tmb := {}
  drc : Drc := {}
  pair : Pair := {}
  links : List Link := List.replicate 24 {}
  load : Option WaveLoad := none
  heads : List Head := List.replicate 24 {}
  axes : List Axis := List.replicate 8 {}
  maint : Maint := {}
  calRun : Option CalRun := none
  cam : Cam := {}
  enc : List EncCh := [{}, {}]
  line : LineT := {}
  cmp : List CmpOut := List.replicate 8 {}
  /-- The next free value (log entry 3): the model's own counter. -/
  freeCtr : Nat := 0
  /-- What has left the block, newest first: the model's own record. -/
  out : List Emit := []
  /-- Commands that are waiting, first in first out. -/
  pending : List Instr := []
  deriving DecidableEq, Repr

/-- The block right after power-on reset: BOOT, step 1 (R31, R38, Table 13.11), GY8-24A fuses (log entry 2). -/
def State.reset : State := {}

end Sys2Proof.Machine
end

