-- ==== Sys2Proof/Machine/Ops.lean ====
section
/-! DEFINITION. The named operations every chapter uses: register fields, words of the buffers, output, free values,
and the two ways an event reaches the machine. -/

namespace Sys2Proof.Machine

/-- What a meaning answers. -/
abbrev Outc := Host.Outcome State Fault Refusal

/-- The value of a register field: never beyond its width. -/
def State.get (s : State) (f : Fld) : Nat := Cells.look dfltReg s.regs f.key % 2 ^ f.width

/-- A register field set to a value, reduced to its width. -/
def State.put (s : State) (f : Fld) (v : Nat) : State :=
  { s with regs := Cells.store dfltReg s.regs f.key (v % 2 ^ f.width) }

/-- A one-bit field as a Bool. -/
def State.flag (s : State) (f : Fld) : Bool := s.get f == 1

/-- A counter that wraps at its width (R371). -/
def State.count (s : State) (f : Fld) (n : Nat := 1) : State := s.put f (s.get f + n)

/-- A counter that saturates at its width (R371). -/
def State.bump (s : State) (f : Fld) (n : Nat := 1) : State := s.put f (min (s.get f + n) (2 ^ f.width - 1))

/-- A mask field with bit i set. -/
def State.setIn (s : State) (f : Fld) (i : Nat) : State := s.put f (setBit (s.get f) i)

/-- A mask field with bit i cleared. -/
def State.clrIn (s : State) (f : Fld) (i : Nat) : State := s.put f (clrBit (s.get f) i)

/-- Bit i of a mask field. -/
def State.bitIn (s : State) (f : Fld) (i : Nat) : Bool := bit (s.get f) i

/-- The 32-bit word of a buffer window as a field. -/
def wordFld (a : Nat) : Fld := ⟨a, 0, 32⟩

/-- `n` bytes of a word-organised window from a word-aligned address (R10). -/
def State.bytesAt (s : State) (a n : Nat) : List Nat :=
  ((List.range (ceilDiv n 4)).flatMap (fun i => toBytes 4 (s.get (wordFld (a + 4 * i))))).take n

/-- Bytes written to a word-organised window from a word-aligned address; the last word keeps its upper bytes. -/
def State.putBytes (s : State) (a : Nat) (b : List Nat) : State :=
  (List.range (ceilDiv b.length 4)).foldl (fun s i =>
    let f := wordFld (a + 4 * i)
    let new := (b.drop (4 * i)).take 4
    s.put f (ofBytes (new ++ (toBytes 4 (s.get f)).drop new.length))) s

/-- Something leaves the block. -/
def State.emit (s : State) (e : Emit) : State := { s with out := e :: s.out }

/-- The next free value, `w` bits wide (log entry 3). -/
def State.freeVal (s : State) (w : Nat) : Nat := Config.freeValue s.freeCtr % 2 ^ w

/-- The state after a free value has been taken. -/
def State.took (s : State) : State := { s with freeCtr := s.freeCtr + 1 }

/-- The core logic runs: not in RESET, not in the latched thermal sub-state (R47, Table 2.3). -/
def State.running (s : State) : Bool := !s.aon.thermLatch && s.mode != .reset

/-- An event outside the always-on domain: without effect where nothing but that domain runs, and never a change of it
(R47, R297), nor of the queue of waiting commands, which is no part of the block. -/
def coreEvent (s : State) (k : State → State) : Outc :=
  if s.running then .next { k s with aon := s.aon, pending := s.pending } else .next s

/-- An event of the always-on domain outside RESET's hold on it: Chuck works in every mode (chapter 18). -/
def aonEvent (s : State) (k : State → State) : Outc := .next { k s with pending := s.pending }

/-- One port of the path. -/
def State.port (s : State) (p : Nat) : Port := s.path.ports.getD p {}

/-- A port changed. -/
def State.onPort (s : State) (p : Nat) (f : Port → Port) : State :=
  { s with path := { s.path with ports := modifyNth s.path.ports p f } }

/-- Encoder counts trigger lines: armed for a job, not for sweep and spit lines, which the fire timebase paces (R126, R283,
R401). -/
def State.encArmed (s : State) : Bool := s.path.armed && s.path.test.isNone

/-- The number of enabled head ports of the ordering code (R1, R4). -/
def State.nPorts (s : State) : Nat := if s.fuse.part12A then 12 else 24

/-- Camera ports and DRAM channels of the ordering code (R1). -/
def State.nCams (s : State) : Nat := if s.fuse.part12A then 2 else 4
def State.nChans (s : State) : Nat := if s.fuse.part12A then 2 else 4

/-- Logical lanes of the ordering code (R1, R92). -/
def State.nLanes (s : State) : Nat := if s.fuse.part12A then 16 else 32

/-- A resource a row belongs to is present (R1, R2). -/
def State.present (s : State) (r : Res) (i : Nat) : Bool :=
  match r with
  | .none => true
  | .port => decide (i < s.nPorts)
  | .cam => decide (i < s.nCams)
  | .chan => decide (i < s.nChans)
  | .lane => decide (i < s.nLanes)

/-- A physical lane is present (R1, R92). -/
def State.lanePresent (s : State) (l : Nat) : Bool := decide (l < s.nLanes ∨ l = 32 ∨ l = 33)

/-- Applies a function to each number of a list in turn. -/
def State.forEach (s : State) (l : List Nat) (f : State → Nat → State) : State := l.foldl f s

/-- Applies a function when a condition holds. -/
def State.when (s : State) (c : Bool) (f : State → State) : State := if c then f s else s

/-- BTJ_IDENT (R4, Table 0.2a). -/
def State.ident (s : State) : Nat :=
  (if s.fuse.part12A then 0x12 else 0x24) + s.nPorts * 2 ^ 8 + s.nCams * 2 ^ 13 + s.nChans * 2 ^ 16
    + s.fuse.stepMaj % 16 * 2 ^ 24 + s.fuse.stepMin % 16 * 2 ^ 28

/-- MBX_MODE (R31, Table 2.1). -/
def State.modeWord (s : State) : Nat :=
  s.mode.code + s.prev.code * 2 ^ 4 + (if s.mode = .shadow then s.follow.code else 0) * 2 ^ 8 + b2n s.trans * 2 ^ 12
    + b2n s.primary * 2 ^ 13 + b2n s.synced * 2 ^ 14 + b2n s.aon.thermLatch * 2 ^ 15 + s.safeCause % 256 * 2 ^ 16

end Sys2Proof.Machine
end

