-- ==== Sys2Proof/Machine/Flags.lean ====
section
/-! DEFINITION. Status flags and what their setting does: the interrupt controller's transactions (chapter 14) and the
status bits of every block that ring it. -/

namespace Sys2Proof.Machine

/-- Sources that exist (R321, Table 14.2). -/
def hicExists (src : Nat) : Bool := decide (src ≤ 105 ∨ (112 ≤ src ∧ src ≤ 191))

/-- A level-sensed source: an EXT_IRQ with SENSE level-high or level-low (R321, R322). -/
def State.isLevel (s : State) (src : Nat) : Bool := decide (src < 16) && s.flag (R.HIC_ROUTE_LEVEL src)

/-- Bits of the PEND, EN and INSVC maps. -/
def State.pend (s : State) (src : Nat) : Bool := s.bitIn (R.HIC_PEND_PEND (src / 32)) (src % 32)
def State.enab (s : State) (src : Nat) : Bool := s.bitIn (R.HIC_EN_EN (src / 32)) (src % 32)
def State.insvc (s : State) (src : Nat) : Bool := s.bitIn (R.HIC_INSVC_INSVC (src / 32)) (src % 32)

/-- A bit of the PEND or INSVC map written. -/
def State.putPend (s : State) (src : Nat) (b : Bool) : State :=
  let f := R.HIC_PEND_PEND (src / 32)
  if b then s.setIn f (src % 32) else s.clrIn f (src % 32)
def State.putInsvc (s : State) (src : Nat) (b : Bool) : State :=
  let f := R.HIC_INSVC_INSVC (src / 32)
  if b then s.setIn f (src % 32) else s.clrIn f (src % 32)

/-- The core a source is delivered to, if its CUR names one. -/
def State.curCore (s : State) (src : Nat) : Option Nat :=
  let c := s.get (R.HIC_ROUTE_CUR src)
  if c < 6 then some c else none

/-- A source is deliverable to a core (R324). -/
def State.deliverable (s : State) (src c : Nat) : Bool :=
  s.pend src && s.enab src && !s.insvc src && (s.curCore src == some c)

/-- A source is deliverable to the core it is routed to. -/
def State.anyDeliverable (s : State) (src : Nat) : Bool :=
  match s.curCore src with
  | some c => s.deliverable src c
  | none => false

/-- A core is parted or held in reset (R330). -/
def State.corePartedB (s : State) (c : Nat) : Bool := s.flag (R.HIC_CORE_PARTED c)

/-- A core is asleep (R316). -/
def State.coreAsleep (s : State) (c : Nat) : Bool := s.flag (R.HIC_CORE_SLEEP c)

/-- A core wakes: its redirect timers stop (R316, R329). -/
def State.wakeCore (s : State) (c : Nat) : State :=
  let s := s.put (R.HIC_CORE_SLEEP c) 0
  { s with hic := { s.hic with redirect := s.hic.redirect.filter (fun src => s.curCore src != some c) } }

/-- Where a source is delivered while no redirection is in force (R328, R330). -/
def State.routeTarget (s : State) (src : Nat) : Nat :=
  let c := s.get (R.HIC_ROUTE_CORE src)
  if 6 ≤ c then c
  else if !s.corePartedB c then c
  else
    let a := s.get (R.HIC_ROUTE_ALT src)
    if a < 6 ∧ s.corePartedB a = false then a
    else if c < 4 then ((List.range 4).find? (fun v => !s.corePartedB v)).getD 7
    else 7

/-- The delivery of a source is looked at again after a transaction (R329): a deliverable source wakes its core, or
starts the redirect timer; one that is not deliverable stops its timer and ends a redirection that is not in service. -/
def State.settle (s : State) (src : Nat) : State :=
  if s.anyDeliverable src then
    match s.curCore src with
    | none => s
    | some c =>
      if !s.coreAsleep c then s
      else if s.flag (R.HIC_ROUTE_WAKE src) then s.wakeCore c
      else if s.flag (R.HIC_ROUTE_REDIR src) || s.hic.redirect.contains src then s
      else if 6 ≤ s.get (R.HIC_ROUTE_ALT src) ∨ s.get R.HIC_REDIRECT_T_T = 0 then s
      else { s with hic := { s.hic with redirect := src :: s.hic.redirect } }
  else
    let s := { s with hic := { s.hic with redirect := s.hic.redirect.filter (· != src) } }
    if s.flag (R.HIC_ROUTE_REDIR src) && !s.insvc src then
      (s.put (R.HIC_ROUTE_CUR src) (s.routeTarget src)).put (R.HIC_ROUTE_REDIR src) 0
    else s

/-- A ring of an edge source sets its pending bit (R321, R327). -/
def State.ring (s : State) (src : Nat) : State :=
  if hicExists src && !s.isLevel src then (s.putPend src true).settle src else s

/-- A status bit sets and rings its HIC source when it was clear. -/
def State.raise (s : State) (f : Fld) (src : Nat) : State :=
  if s.flag f then s else (s.put f 1).ring src

/-- A bit of a status mask sets and rings its HIC source when it was clear. -/
def State.raiseIn (s : State) (f : Fld) (i src : Nat) : State :=
  if s.bitIn f i then s else (s.setIn f i).ring src

/-- The HIC sources of Table 14.2 that status bits ring. -/
def srcMODE : Nat := 82
def srcMBXCQ : Nat := 83
def srcBLT : Nat := 88
def srcGMP : Nat := 89
def srcSPN : Nat := 90
def srcENC : Nat := 91
def srcCMP : Nat := 92
def srcFIR : Nat := 93
def srcHLK : Nat := 94
def srcCAM : Nat := 95
def srcTSL : Nat := 96
def srcTMB : Nat := 97
def srcCNT : Nat := 98
def srcCHK : Nat := 99
def srcMOT : Nat := 100
def srcDRC : Nat := 101
def srcBTJ : Nat := 102
def srcAVIOL : Nat := 103
def srcTICK : Nat := 104
def srcHIC : Nat := 105

/-- A HIC_STAT or HIC_CORE status bit sets (R333). -/
def State.hicStat (s : State) (f : Fld) : State := s.raise f srcHIC

/-- CUR of a source is formed again when the parting of a core changes (R330). -/
def State.reroute (s : State) (src : Nat) : State :=
  if s.insvc src then s
  else
    let t := s.routeTarget src
    let c := s.get (R.HIC_ROUTE_CORE src)
    let s := (s.put (R.HIC_ROUTE_CUR src) t).put (R.HIC_ROUTE_REDIR src) 0
    let s := if c < 6 ∧ s.corePartedB c = true ∧ t ≠ s.get (R.HIC_ROUTE_ALT src) then s.hicStat R.HIC_STAT_ORPHAN else s
    s.settle src

/-- The sources that exist, ascending. -/
def hicSources : List Nat := (List.range 192).filter hicExists

/-- PEND of a level source takes its filtered line while it is not in service (R327). -/
def State.levelFollow (s : State) (src : Nat) : State :=
  if s.isLevel src && !s.insvc src then (s.putPend src (s.flag (R.HIC_EXT_LINE src))).settle src else s

/-- A core is parted or put into reset (R330): services it claimed end, and its sources go to their alternates. -/
def State.hicPart (s : State) (c : Nat) : State :=
  let s := (s.put (R.HIC_CORE_PARTED c) 1).put (R.HIC_CORE_SLEEP c) 0
  let s := s.put (R.HIC_CORE_INFAST c) 0
  let s := s.forEach hicSources (fun s src =>
    if s.insvc src && (s.get (R.HIC_ROUTE_CLAIMER src) == c) then
      let s := (s.putInsvc src false).put (R.HIC_ROUTE_CLAIMER src) 0
      if s.isLevel src then s.levelFollow src else s.putPend src true
    else s)
  s.forEach hicSources (fun s src =>
    if s.get (R.HIC_ROUTE_CORE src) == c || (s.get (R.HIC_ROUTE_CUR src) == c) then s.reroute src else s)

/-- A core is restored or started (R317, R330): HIC_VBASE_c takes its reset value, CUR returns to CORE. -/
def State.hicUnpart (s : State) (c : Nat) : State :=
  let s := (s.put (R.HIC_CORE_PARTED c) 0).put (R.HIC_VBASE_BASE c) (if c < 4 then 0x200000 else 0x206000)
  s.forEach hicSources (fun s src =>
    if s.get (R.HIC_ROUTE_CORE src) == c || (s.get (R.HIC_ROUTE_CUR src) == 7) then s.reroute src else s)

end Sys2Proof.Machine
end

