-- ==== Sys2Proof/Machine/Operands.lean ====
section
/-! DEFINITION. Operand forms: mailbox slots and their payloads, the command table (Table 12.1), status codes, and
little-endian readers of frame and record bytes (R10, R268). -/

namespace Sys2Proof.Machine

/-- `n` little-endian bytes of a record from an offset (R10); bytes past the end read 0. -/
def field (b : List Nat) (off n : Nat) : Nat := ofBytes ((b.drop off).take n)

/-- Model address of a slot: BAR0 slots at 0x4010_0000 (R249), virtual slots in a window of the model's own (log entry 12). -/
def slotBase (r : SlotRef) : Nat :=
  match r.transport with
  | .bar => 0x40100000 + 0x100 * r.slot
  | .udp => 0x100000000 + 0x100 * r.slot

/-- Common status codes (Table 11.9). -/
def stOK : Nat := 0x0000
def stBAD_OPCODE : Nat := 0x0001
def stBAD_LENGTH : Nat := 0x0002
def stBAD_PARAM : Nat := 0x0003
def stWRONG_MODE : Nat := 0x0004
def stBUSY : Nat := 0x0005
def stSLOT_BUSY : Nat := 0x0006
def stABSENT : Nat := 0x0007
def stTAG_IN_USE : Nat := 0x0008
def stSTANDBY : Nat := 0x0009
def stTAKEOVER : Nat := 0x000A
def stINTERRUPTED : Nat := 0x000B
def stABORTED : Nat := 0x000C
def stIN_PROGRESS : Nat := 0x000D
def stREFUSED : Nat := 0x000E
def stNO_SESSION : Nat := 0x000F

/-- Command-specific status codes (Table 12.6). -/
def stJOB_ACTIVE : Nat := 0x0101
def stNO_JOB : Nat := 0x0102
def stNO_WAVEFORM : Nat := 0x0103
def stNEXT_HAS_BILLETS : Nat := 0x0104
def stGAP_LIST : Nat := 0x0105
def stPLANE_RANGE : Nat := 0x0110
def stSUBLINE_PRINT : Nat := 0x0111
def stSKEW_PENDING : Nat := 0x0112
def stTABLE_BAD : Nat := 0x0120
def stHEAD_REFUSED : Nat := 0x0121
def stHEAD_TIMEOUT : Nat := 0x0122
def stCLASS_PENDING : Nat := 0x0123
def stCAL_FAILED : Nat := 0x0130
def stFLASH_WRITE : Nat := 0x0131
def stNO_SEQUENCE : Nat := 0x0138
def stSTEP_FAILED : Nat := 0x0139
def stCAPTURE_REFUSED : Nat := 0x0150
def stPORT_OFF : Nat := 0x0151
def stCOMMIT_PENDING : Nat := 0x0152
def stSNAP_PENDING : Nat := 0x0160
def stNO_LINES : Nat := 0x0161
def stBANK_REUSED : Nat := 0x0162
def stJOIN_FAILED : Nat := 0x0170
def stIS_PRIMARY : Nat := 0x0171
def stNOT_PRIMARY : Nat := 0x0172
def stNOT_STANDBY : Nat := 0x0173
def stNOT_PAIRED : Nat := 0x0174
def stPROFILE : Nat := 0x0180
def stDMA_ERROR : Nat := 0x0190
def stADDR_DENIED : Nat := 0x01C0
def stKEY_TABLE_FULL : Nat := 0x01C1
def stHEAD_DOWN : Nat := 0x01C2
def stNO_HEAD_ANSWER : Nat := 0x01C3
def stNOT_UDP : Nat := 0x01F0

/-- Mode-event causes (Table 11.10). -/
def mcCOMMAND : Nat := 0
def mcJOB_END : Nat := 1
def mcBOOT_DONE : Nat := 2
def mcFAULT : Nat := 3
def mcTAKEOVER : Nat := 4
def mcPAIR_LOST : Nat := 5
def mcSWITCHOVER : Nat := 6
def mcXCHK_STOP : Nat := 7
def mcTHERMAL : Nat := 8

/-- Opcodes of Table 12.1. -/
def opIDENTIFY : Nat := 0x0101
def opUDP_OPEN : Nat := 0x0102
def opUDP_CLOSE : Nat := 0x0103
def opECHO : Nat := 0x0104
def opJOB_DEFINE : Nat := 0x0201
def opJOB_START : Nat := 0x0202
def opJOB_STOP : Nat := 0x0203
def opJOB_ABORT : Nat := 0x0204
def opJOB_PURGE : Nat := 0x0205
def opGEOMETRY_SET : Nat := 0x0301
def opSKEW_SET : Nat := 0x0302
def opWAVE_STAGE : Nat := 0x0401
def opWAVE_LOAD : Nat := 0x0402
def opCAL_START : Nat := 0x0501
def opCAL_ABORT : Nat := 0x0502
def opCAL_STATUS : Nat := 0x0503
def opMAINT_DEFINE : Nat := 0x0601
def opMAINT_START : Nat := 0x0602
def opMAINT_STOP : Nat := 0x0603
def opMOVE : Nat := 0x0701
def opMOVE_GROUP : Nat := 0x0702
def opHOME : Nat := 0x0703
def opAXIS_STOP : Nat := 0x0704
def opCAPTURE : Nat := 0x0801
def opSTATS_RING : Nat := 0x0802
def opGRAIN_WRITE : Nat := 0x0803
def opSNAPSHOT : Nat := 0x0901
def opDROP_READ : Nat := 0x0902
def opPAIR_JOIN : Nat := 0x0A01
def opPAIR_SWITCHOVER : Nat := 0x0A02
def opPAIR_LEAVE : Nat := 0x0A03
def opPTP_CONFIG : Nat := 0x0B01
def opREG_READ : Nat := 0x0C01
def opREG_WRITE : Nat := 0x0C02
def opBLOCK_READ : Nat := 0x0C03
def opFAULT_CLEAR : Nat := 0x0C04
def opSOFT_RESET : Nat := 0x0C05
def opJOURNAL_READ : Nat := 0x0C06
def opUSAGE_KEY : Nat := 0x0C07
def opHEAD_MEM_READ : Nat := 0x0C08

/-- Command kinds (R269): read-only, logged, member-local. -/
inductive CmdKind where
  | r | s | m
  deriving DecidableEq, Repr

/-- Kind and deadline class (0 fast, 1 normal, 2 long) of each opcode (Table 12.1). -/
def cmdTable : List (Nat × CmdKind × Nat) := [
  (0x0101, .r, 0), (0x0102, .m, 0), (0x0103, .m, 0), (0x0104, .r, 0),
  (0x0201, .s, 1), (0x0202, .s, 1), (0x0203, .s, 1), (0x0204, .s, 1), (0x0205, .s, 1),
  (0x0301, .s, 1), (0x0302, .s, 1), (0x0401, .s, 1), (0x0402, .s, 2),
  (0x0501, .s, 2), (0x0502, .s, 1), (0x0503, .r, 0),
  (0x0601, .s, 1), (0x0602, .s, 2), (0x0603, .s, 1),
  (0x0701, .s, 1), (0x0702, .s, 1), (0x0703, .s, 1), (0x0704, .s, 1),
  (0x0801, .m, 1), (0x0802, .m, 1), (0x0803, .s, 1), (0x0901, .m, 1), (0x0902, .r, 1),
  (0x0A01, .m, 2), (0x0A02, .s, 1), (0x0A03, .m, 1), (0x0B01, .m, 1),
  (0x0C01, .r, 0), (0x0C02, .s, 1), (0x0C03, .r, 1), (0x0C04, .m, 1), (0x0C05, .m, 1),
  (0x0C06, .r, 1), (0x0C07, .m, 1), (0x0C08, .s, 1)]

/-- Kind and class of an opcode, if the command exists. -/
def cmdInfo (op : Nat) : Option (CmdKind × Nat) :=
  match cmdTable.find? (fun e => e.1 == op) with
  | some (_, k, c) => some (k, c)
  | none => none

/-- A command is state-changing (R269). -/
def cmdChanges (op : Nat) : Bool :=
  match cmdInfo op with
  | some (.s, _) => true
  | some (.m, _) => true
  | _ => false

/-- A command is logged in a pair (R269). -/
def cmdLogged (op : Nat) : Bool := match cmdInfo op with | some (.s, _) => true | _ => false

/-- The deadline class of a command (R255). -/
def cmdClass (op : Nat) : Nat :=
  match cmdInfo op with
  | some (_, c) => c
  | none => 0

/-- PLEN as Table 12.1 requires it; `b` is the payload. -/
def plenOk (op n : Nat) (b : List Nat) : Bool :=
  if op = 0x0104 then decide (n ≤ 240)
  else if op = 0x0201 then decide (n = 16 + 8 * field b 2 1)
  else if op = 0x0601 then decide (n = 8 + 8 * field b 1 1)
  else if op = 0x0803 then (if bit (field b 0 1) 1 then decide (n = 24) else decide (n = 16 + 16 * field b 2 2))
  else if op = 0x0C01 then decide (n % 4 = 0 ∧ 4 ≤ n ∧ n ≤ 224)
  else if op = 0x0C02 then decide (n % 8 = 0 ∧ 8 ≤ n ∧ n ≤ 240)
  else
    let want := if op = 0x0202 ∨ op = 0x0203 ∨ op = 0x0501 ∨ op = 0x0901 ∨ op = 0x0A02 ∨ op = 0x0C04 ∨ op = 0x0C08 then 8
      else if op = 0x0205 ∨ op = 0x0402 ∨ op = 0x0602 ∨ op = 0x0704 ∨ op = 0x0C05 then 4
      else if op = 0x0301 then 28
      else if op = 0x0302 ∨ op = 0x0801 ∨ op = 0x0C03 ∨ op = 0x0C06 then 16
      else if op = 0x0401 then 88
      else if op = 0x0701 then 20
      else if op = 0x0702 ∨ op = 0x0C07 then 48
      else if op = 0x0703 ∨ op = 0x0802 then 12
      else if op = 0x0902 ∨ op = 0x0B01 then 24
      else 0
    decide (n = want)

/-- The header and payload of a slot as bytes. -/
def State.slotBytes (s : State) (r : SlotRef) : List Nat := s.bytesAt (slotBase r) 256

/-- `n` payload bytes of a command from a payload offset (R268). -/
def State.arg (s : State) (c : Cmd) (off n : Nat) : Nat := field (s.bytesAt (slotBase c.ref + 0x10) 240) off n

/-- The payload of a command, filled with zeros to 240 bytes (R268). -/
def State.payloadOf (s : State) (c : Cmd) : List Nat :=
  let b := s.slotBytes c.ref
  ((b.drop 16).take (field b 4 2) ++ List.replicate 240 0).take 240

/-- A reserved field of a payload is not 0 (R268): offsets and sizes. -/
def resv (p : List Nat) (l : List (Nat × Nat)) : Bool := l.any (fun (e : Nat × Nat) => field p e.1 e.2 != 0)

/-- `n` free bytes. -/
def State.freeBytes : Nat → State → State × List Nat
  | 0, s => (s, [])
  | n + 1, s =>
    let r := State.freeBytes n s.took
    (r.1, s.freeVal 8 :: r.2)

/-- Bytes go to host memory by DMA.  Whether a PCIe error ends it, and after how many bytes, comes from outside: free values
(R271). -/
def State.dmaOut (s : State) (addr : Nat) (b : List Nat) : State × Bool :=
  let bad := s.freeVal 1 == 1
  let s := s.took
  let k := s.freeVal 64 % (b.length + 1)
  if bad then (s.took.emit (.hostWrite addr (b.take k)), false) else (s.emit (.hostWrite addr b), true)

/-- Bytes come from host memory by DMA: free values, as is a PCIe error (R271). -/
def State.dmaIn (s : State) (addr n : Nat) : State × Option (List Nat) :=
  let bad := s.freeVal 1 == 1
  let r := State.freeBytes n (s.took.emit (.hostRead addr n))
  if bad then (r.1, none) else (r.1, some r.2)

/-- A signed 32-bit payload field. -/
def State.argS (s : State) (c : Cmd) (off : Nat) : Int := signed 32 (s.arg c off 4)

end Sys2Proof.Machine
end

