-- ==== Sys2Proof/Machine/LogOps.lean ====
section
/-! DEFINITION. The sending side of the input log (R217, R219–R224): records, groups, frames of the pair link. -/

namespace Sys2Proof.Machine

/-- The pair log is open on this primary (R224). -/
def State.logOpen (s : State) : Bool := s.primary && s.pair.logOpen

/-- A record as bytes of the stream (Table 10.3). -/
def LogRec.bytes (r : LogRec) : List Nat :=
  let n := ceilDiv r.body.length 16 * 16
  [r.rtype, b2n r.gend] ++ toBytes 2 (16 + n) ++ toBytes 5 (r.eff.getD 0xFFFFFFFFFF) ++ [r.src, 0, 0] ++ toBytes 4 r.gseq
    ++ r.body ++ List.replicate (n - r.body.length) 0

/-- A Holza-P frame leaves: header word of Table 10.2, then the body. -/
def State.pairFrame (s : State) (ftype loff : Nat) (body : List Nat) : State :=
  s.emit (.pair ftype (toBytes 4 loff ++ toBytes 4 (s.get R.HLK_CLAIM_CLAIM) ++ [ftype, s.get R.TSL_STAT_SIDE]
    ++ toBytes 2 body.length ++ [0, 0, 0, 0] ++ body))

/-- A control block of Table 10.1 leaves: type, bytes 1 to 6 and CRC-8. -/
def State.pairBlock (s : State) (type : Nat) (body : List Nat) : State := s.emit (.pair type (body ++ [crc8 body]))

/-- A FAULT block (R231). -/
def State.pairFault (s : State) (cause src : Nat) : State := s.pairBlock 0x4D [cause, src, 0, 0, 0, 0]

/-- LOG frames of at most 2,048 bytes from an offset of the stream (R216). -/
def State.sendLog : Nat → State → Nat → List Nat → State
  | 0, s, _, _ => s
  | fuel + 1, s, off, b =>
    if b.isEmpty then s
    else State.sendLog fuel (s.pairFrame 0x21 (off % 2 ^ 32) (b.take 2048)) (off + min 2048 b.length) (b.drop 2048)

/-- A record joins the group the primary is forming (R221). -/
def State.logAdd (s : State) (rtype : Nat) (eff : Option Nat) (src : Nat) (body : List Nat) : State :=
  if s.logOpen then
    { s with pair := { s.pair with part := s.pair.part ++ [⟨rtype, false, eff, src, s.pair.gseq, body⟩] } }
  else s

/-- The log is closed on the primary, with a FAULT block of cause UNSYNC where the buffer has filled (R224, R231). -/
def State.logShut (s : State) (fault : Bool) : State :=
  let s := if fault then s.pairFault 5 0xFF else s
  { s with pair := { s.pair with logOpen := false, buf := [], part := [], steps := [], hold := false } }

/-- The group is complete: it is appended and sent (R217, R221, R224). -/
def State.logClose (s : State) : State :=
  match s.pair.part.reverse with
  | [] => s
  | last :: before =>
    let recs := ({ last with gend := true } :: before).reverse
    let off := s.get R.TSL_LOG_TX_OFF
    let step (a : Nat × List (Nat × List Nat)) (r : LogRec) : Nat × List (Nat × List Nat) :=
      ((a.1 + r.bytes.length) % 2 ^ 32, a.2 ++ [((a.1 + r.bytes.length) % 2 ^ 32, r.bytes)])
    let out := recs.foldl step (off, [])
    let s := { s with pair := { s.pair with part := [], gseq := s.pair.gseq + 1, buf := s.pair.buf ++ out.2 } }
    let b := recs.flatMap LogRec.bytes
    let s := s.put R.TSL_LOG_TX_OFF out.1
    let s := State.sendLog (b.length / 2048 + 1) s off b
    if 2 ^ 20 < (s.pair.buf.map (fun (e : Nat × List Nat) => e.2.length)).foldl (· + ·) 0 then s.logShut true else s

/-- One record that is a group of its own (R221). -/
def State.logOne (s : State) (rtype : Nat) (eff : Option Nat) (src : Nat) (body : List Nat) : State :=
  (s.logAdd rtype eff src body).logClose

/-- A register write as a record (Table 10.4). -/
def regwBody (l : List (Nat × Nat)) : List Nat := l.flatMap (fun (e : Nat × Nat) => toBytes 4 e.1 ++ toBytes 4 e.2)

/-- A DECIDE record (Table 10.4): kind, first line, argument. -/
def State.logDecide (s : State) (eff : Option Nat) (src kind first arg : Nat) : State :=
  s.logOne 0x04 eff src ([kind, 0, 0] ++ toBytes 5 first ++ toBytes 8 arg)

/-- A MODE record (Table 10.4). -/
def State.logMode (s : State) (eff : Option Nat) (src kind job arg : Nat) : State :=
  s.logOne 0x07 eff src ([kind, job] ++ List.replicate 6 0 ++ toBytes 8 arg)

/-- A core's write to a register of ING, BLT, SPN, ENC, CMP, FIR or MOT (R219): without effect in SHADOW, and logged as a
REGW record of the words written while the log is open. -/
def State.sealedWrite (s : State) (l : List (Nat × Nat)) (k : State → State) : State :=
  if s.mode = .shadow then s else (k s).logOne 0x01 none 2 (regwBody l)

/-- The least boundary a record appended now may name (R221). -/
def State.logLead (s : State) : Nat := if 3 ≤ popcount 4 s.pair.lanes then 3 else 5

end Sys2Proof.Machine
end

