-- ==== Sys2Proof/Machine/Mailbox.lean ====
section
/-! DEFINITION. The host interface (chapter 11): completion queue, MSI-X, datagrams, the take of a doorbell and its
checks, and the frame every mailbox command runs in. -/

namespace Sys2Proof.Machine

/-- A mailbox datagram with its header (Table 11.12, R264). -/
def datagram (session kind seq : Nat) (body : List Nat) : List Nat :=
  let h := toBytes 2 0x5547 ++ [1, kind] ++ toBytes 2 session ++ toBytes 2 body.length ++ toBytes 4 seq
  h ++ toBytes 4 (crc32c (h ++ [0, 0, 0, 0] ++ body)) ++ body

/-- A datagram leaves for the session host. -/
def State.sendUdp (s : State) (kind seq : Nat) (body : List Nat) : State :=
  s.emit (.udp kind (datagram (s.get R.MBX_UDP_SESS_SESSION) kind seq body))

/-- The pending bits of the MSI-X word that holds a vector's bit (R249). -/
def pbaFld (vec : Nat) : Fld := wordFld (0x40107000 + 4 * (vec % 64 / 32))

/-- The host masks a vector: bit 0 of the last word of its MSI-X table entry (R249, log entry 69). -/
def State.msixMasked (s : State) (vec : Nat) : Bool := bit (s.get (wordFld (0x4010600C + 16 * (vec % 64)))) 0

/-- A masked vector is held in the pending-bit array (R249, log entry 69). -/
def State.msixPend (s : State) (vec : Nat) : State := s.put (pbaFld vec) (setBit (s.get (pbaFld vec)) (vec % 32))

/-- A vector is sent at most once per MBX_IRQMOD.GAP; causes inside a gap are merged (R254), and a masked vector waits for its
unmasking. -/
def State.sendIrq (s : State) (vec : Nat) : State :=
  if s.get R.MBX_IRQMOD_GAP ≠ 0 ∧ s.mbx.gaps.any (fun g => g.1 == vec) = true then
    { s with mbx := { s.mbx with gaps := s.mbx.gaps.map (fun g => if g.1 == vec then (vec, true) else g) } }
  else if s.msixMasked vec then s.msixPend vec
  else if s.get R.MBX_IRQMOD_GAP = 0 then s.emit (.msix vec)
  else ({ s with mbx := { s.mbx with gaps := (vec, false) :: s.mbx.gaps } }).emit (.msix vec)

/-- A word of the MSI-X table has been written: a pending vector that is no longer masked is sent (R249, log entry 69). -/
def State.msixTable (s : State) (vec : Nat) : State :=
  if bit (s.get (pbaFld vec)) (vec % 32) && !s.msixMasked vec then
    (s.put (pbaFld vec) (clrBit (s.get (pbaFld vec)) (vec % 32))).sendIrq vec
  else s

/-- Unreleased entries of the completion queue (R253). -/
def State.cqUsed (s : State) : Nat := (s.get R.MBX_CQ_TAIL_TAIL + 2048 - s.get R.MBX_CQ_HEAD_HEAD) % 2048

/-- Locked BAR0 slots. -/
def State.lockedBar (s : State) : Nat := popcount 64 (s.get R.MBX_SLOTS_LOCKED)

/-- An entry that is no final completion finds room: one entry stays free for every locked slot (R253). -/
def State.cqRoom (s : State) : Bool := decide (s.cqUsed + s.lockedBar < 2047)

/-- The 32 bytes of an entry without PHASE (Table 11.6). -/
def State.entry (s : State) (tag op status slot flags rlen cls progress detail data : Nat) : List Nat :=
  toBytes 2 tag ++ toBytes 2 op ++ toBytes 2 status ++ [slot, flags, rlen, cls] ++ toBytes 2 progress ++ toBytes 4 detail
    ++ toBytes 8 (s.time40 % 2 ^ 40) ++ toBytes 8 data

/-- An entry is written at MBX_CQ_TAIL with the PHASE of the pass, and mirrored (R253, R254). -/
def State.writeEntry (s : State) (e : List Nat) : State :=
  let t := s.get R.MBX_CQ_TAIL_TAIL
  let e := modifyNth e 7 (fun f => f + 0x80 * b2n s.mbx.phase)
  let s := s.putBytes (0x40110000 + 32 * t) e
  let s := s.put R.MBX_CQ_TAIL_TAIL (t + 1)
  let s := if t = 2047 then { s with mbx := { s.mbx with phase := !s.mbx.phase } } else s
  if s.flag R.MBX_CFG_MIRROR then
    s.emit (.hostWrite (s.get R.MBX_CQ_MHI_ADDR_HI * 2 ^ 32 + s.get R.MBX_CQ_MLO_ADDR_LO / 2 ^ 16 * 2 ^ 16 + 32 * t) e)
  else s

/-- A LOST event is the next entry once room has returned (R253). -/
def State.postLost (s : State) : State :=
  if s.mbx.lost ≠ 0 ∧ s.cqRoom = true then
    let s' := s.writeEntry (s.entry 0 0x8005 0 0xFF 2 0 0 0 s.mbx.lost 0)
    let s' := { s' with mbx := { s'.mbx with lost := 0 } }
    if s'.flag R.MBX_CFG_EVT_IRQ then s'.sendIrq (s'.get R.MBX_CFG_EVT_VEC) else s'
  else s

/-- An event or non-final entry: written where there is room, dropped and counted otherwise (R253). -/
def State.postSoft (s : State) (e : List Nat) (event : Bool) : State :=
  if s.mbx.resetPending.isSome then s
  else
    let s := s.postLost
    if s.cqRoom && (s.mbx.lost == 0) then
      let s := s.writeEntry e
      if event && s.flag R.MBX_CFG_EVT_IRQ then s.sendIrq (s.get R.MBX_CFG_EVT_VEC) else s
    else
      let s := (s.bump R.MBX_CQ_DROP_COUNT).put R.MBX_STAT_CQ_LOST 1
      { s with mbx := { s.mbx with lost := s.mbx.lost + 1 } }

/-- An event entry, and its EVT datagram while a session is open (R252, R261). -/
def State.postEvent (s : State) (code detail data : Nat) : State :=
  let e := s.entry 0 code 0 0xFF 2 0 0 0 detail data
  let s := if s.flag R.MBX_UDP_SESS_OPEN then
      { (s.sendUdp 3 s.mbx.evtSeq e) with mbx := { s.mbx with evtSeq := s.mbx.evtSeq + 1 } } else s
  s.postSoft e true

/-- ENC_LINE as events carry it. -/
def State.encLine (s : State) : Nat := s.get R.ENC_LINE_INDEX

/-- A slot is locked (R250). -/
def State.isLocked (s : State) (r : SlotRef) : Bool :=
  match r.transport with
  | .bar => s.bitIn R.MBX_SLOTS_LOCKED r.slot
  | .udp => bit s.mbx.udpLocked r.slot

/-- A slot is locked or unlocked; MBX_STAT.ACTIVE shows the number (R250). -/
def State.setLock (s : State) (r : SlotRef) (b : Bool) : State :=
  match r.transport with
  | .bar =>
    let s := if b then s.setIn R.MBX_SLOTS_LOCKED r.slot else s.clrIn R.MBX_SLOTS_LOCKED r.slot
    s.put R.MBX_STAT_ACTIVE s.lockedBar
  | .udp => { s with mbx := { s.mbx with
      udpLocked := if b then setBit s.mbx.udpLocked r.slot else clrBit s.mbx.udpLocked r.slot } }

/-- A tag-table entry is made or replaced; the table keeps the last 4,096 (R239, R269). -/
def State.tagRecord (s : State) (tag op status detail : Nat) (result : List Nat) : State :=
  { s with mbx := { s.mbx with tags :=
      (⟨tag, op, status, detail, result⟩ :: s.mbx.tags.filter (fun t => !(t.tag == tag && t.op == op))).take 4096 } }

/-- What the final completion of a command does, whatever its status: result, unlock, entry or datagram, counters
(R250, R252, R254, R259, R265, R376). -/
def State.finalEntry (s : State) (c : Cmd) (status detail flags cls : Nat) (result : List Nat) : State :=
  let result := result.take 240
  let s := s.putBytes (slotBase c.ref + 0x10) result
  let s := s.setLock c.ref false
  let s := { s with mbx := { s.mbx with cmds := s.mbx.cmds.filter (fun d => d.ref != c.ref) } }
  let s := s.count R.CNT_MBX_FINAL_COUNT
  let e := s.entry c.tag c.op status c.ref.slot flags result.length cls 0 detail (field result 0 8)
  if c.discard then
    let s := s.bump R.MBX_LOSTCPL_COUNT
    if c.ref.transport = .bar then { s with mbx := { s.mbx with resetPending := s.mbx.resetPending.map (· + 1) } } else s
  else match c.ref.transport with
    | .bar =>
      let s := s.writeEntry e
      if bit c.flags 0 then s.sendIrq c.vec else s
    | .udp =>
      let d := datagram (s.get R.MBX_UDP_SESS_SESSION) 2 c.seq (e ++ result)
      { (s.emit (.udp 2 d)) with mbx := { s.mbx with
          udpLast := (c.ref.slot, c.seq, some d) :: s.mbx.udpLast.filter (fun x => x.1 != c.ref.slot) } }

/-- A logged command whose effect no register holds is logged as words of a window of the model's own, at 0xF000_0000 plus
the opcode × 0x100 (log entry 65). -/
def State.logWindow (s : State) (op : Nat) (p : List Nat) (n : Nat) : State :=
  s.logAdd 0x01 none 2 (regwBody ((List.range (ceilDiv n 4)).map (fun (i : Nat) => (0xF0000000 + op * 0x100 + 4 * i, field p (4 * i) 4))))

/-- The TAG record that closes a logged command's group (R221, R239). -/
def State.logTag (s : State) (tag op status : Nat) (result : List Nat) : State :=
  s.logOne 0x09 none 0 (toBytes 2 tag ++ toBytes 2 op ++ toBytes 2 status ++ [result.length] ++ List.replicate 9 0 ++ result.take 48)

/-- The final completion of an executed command; a state-changing one enters the tag table (R269). -/
def State.finish (s : State) (c : Cmd) (status : Nat) (detail : Nat := 0) (result : List Nat := []) : State :=
  let s := if cmdChanges c.op then s.tagRecord c.tag c.op status detail (result.take 240) else s
  let s := if cmdLogged c.op then s.logTag c.tag c.op status result else s
  s.finalEntry c status detail 1 (cmdClass c.op) result

/-- A long command is accepted: it runs on, its tag record reads IN_PROGRESS, and its first progress entry is posted
(R255, R257, R272). -/
def State.startLong (s : State) (c : Cmd) : State :=
  let s := if cmdChanges c.op then s.tagRecord c.tag c.op stIN_PROGRESS 0 [] else s
  let s := if cmdLogged c.op then s.logTag c.tag c.op stIN_PROGRESS [] else s
  { s with mbx := { s.mbx with cmds := s.mbx.cmds.map (fun d => if d.ref == c.ref then { d with running := true } else d) } }

/-- The running long command of an opcode. -/
def State.longCmd (s : State) (op : Nat) : Option Cmd := s.mbx.cmds.find? (fun c => c.op == op && c.running)

/-- PROGRESS of a running long command. -/
def State.setProgress (s : State) (op v : Nat) : State :=
  { s with mbx := { s.mbx with cmds := s.mbx.cmds.map (fun d => if d.op == op && d.running then { d with progress := v } else d) } }

/-- The running long command of an opcode, if any, completes finally. -/
def State.finishLong (s : State) (op status : Nat) (detail : Nat := 0) (result : List Nat := []) : State :=
  match s.longCmd op with
  | some c => s.finish c status detail result
  | none => s

/-- A command entry that is not final goes to the queue or, on a virtual slot, out as a CPL datagram (R265). -/
def State.postProgress (s : State) (c : Cmd) : State :=
  let e := s.entry c.tag c.op stIN_PROGRESS c.ref.slot 0 0 2 (min c.progress 1000) 0 0
  if c.discard then s
  else match c.ref.transport with
    | .bar => s.postSoft e false
    | .udp => s.sendUdp 2 c.seq e

/-- Commands are executed: the vendor firmware runs, or HS0 serves SAFE from ROM (R37, R299). -/
def State.serving (s : State) : Bool := s.boot.coresUp || (s.mode == .safe && s.boot.pcieUp)

/-- What the mode says to a command (R36, R38, R270, Table 2.5): 0, WRONG_MODE or STANDBY. -/
def State.admission (s : State) (op : Nat) (b : List Nat) : Nat :=
  let g := op / 256
  let w := stWRONG_MODE
  let cls := s.get R.FIR_CTRL_CLASS
  let tr (st : Nat) : Nat := if s.trans then w else st
  match g with
  | 1 => 0
  | 2 => match s.mode with
    | .idle => if op = opJOB_DEFINE ∨ op = opJOB_PURGE then 0 else if op = opJOB_START then tr 0 else w
    | .print => if op = opJOB_DEFINE ∨ op = opJOB_STOP ∨ op = opJOB_ABORT then 0 else w
    | .shadow => stSTANDBY
    | _ => w
  | 3 => match s.mode with
    | .idle => 0
    | .print => if op = opSKEW_SET then 0 else w
    | .shadow => stSTANDBY
    | _ => w
  | 4 => match s.mode with
    | .idle => 0
    | .maintain => 0
    | .print => if field b 0 1 = cls then w else 0
    | .shadow => stSTANDBY
    | _ => w
  | 5 => match s.mode with
    | .idle => if op = opCAL_START then tr 0 else if op = opCAL_STATUS then 0 else w
    | .calibrate => if op = opCAL_START then w else 0
    | .shadow => stSTANDBY
    | _ => w
  | 6 => match s.mode with
    | .idle => if op = opMAINT_DEFINE then 0 else if op = opMAINT_START then tr 0 else w
    | .maintain => if op = opMAINT_STOP then 0 else w
    | .shadow => stSTANDBY
    | _ => w
  | 7 => match s.mode with
    | .idle => 0
    | .maintain => 0
    | .print =>
      let mask := if op = opMOVE_GROUP ∨ op = opAXIS_STOP then field b 0 1 else 2 ^ (field b 0 1 % 8)
      if op = opAXIS_STOP then 0
      else if (members 8 mask).all (fun a => s.flag (R.MOT_AX_W0_PRINT_OK a)) then 0 else w
    | .shadow => stSTANDBY
    | _ => w
  | 8 => match s.mode with
    | .boot => w
    | .safe => w
    | .reset => w
    | .shadow => stSTANDBY
    | _ => 0
  | 9 => if s.mode = .boot then w else 0
  | 10 => match s.mode with
    | .boot => w
    | .safe => w
    | _ =>
      if op = opPAIR_JOIN then (if s.mode = .idle then tr 0 else w)
      else if op = opPAIR_SWITCHOVER then tr 0
      else 0
  | 11 => if s.mode = .boot then w else 0
  | _ =>
    if op = opREG_WRITE then (match s.mode with | .boot => w | .safe => w | .shadow => stSTANDBY | _ => 0)
    else if op = opHEAD_MEM_READ then (match s.mode with | .boot => w | .safe => w | _ => 0)
    else if op = opUSAGE_KEY then (if s.mode = .boot then w else 0)
    else 0

/-- Status and abort commands that a running long command of their group does not hold up (R257). -/
def abortOrStatus (op : Nat) : Bool := decide (op = opCAL_ABORT ∨ op = opCAL_STATUS ∨ op = opMAINT_STOP ∨ op = opPAIR_LEAVE)

/-- A long command of the group is in progress and conflicts (R257, check 8). -/
def State.conflicts (s : State) (op : Nat) : Bool :=
  cmdChanges op && !abortOrStatus op && s.mbx.cmds.any (fun c => c.running && (c.op / 256 == op / 256))

/-- The vendor core that will execute a command: the lowest in service (R258). -/
def State.vendorCore (s : State) : Nat := ((List.range 4).find? (fun c => !s.corePartedB c)).getD 0

/-- The result of IDENTIFY (Table 12.2). -/
def State.identity (s : State) : List Nat :=
  toBytes 4 s.ident ++ toBytes 4 (s.get R.BTJ_FWVER_VERSION) ++ toBytes 4 s.modeWord ++ toBytes 4 (s.get R.HLK_CLAIM_CLAIM)
    ++ toBytes 5 s.time40 ++ [0] ++ toBytes 2 0x0100 ++ toBytes 2 s.boot.ssvid ++ toBytes 2 s.boot.ssid ++ [0, 0, 0, 0]

/-- The take of a doorbell: checks 1 to 8 of Table 11.5 in order (R251). -/
def State.take (s : State) (r : SlotRef) (seq : Nat) (note : List Nat) : State :=
  if s.isLocked r then
    let e := s.entry 0xFFFF 0xFFFF stSLOT_BUSY r.slot 8 0 0 0 0 0
    match r.transport with
    | .bar => s.postSoft e false
    | .udp => s.sendUdp 2 seq e
  else
    let b := s.slotBytes r
    let op := field b 0 2
    let tag := field b 2 2
    let n := field b 4 2
    let p := (b.drop 16).take n
    let c : Cmd := ⟨r, tag, op, field b 6 1, field b 7 1, s.mbx.takes, seq, false, 0, s.vendorCore, false,
      if op = opIDENTIFY then s.identity else note⟩
    let used := s.mbx.cmds.any (fun d => (d.ref.transport == r.transport) && (d.tag == tag))
    let rec6 := if cmdChanges op then s.mbx.tags.find? (fun t => t.tag == tag && t.op == op) else none
    let s := (s.setLock r true).count R.CNT_MBX_LOCK_COUNT
    let s := { s with mbx := { s.mbx with takes := s.mbx.takes + 1, cmds := s.mbx.cmds ++ [c] } }
    if 4 ≤ field b 6 1 ∨ 64 ≤ field b 7 1 ∨ field b 8 8 ≠ 0 ∨ 240 < n then s.finalEntry c stBAD_PARAM 0 1 0 []
    else if (cmdInfo op).isNone then s.finalEntry c stBAD_OPCODE 0 1 0 []
    else if !plenOk op n p then s.finalEntry c stBAD_LENGTH 0 1 0 []
    else if used then s.finalEntry c stTAG_IN_USE 0 1 (cmdClass op) []
    else match rec6 with
      | some t => s.finalEntry c t.status t.detail 5 (cmdClass op) t.result
      | none =>
        if s.admission op p ≠ 0 then s.finalEntry c (s.admission op p) 0 1 (cmdClass op) []
        else if s.conflicts op then s.finalEntry c stBUSY 0 1 (cmdClass op) []
        else s

/-- A CMD datagram of the open session, or an open command outside one (R264, R265). -/
def State.takeUdp (s : State) (d : Datagram) : State :=
  let b := d.bytes
  let body := b.drop 16
  let seq := field b 8 4
  let crcOk := field b 12 4 == crc32c (b.take 12 ++ [0, 0, 0, 0] ++ body)
  let good := (field b 0 2 == 0x5547) && (field b 2 1 == 1) && (field b 6 2 == body.length) && crcOk && s.flag R.MBX_UDP_CFG_EN
  let op := field body 0 2
  let isOpen := (op == opUDP_OPEN) && (field b 4 2 == 0)
  let inSession := s.flag R.MBX_UDP_SESS_OPEN && (field b 4 2 == s.get R.MBX_UDP_SESS_SESSION)
    && (d.host == s.get R.MBX_UDP_HOST_ADDR)
  let slot := field body 8 1 % 64
  let r : SlotRef := ⟨.udp, slot⟩
  let s := s.ring 81
  if !good || decide (body.length < 16) then s.bump R.MBX_UDP_STAT_DROP
  else if !isOpen && !inSession then
    if s.flag R.MBX_UDP_SESS_OPEN && decide (field b 4 2 ≠ 0) then s.bump R.MBX_UDP_STAT_DROP
    else s.emit (.udp 2 (datagram (field b 4 2) 2 seq (s.entry (field body 2 2) op stNO_SESSION slot 1 0 0 0 0 0)))
  else
    match s.mbx.udpLast.find? (fun x => x.1 == slot && x.2.1 == seq) with
    | some (_, _, some cpl) => if s.isLocked r then s else s.emit (.udp 2 cpl)
    | some (_, _, none) => s
    | none =>
      let s := if s.isLocked r then s else
        let s := s.putBytes (slotBase r) ((body.take 8 ++ List.replicate 8 0 ++ body.drop 16 ++ List.replicate 240 0).take 256)
        { s with mbx := { s.mbx with udpLast := (slot, seq, none) :: s.mbx.udpLast.filter (fun x => x.1 != slot) } }
      s.take r seq (toBytes 4 d.host ++ [d.port % 2])

/-- A doorbell rings: latched before the vendor firmware runs, taken otherwise (R37, R251). -/
def State.doorbellIn (s : State) (d : DoorbellSrc) : State :=
  if !s.serving then { s with mbx := { s.mbx with latched := s.mbx.latched ++ [d] } }
  else match d with
    | .bar slot => (s.ring 80).take ⟨.bar, slot % 64⟩ 0 []
    | .udp g => s.takeUdp g

/-- The doorbells latched in BOOT are taken (R37). -/
def State.openDoors (s : State) : State :=
  let l := s.mbx.latched
  let s := { s with mbx := { s.mbx with latched := [] } }
  l.foldl State.doorbellIn s

/-- An accepted command may execute now: FENCE and the order of commit hold nothing up (R256). -/
def State.mayRun (s : State) (c : Cmd) : Bool :=
  let earlier := s.mbx.cmds.filter (fun d => decide (d.order < c.order))
  !(s.pair.hold && cmdLogged c.op) && (!bit c.flags 1 || !earlier.any (fun d => d.ref.transport == c.ref.transport))
    && (!cmdChanges c.op || cmdClass c.op == 0
      || !earlier.any (fun d => !d.running && cmdChanges d.op && (cmdClass d.op != 0)))

/-- Blocks that the ROM service of SAFE never started (R299): counters, DRAM, time base, flash table. -/
def romRefuses (op : Nat) : Bool :=
  decide (op = opSNAPSHOT ∨ op = opDROP_READ ∨ op = opPTP_CONFIG ∨ op = opUSAGE_KEY ∨ op = opJOURNAL_READ)

/-- The frame of every mailbox command: the accepted command with this opcode in this slot is executed (R251, R256).  A mode
that has changed since the take is judged again (R36, R38); a stop or abort that comes after another is R276's. -/
def State.runCmd (s : State) (r : SlotRef) (op : Nat) (k : State → Cmd → State) : State :=
  match s.mbx.cmds.find? (fun c => c.ref == r && c.op == op && !c.running) with
  | none => s
  | some c =>
    if !s.mayRun c then s
    else if !s.boot.coresUp && romRefuses op then s.finish c stREFUSED 0xB0
    else if s.admission op (s.payloadOf c) ≠ 0 ∧ op ≠ opJOB_STOP ∧ op ≠ opJOB_ABORT then s.finish c (s.admission op (s.payloadOf c))
    else k s c

/-- A mailbox command as an event. -/
def withCmd (s : State) (r : SlotRef) (op : Nat) (k : State → Cmd → State) : Outc := coreEvent s (fun s => s.runCmd r op k)

/-- MBX_DOORBELL (R251). -/
def execMbxDoorbell (src : DoorbellSrc) (s : State) : Outc :=
  coreEvent s (fun s =>
    match src with
    | .bar _ => if s.mbx.pcieUp then s.doorbellIn src else s
    | .udp _ => s.doorbellIn src)

/-- PCIE_LINK_UP (R37, R259): doorbells are latched from now on; after a host-side reset the first entry is HOST_RESET. -/
def execPcieLinkUp (s : State) : Outc :=
  coreEvent s (fun s =>
    let s := { s with mbx := { s.mbx with pcieUp := true } }
    match s.mbx.resetPending with
    | some n =>
      let s := { s with mbx := { s.mbx with resetPending := none } }
      s.postEvent 0x8006 (n % 2 ^ 16) 0
    | none => s)

/-- PERST_N_RELEASE (R248): link training may start. -/
def execPerstNRelease (s : State) : Outc :=
  coreEvent s (fun s => { s with mbx := { s.mbx with perst := true } })

/-- CQ_HEAD_WRITE (R253): entries are released, a LOST condition may end. -/
def State.cqHead (s : State) (v : Nat) : State := ((s.put R.MBX_CQ_HEAD_HEAD v).ring srcMBXCQ).postLost
def execCqHeadWrite (v : Nat) (s : State) : Outc := coreEvent s (fun s => s.cqHead v)

/-- IRQ_GAP_END (R254): the merged message of the gap is sent and opens the next gap; a masked vector becomes pending. -/
def execIrqGapEnd (vec : Nat) (s : State) : Outc :=
  coreEvent s (fun s =>
    match s.mbx.gaps.find? (fun g => g.1 == vec) with
    | some (_, due) =>
      let s := { s with mbx := { s.mbx with gaps := s.mbx.gaps.filter (fun g => g.1 != vec) } }
      if due then s.sendIrq vec else s
    | none => s)

/-- LONG_PROGRESS (R255): a running long command posts IN_PROGRESS. -/
def execLongProgress (r : SlotRef) (s : State) : Outc :=
  coreEvent s (fun s =>
    match s.mbx.cmds.find? (fun c => c.ref == r && c.running) with
    | some c => s.postProgress c
    | none => s)

/-- Fields of the host-facing registers that a host-side reset clears (R259): a row at its reset value. -/
def State.resetFields (s : State) (l : List Fld) : State := l.foldl (fun s f => s.put f (dfltReg f.key)) s

end Sys2Proof.Machine
end

