-- ==== Sys2Proof/Machine/PathOps.lean ====
section
/-! DEFINITION. Shared operations on the line path (chapters 1, 2, 5): which ports and lanes take part, page lines,
discarding work. -/

namespace Sys2Proof.Machine

/-- Logical lanes that render nozzles of a port (R92, Table 5.1). -/
def lanesOf (p : Nat) : List Nat := (List.range 32).filter (fun k => decide (6144 * k < 8192 * (p + 1) ∧ 8192 * p < 6144 * (k + 1)))

/-- Ports a logical lane renders nozzles of (R92). -/
def portsOf (k : Nat) : List Nat := (List.range 24).filter (fun p => decide (6144 * k < 8192 * (p + 1) ∧ 8192 * p < 6144 * (k + 1)))

/-- A port is enabled in the geometry in force (R277). -/
def State.portEnabled (s : State) (p : Nat) : Bool := decide (p < s.nPorts) && (s.store.planeOf.getD p 0xFF != 0xFF)

/-- The enabled ports. -/
def State.enabledPorts (s : State) : List Nat := (List.range 24).filter s.portEnabled

/-- A unit of a fault source is parted (R365). -/
def State.unitParted (s : State) (src unit : Nat) : Bool :=
  s.acct.parted.any (fun (u : PartedUnit) => u.src == src && u.unit == unit)

/-- A head port is parted. -/
def State.portParted (s : State) (p : Nat) : Bool := s.unitParted p p

/-- OFFSET of a port for a fire line (R15, R42): the newest entry at or before the line, else the skew table. -/
def State.offsetAt (s : State) (p n : Nat) : Nat :=
  match (s.port p).offs.find? (fun (e : Nat × Nat) => decide (e.1 ≤ n)) with
  | some e => e.2
  | none => s.get (R.BLT_SKEW_OFFSET p)

/-- A band of the job is a gap band (R274); band numbers wrap (R50), so a range of a continuous job may pass 2³². -/
def JobDef.gap (d : JobDef) (b : Nat) : Bool :=
  (d.period != 0 && decide (d.period - d.gapLen ≤ b % 2 ^ 32 % d.period))
    || d.ranges.any (fun (r : Nat × Nat) => decide ((b % 2 ^ 32 + 2 ^ 32 - r.1) % 2 ^ 32 < r.2))

/-- The page line fire line n prints on a port, `none` outside the job (R15, R275). -/
def State.pageLine (s : State) (p n : Nat) : Option Nat :=
  match s.store.cur with
  | none => none
  | some j =>
    let off := s.offsetAt p n
    if n < off then none
    else
      let pl := 64 * s.path.startBand + n - off
      if j.d.continuous then some (pl % 2 ^ 38)
      else if pl ≤ 64 * j.d.lastBand + 63 then some pl else none

/-- Lanes leave what they are rendering of a port's lines from a line on (R106). -/
def State.dropItems (s : State) (p n : Nat) : State :=
  { s with path := { s.path with lanes := s.path.lanes.map (fun (o : Option LaneItem) =>
    match o with
    | some i => if n ≤ i.line ∧ i.ports.contains p = true then none else some i
    | none => none) } }

/-- Uncommitted lines of a port from a line on are discarded: each counts once as shavings (R106). -/
def State.shaveFrom (s : State) (p n : Nat) : State :=
  let gone := ((s.port p).queue.filter (fun (q : QLine) => decide (n ≤ q.line))).length
  let s := s.onPort p (fun x => { x with queue := x.queue.filter (fun (q : QLine) => decide (q.line < n)) })
  ((s.count R.SPN_SHAVINGS_COUNT gone).put R.SPN_QUEUED_COUNT (s.get R.SPN_QUEUED_COUNT - gone)).dropItems p n

/-- Every uncommitted line of a port is discarded. -/
def State.shaveAll (s : State) (p : Nat) : State := s.shaveFrom p 0

/-- A port-line that was handed off with data (R376: it counts in CNT_COMMITTED until it fires or is discarded). -/
def CLine.handed (c : CLine) : Bool := decide (c.blank = 0 ∨ c.blank = 2)

/-- Every committed unfired line of a port is discarded (R41, R46). -/
def State.shaveCommitted (s : State) (p : Nat) : State :=
  let gone := ((s.port p).committed.filter CLine.handed).length
  let s := s.onPort p (fun x => { x with committed := [] })
  (s.count R.CNT_CSHAV_COUNT gone).put R.CNT_COMMITTED_COUNT (s.get R.CNT_COMMITTED_COUNT - gone)

/-- Pending skew changes are dropped, with ARM cleared and REFUSED left 0 (R63). -/
def State.dropSkew (s : State) : State :=
  let s := s.forEach (List.range 24) (fun s p => s.put (R.BLT_SKEW_PEND_ARM p) 0)
  { s with path := { s.path with changes := s.path.changes.filter (fun (c : Change) => match c.kind with | .skew _ _ => false | _ => true) } }

/-- Line triggering ends (R40–R42). -/
def State.disarm (s : State) : State :=
  let s := s.put R.ENC_STAT_TRIG_LAG 0
  { s with
    path := { s.path with
      armed := false, test := none, stop := none, closed := false, tau := [], changes := s.path.changes.filter (fun (c : Change) =>
        match c.kind with | .skew _ _ => false | .cls _ => false | _ => true) }
    line := { s.line with due := [], sched := none } }

/-- The lines of every port, committed and uncommitted, are discarded and triggering ends (R41, R46). -/
def State.discardAll (s : State) : State :=
  (s.forEach (List.range 24) (fun s p => (s.shaveAll p).shaveCommitted p)).disarm

/-- The run-ahead window W (R105, Table 5.7). -/
def State.window (s : State) : Nat := max 8 (min 64 (s.get R.SPN_CTRL_WINDOW))

/-- The render cursor: the last line whose start is allowed (R105). -/
def State.cursorLine (s : State) : Nat := s.path.next + s.window - 1

/-- The waveform class of a fire line: that of the decisions in force (R153). -/
def State.classOf (s : State) (n : Nat) : Nat :=
  match s.path.clsAt.find? (fun (e : Nat × Nat) => decide (e.1 ≤ n)) with
  | some e => e.2
  | none => s.get R.FIR_CTRL_CLASS_SEL

/-- The first fire line that a change accepted now can affect (R21, R221). -/
def State.firstLine (s : State) : Nat :=
  if s.logOpen then s.path.next + (if 3 ≤ popcount 4 (s.pair.lanes) then 7 else 9) else s.path.next + 5

end Sys2Proof.Machine
end

