-- ==== Sys2Proof/Machine/Hic.lean ====
section
/-! DEFINITION. The interrupt controller and the cores' accesses (chapter 14): commands HIC_DOORBELL to ACCESS_FAULT. -/

namespace Sys2Proof.Machine

/-- A core executes: it exists, is not parted and not asleep (R315, R316). -/
def State.coreRuns (s : State) (c : Nat) : Bool := decide (c < 6) && !s.corePartedB c && !s.coreAsleep c

/-- A core is an open core (R314). -/
def isOpenCore (c : Nat) : Bool := decide (c = 4 ∨ c = 5)

/-- The recording of a violation and the fault entry of the core (R319). -/
def State.violation (s : State) (core addr : Nat) (k : AccessKind) : State :=
  let s := if s.flag R.HIC_AVIOL_INFO_VALID then s else
    let s := s.put R.HIC_AVIOL_ADDR_ADDR addr
    let s := s.put R.HIC_AVIOL_INFO_CORE core
    let s := s.put R.HIC_AVIOL_INFO_WRITE (b2n (k == .write))
    let s := s.put R.HIC_AVIOL_INFO_EXEC (b2n (k == .exec))
    (s.put R.HIC_AVIOL_INFO_VALID 1).ring srcAVIOL
  s.emit (.coreEntry core 0x80)

/-- HIC_DOORBELL: SW sources only, open cores SW_48 to SW_63 (R323, R331). -/
def State.doorbell (s : State) (core v : Nat) : State :=
  let src := v % 512
  if (if isOpenCore core then decide (176 ≤ src ∧ src ≤ 191) else decide (128 ≤ src ∧ src ≤ 191)) then s.ring src
  else s.hicStat R.HIC_STAT_BADDB

/-- One bit of HIC_CLAIM (R325). -/
def State.claim (s : State) (core src : Nat) : State :=
  if hicExists src && s.deliverable src core then
    let s := (s.putInsvc src true).putPend src false
    let s := s.put (R.HIC_ROUTE_CLAIMER src) core
    let s := if s.flag (R.HIC_ROUTE_CLASS src) then s.put (R.HIC_CORE_INFAST core) 1 else s
    s.settle src
  else s.hicStat (R.HIC_CORE_BAD_CLAIM core)

/-- A core still serves a fast-class source. -/
def State.servesFast (s : State) (core : Nat) : Bool :=
  hicSources.any (fun src => s.insvc src && (s.get (R.HIC_ROUTE_CLAIMER src) == core) && s.flag (R.HIC_ROUTE_CLASS src))

/-- HIC_EOI (R326, R327, R329). -/
def State.eoi (s : State) (core v : Nat) : State :=
  let src := v % 512
  if hicExists src && s.insvc src && (s.get (R.HIC_ROUTE_CLAIMER src) == core) then
    let s := (s.putInsvc src false).put (R.HIC_ROUTE_CLAIMER src) 0
    let s := if bit v 31 then s.bump (R.HIC_SPUR_COUNT src) else s
    let s := if s.isLevel src then s.putPend src (s.flag (R.HIC_EXT_LINE src)) else s
    let s := (s.put (R.HIC_ROUTE_CUR src) (s.routeTarget src)).put (R.HIC_ROUTE_REDIR src) 0
    let s := if s.servesFast core then s else s.put (R.HIC_CORE_INFAST core) 0
    s.settle src
  else s.hicStat (R.HIC_CORE_BAD_EOI core)

/-- A write of HIC_ROUTE_s (R328, R331). -/
def State.routeWrite (s : State) (core src v : Nat) : State :=
  if !hicExists src then s
  else if isOpenCore core && !openSource src then s.violation core (0x40002000 + 4 * src) .write
  else if isOpenCore core && (decide (v % 8 < 4) || decide (v / 8 % 8 < 4)) then s
  else
    let s := s.put (R.HIC_ROUTE_CORE src) v
    let s := s.put (R.HIC_ROUTE_ALT src) (v / 8)
    let s := s.put (R.HIC_ROUTE_CLASS src) (v / 64)
    let s := s.put (R.HIC_ROUTE_WAKE src) (v / 128)
    let s := (s.put (R.HIC_ROUTE_CUR src) (s.routeTarget src)).put (R.HIC_ROUTE_REDIR src) 0
    ({ s with hic := { s.hic with redirect := s.hic.redirect.filter (· != src) } }).settle src

/-- The sources a set or clear word names that the writer may touch (R321, R331). -/
def wordSources (core w v : Nat) : List Nat :=
  ((members 32 v).map (fun b => 32 * w + b)).filter (fun src => hicExists src && (!isOpenCore core || openSource src))

/-- HIC_PEND_SET and HIC_PEND_CLR act on edge sources (R327). -/
def State.pendSet (s : State) (core w v : Nat) : State := s.forEach (wordSources core w v) State.ring
def State.pendClr (s : State) (core w v : Nat) : State :=
  s.forEach (wordSources core w v) (fun s src => if s.isLevel src then s else (s.putPend src false).settle src)

/-- HIC_EN_SET and HIC_EN_CLR (R324). -/
def State.enSet (s : State) (core w v : Nat) : State :=
  s.forEach (wordSources core w v) (fun s src => (s.setIn (R.HIC_EN_EN w) (src % 32)).settle src)
def State.enClr (s : State) (core w v : Nat) : State :=
  s.forEach (wordSources core w v) (fun s src => (s.clrIn (R.HIC_EN_EN w) (src % 32)).settle src)

/-- The filtered line of EXT_IRQn under its SENSE (R322). -/
def State.extActive (s : State) (n : Nat) : Bool :=
  let high := bit s.hic.extLevel n
  if s.get (R.HIC_EXT_SENSE n) % 2 = 0 then high else !high

/-- The line of EXT_IRQn is shown, and a level source follows it (R322, R327). -/
def State.extShow (s : State) (n : Nat) : State := (s.put (R.HIC_EXT_LINE n) (b2n (s.extActive n))).levelFollow n

/-- A write of HIC_EXT_n: filter and sense; the filter count restarts (R322). -/
def State.extWrite (s : State) (core n v : Nat) : State :=
  if 16 ≤ n then s
  else if isOpenCore core then s.violation core (0x40003000 + 4 * n) .write
  else
    let s := (s.put (R.HIC_EXT_FILT n) v).put (R.HIC_EXT_SENSE n) (v / 256)
    let s := s.put (R.HIC_ROUTE_LEVEL n) (b2n (decide (v / 256 % 4 < 2)))
    let s := { s with hic := { s.hic with extCount := modifyNth s.hic.extCount n (fun _ => 0) } }
    s.extShow n

/-- The filter of EXT_IRQn accepts a level (R322). -/
def State.extAccept (s : State) (n : Nat) (level : Bool) : State :=
  if 16 ≤ n ∨ bit s.hic.extLevel n = level then s
  else
    let s := { s with hic := { s.hic with
      extLevel := if level then setBit s.hic.extLevel n else clrBit s.hic.extLevel n,
      extCount := modifyNth s.hic.extCount n (fun _ => 0) } }
    let s := s.extShow n
    if s.isLevel n then s
    else if level = (s.get (R.HIC_EXT_SENSE n) == 2) then s.ring n else s

/-- Delivery moves to ALT when the redirect timer has run out (R329). -/
def State.redirectNow (s : State) (src : Nat) : State :=
  match s.curCore src with
  | some c =>
    if s.hic.redirect.contains src && s.deliverable src c && s.coreAsleep c then
      let a := s.get (R.HIC_ROUTE_ALT src)
      let s := { s with hic := { s.hic with redirect := s.hic.redirect.filter (· != src) } }
      let s := (s.put (R.HIC_ROUTE_CUR src) a).put (R.HIC_ROUTE_REDIR src) 1
      let s := s.hicStat R.HIC_STAT_REDIRECT
      if a < 6 then s.wakeCore a else s
    else s
  | none => s

/-- A timer whose compare value is reached rings, and advances or stops (R332). -/
def State.timerRing (s : State) (n : Nat) : State :=
  let d := sdiff40 s.time40 (s.get (R.HIC_TMR_CMP_CMP n))
  if n < 16 ∧ s.flag (R.HIC_TMR_CTRL_EN n) = true ∧ 0 ≤ d then
    let p := s.get (R.HIC_TMR_PERIOD_PERIOD n)
    let s := if p = 0 then s.put (R.HIC_TMR_CTRL_EN n) 0
      else s.put (R.HIC_TMR_CMP_CMP n) (s.get (R.HIC_TMR_CMP_CMP n) + p * (d.toNat / p + 1))
    s.ring (112 + n)
  else s

/-- A core executes its sleep instruction (R316, R329). -/
def State.sleep (s : State) (c : Nat) : State :=
  let s := s.put (R.HIC_CORE_SLEEP c) 1
  s.forEach hicSources (fun s src => if s.curCore src == some c then s.settle src else s)

/-- What Table 14.1 lets an open core do at an address: read, write, execute; `none` where nothing is mapped. -/
def State.openRights (s : State) (a : Nat) : Option (Bool × Bool × Bool) :=
  if 0x20000000 ≤ a ∧ a < 0x20600000 then some (false, false, false)
  else if 0x20600000 ≤ a ∧ a < 0x20800000 then
    if a < 0x20600000 + s.boot.ocLen then some (true, false, true) else some (true, true, false)
  else if 0x40000000 ≤ a ∧ a < 0x40100000 then some (true, true, false)
  else if 0x40100000 ≤ a ∧ a < 0x40300000 then some (false, false, false)
  else if 0x40300000 ≤ a ∧ a < 0x40500000 then some (true, false, false)
  else if 0x40600000 ≤ a ∧ a < 0x40680000 then some (true, false, false)
  else if 0x40680000 ≤ a ∧ a < 0x40700000 then some (true, true, false)
  else if 0x40700000 ≤ a ∧ a < 0x40B00000 then some (true, false, false)
  else if 0x40B00000 ≤ a ∧ a < 0x40C00000 then some (false, false, false)
  else if 0x40C00000 ≤ a ∧ a < 0x41200000 then some (true, false, false)
  else if 0x42000000 ≤ a ∧ a < 0x42100000 then some (true, false, false)
  else if 0x42100000 ≤ a ∧ a < 0x42200000 then some (false, false, false)
  else if 0x42200000 ≤ a ∧ a < 0x42400000 then some (true, false, false)
  else none

/-- Table 14.1 or R315 denies an access (R319).  The writes R331 denies inside the HIC are judged by their own rows. -/
def State.denied (s : State) (core addr : Nat) (k : AccessKind) : Bool :=
  match s.openRights addr with
  | none => true
  | some (r, w, x) =>
    if isOpenCore core then (match k with | .read => !r | .write => !w | .exec => !x)
    else match k with
      | .read => false
      | .write => decide (0x20000000 ≤ addr ∧ addr < 0x20200000) && s.boot.coresUp
      | .exec => !decide (0x20000000 ≤ addr ∧ addr < 0x20200000)

/-- HIC_DOORBELL (R323). -/
def execHicDoorbell (core v : Nat) (s : State) : Outc :=
  coreEvent s (fun s => if s.coreRuns core then s.doorbell core v else s)

/-- HIC_CLAIM (R325): each bit of the write is judged on its own. -/
def execHicClaim (core w v : Nat) (s : State) : Outc :=
  coreEvent s (fun s => if s.coreRuns core && decide (w < 12) then
    s.forEach ((members 32 v).map (fun b => 32 * w + b)) (fun s src => s.claim core src) else s)

/-- HIC_EOI (R326). -/
def execHicEoi (core v : Nat) (s : State) : Outc :=
  coreEvent s (fun s => if s.coreRuns core then s.eoi core v else s)

/-- HIC_ROUTE_WRITE (R328). -/
def execHicRouteWrite (core src v : Nat) (s : State) : Outc :=
  coreEvent s (fun s => if s.coreRuns core then s.routeWrite core src v else s)

/-- HIC_PEND_SET (R327). -/
def execHicPendSet (core w v : Nat) (s : State) : Outc :=
  coreEvent s (fun s => if s.coreRuns core then s.pendSet core w v else s)

/-- HIC_PEND_CLR (R327). -/
def execHicPendClr (core w v : Nat) (s : State) : Outc :=
  coreEvent s (fun s => if s.coreRuns core then s.pendClr core w v else s)

/-- HIC_EN_SET (R324). -/
def execHicEnSet (core w v : Nat) (s : State) : Outc :=
  coreEvent s (fun s => if s.coreRuns core then s.enSet core w v else s)

/-- HIC_EN_CLR (R324). -/
def execHicEnClr (core w v : Nat) (s : State) : Outc :=
  coreEvent s (fun s => if s.coreRuns core then s.enClr core w v else s)

/-- HIC_EXT_WRITE (R322). -/
def execHicExtWrite (core n v : Nat) (s : State) : Outc :=
  coreEvent s (fun s => if s.coreRuns core then s.extWrite core n v else s)

/-- EXT_IRQ_EDGE (R322). -/
def execExtIrqEdge (n : Nat) (level : Bool) (s : State) : Outc := coreEvent s (fun s => s.extAccept n level)

/-- REDIRECT_TIMEOUT (R329). -/
def execRedirectTimeout (src : Nat) (s : State) : Outc := coreEvent s (fun s => s.redirectNow src)

/-- HIC_TIMER (R332). -/
def execHicTimer (n : Nat) (s : State) : Outc := coreEvent s (fun s => s.timerRing n)

/-- CORE_SLEEP (R316). -/
def execCoreSleep (c : Nat) (s : State) : Outc := coreEvent s (fun s => if s.coreRuns c then s.sleep c else s)

/-- ACCESS_FAULT (R319): the access is not performed; it is recorded and the core takes the fault entry. -/
def execAccessFault (core addr : Nat) (kind : AccessKind) (s : State) : Outc :=
  coreEvent s (fun s => if s.coreRuns core && s.denied core addr kind then s.violation core addr kind else s)

end Sys2Proof.Machine
end

