-- ==== Sys2Proof/Machine/TimeBase.lean ====
section
/-! DEFINITION. Time base and network time (chapter 16): TIME40, PTP acquisition, lock and holdover. -/

namespace Sys2Proof.Machine

/-- One 0.625 ns tick of TIME40 through the sub-nanosecond accumulator, in units of 2⁻⁴³ ns (R349). -/
def State.timeTick (s : State) : State :=
  let acc := s.subNs + (5 * ((2 ^ 40 : Nat) + signed 32 (s.get R.TMB_RATE_R))).toNat
  let t := s.time40 + acc / 2 ^ 43
  { s with
    now := s.now + 1
    subNs := acc % 2 ^ 43
    time40 := t % 2 ^ 40
    tmb := { s.tmb with epoch := s.tmb.epoch.map (· + t / 2 ^ 40) } }

/-- PTP time in ns, TIME40 mod 10⁹ before acquisition (R350). -/
def State.ptpNow (s : State) : Nat :=
  match s.tmb.epoch with
  | some e => e * 2 ^ 40 + s.time40
  | none => s.time40 % 1000000000

/-- PROFILE and DOMAIN as they act (Table 16.5). -/
def State.ptpProfile (s : State) : Nat := if 4 ≤ s.get R.TMB_CFG_PROFILE then 0 else s.get R.TMB_CFG_PROFILE
def State.ptpDomain (s : State) : Nat := min 127 (s.get R.TMB_CFG_DOMAIN)

/-- An Ethernet port takes part in PTP. -/
def State.ptpEnabled (s : State) (n : Nat) : Bool := (n == 0 && s.flag R.TMB_CFG_P0EN) || (n == 1 && s.flag R.TMB_CFG_P1EN)

/-- TMB_STAT.STATE codes. -/
def tmbFREE : Nat := 0
def tmbACQUIRING : Nat := 1
def tmbLOCKED : Nat := 2
def tmbHOLDOVER : Nat := 3

/-- The port states shown, TMB_STAT.SLAVE with them. -/
def State.ptpPorts (s : State) (l : List Nat) : State :=
  ({ s with tmb := { s.tmb with ports := l } } : State).put R.TMB_STAT_SLAVE (b2n (l.getD 0 0 == 1) + 2 * b2n (l.getD 1 0 == 1))

/-- Acquisition begins (R354); `fresh` where the profile, the domain or the port set changed: the ports listen again. -/
def State.acquire (s : State) (fresh : Bool) : State :=
  let s := { s with tmb := { s.tmb with offs := [], meanDone := false, inLock := 0, large := 0 } }
  let s := if fresh then
      ({ s with tmb := { s.tmb with heard := [none, none], delay := [none, none] } } : State).ptpPorts [0, 0] else s
  s.put R.TMB_STAT_STATE (if s.ptpEnabled 0 || s.ptpEnabled 1 then tmbACQUIRING else tmbFREE)

/-- A write of TMB_CFG: a change of bits [15:0] restarts acquisition (R354, Table 16.5). -/
def State.tmbCfg (s : State) (v : Nat) : State :=
  let old := [s.get R.TMB_CFG_P0EN, s.get R.TMB_CFG_P1EN, s.get R.TMB_CFG_BOUNDARY, s.get R.TMB_CFG_TWO_STEP,
    s.get R.TMB_CFG_PROFILE, s.get R.TMB_CFG_DOMAIN]
  let s := ((s.put R.TMB_CFG_P0EN v).put R.TMB_CFG_P1EN (v / 2)).put R.TMB_CFG_BOUNDARY (v / 4)
  let s := ((s.put R.TMB_CFG_TWO_STEP (v / 8)).put R.TMB_CFG_PROFILE (v / 16)).put R.TMB_CFG_DOMAIN (v / 256)
  let s := s.put R.TMB_CFG_LOCK_NS (v / 65536)
  if old = [s.get R.TMB_CFG_P0EN, s.get R.TMB_CFG_P1EN, s.get R.TMB_CFG_BOUNDARY, s.get R.TMB_CFG_TWO_STEP,
    s.get R.TMB_CFG_PROFILE, s.get R.TMB_CFG_DOMAIN] then s else s.acquire true

/-- TMB_CFG_WRITE (R354). -/
def execTmbCfgWrite (v : Nat) (s : State) : Outc := coreEvent s (fun s => s.tmbCfg v)

/-- A write of TMB_CTRL (R354): REACQ permits one step. -/
def State.tmbCtrl (s : State) (v : Nat) : State :=
  if bit v 0 && (s.ptpEnabled 0 || s.ptpEnabled 1) then s.acquire false else s

/-- TMB_REACQ (R354). -/
def execTmbReacq (s : State) : Outc := coreEvent s (fun s => s.tmbCtrl 1)

/-- A message outside the subset is dropped and counted (R351); `lo` and `hi` bound its logMessageInterval. -/
def State.ptpBad (s : State) (h : PtpHead) (lo hi : Int) : Bool :=
  decide (h.version ≠ 2 ∨ h.domain ≠ s.ptpDomain ∨ h.logInterval < lo ∨ hi < h.logInterval)

/-- The comparison key of clause 9.3: the better data set is the smaller list (R351). -/
def announceKey (a : PtpAnnounce) (port : Nat) : List Nat :=
  [a.priority1, a.clockClass, a.accuracy, a.variance, a.priority2] ++ a.gmId ++ [a.stepsRemoved] ++ a.sender ++ [port]

/-- Lexicographic order of the keys. -/
def keyLess : List Nat → List Nat → Bool
  | [], [] => false
  | [], _ => true
  | _, [] => false
  | a :: s, b :: t => decide (a < b) || (decide (a = b) && keyLess s t)

/-- The port that receives the best Announce (R353). -/
def State.bestPort (s : State) : Option (Nat × PtpAnnounce) :=
  let h (n : Nat) := if s.ptpEnabled n then s.tmb.heard.getD n none else none
  match h 0, h 1 with
  | some a, some b => if keyLess (announceKey b 1) (announceKey a 0) then some (1, b) else some (0, a)
  | some a, none => some (0, a)
  | none, some b => some (1, b)
  | none, none => none

/-- Port states after BMCA (R353): the port of the best Announce is SLAVE; the other one MASTER on a locked boundary clock,
LISTENING on one that is not locked, PASSIVE on an ordinary clock. -/
def State.bmca (s : State) : State :=
  match s.bestPort with
  | none => s.ptpPorts [0, 0]
  | some (n, a) =>
    let st := s.get R.TMB_STAT_STATE
    let other := 1 - n
    let o := if !s.ptpEnabled other then 0
      else if s.flag R.TMB_CFG_BOUNDARY then (if st = tmbLOCKED ∨ st = tmbHOLDOVER then 2 else 0) else 3
    let s := s.ptpPorts (if n = 0 then [1, o] else [o, 1])
    let s := (s.put R.TMB_UTC_OFFSET a.utcOffset).put R.TMB_UTC_VALID (b2n a.utcValid)
    if s.tmb.gm = some a.gmId then s
    else
      let s := if s.tmb.gm.isSome then s.bump R.TMB_CNT_GMCHANGE else s
      ({ s with tmb := { s.tmb with gm := some a.gmId } } : State).put R.TMB_GM_ID_ID (ofBytes a.gmId)

/-- What the MASTER port of a boundary clock sends on (R353). -/
def State.ptpRelay (s : State) (kind : Nat) : State :=
  s.forEach [0, 1] (fun s n => if s.tmb.ports.getD n 0 = 2 then s.emit (.ptp n kind) else s)

/-- ANNOUNCE_MESSAGE (R353, R355). -/
def execAnnounceMessage (port : Nat) (msg : PtpAnnounce) (s : State) : Outc :=
  coreEvent s (fun s =>
    if !s.ptpEnabled port then s
    else if s.ptpBad msg.head (-3) 4 then s.bump R.TMB_CNT_BADMSG
    else
      let s := { s with tmb := { s.tmb with heard := modifyNth s.tmb.heard port (fun _ => some msg) } }
      s.bmca.ptpRelay 0xB)

/-- ANNOUNCE_TIMEOUT (R355): the port's master is gone; with no other qualified master STATE becomes HOLDOVER and TMB_RATE
holds its mean over the last 16 Sync intervals. -/
def execAnnounceTimeout (port : Nat) (s : State) : Outc :=
  coreEvent s (fun s =>
    if !(s.ptpEnabled port) || (s.tmb.heard.getD port none).isNone then s
    else
      let s := { s with tmb := { s.tmb with heard := modifyNth s.tmb.heard port (fun _ => none) } }
      match s.bestPort with
      | some _ => s.bmca
      | none =>
        let s := s.ptpPorts [0, 0]
        let s := s.put R.TMB_STAT_STATE tmbHOLDOVER
        let n : Int := s.tmb.rates.length
        let s := if n = 0 then s else s.put R.TMB_RATE_R (unsigned 32 (roundDiv (s.tmb.rates.foldl (· + ·) 0) n))
        let s := { s with tmb := { s.tmb with inLock := 0, large := 0 } }
        s.raise R.TMB_STAT_LOST_GM srcTMB)

/-- The mean path delay of an exchange in 1/16 ns, local stamps corrected (R356). -/
def State.pathDelay (s : State) (port : Nat) (m : PtpDelay) : Int :=
  let inA := signed 32 (s.get (R.TMB_ASYM_IN_ASYM port))
  let egA := signed 32 (s.get (R.TMB_ASYM_EG_ASYM port))
  let p2p := decide (2 ≤ s.ptpProfile)
  let t1 : Int := (m.t1 : Int) + (if p2p then egA else 0)
  let t2 : Int := (m.t2 : Int) - (if p2p then 0 else inA)
  let t3 : Int := (m.t3 : Int) + (if p2p then 0 else egA)
  let t4 : Int := (m.t4 : Int) - (if p2p then inA else 0)
  roundDiv (((t2 - t1) + (t4 - t3)) * 4096 - m.correction) 8192

/-- DELAY_MESSAGE (R356, R353): measured on the SLAVE port, and under the peer-to-peer profiles on every enabled port. -/
def execDelayMessage (port : Nat) (msg : PtpDelay) (s : State) : Outc :=
  coreEvent s (fun s =>
    if !s.ptpEnabled port then s
    else if s.ptpBad msg.head (-7) 5 then s.bump R.TMB_CNT_BADMSG
    else if s.tmb.ports.getD port 0 = 2 ∧ s.ptpProfile < 2 then s.emit (.ptp port 9)
    else if s.tmb.ports.getD port 0 = 1 ∨ 2 ≤ s.ptpProfile then
      let d := s.pathDelay port msg
      let s := { s with tmb := { s.tmb with delay := modifyNth s.tmb.delay port (fun _ => some d) } }
      if s.tmb.ports.getD port 0 = 1 then s.put R.TMB_PATHDLY_D (unsigned 32 d) else s
    else s)

/-- Half the span of TIME40 differences, in 2⁻¹⁶ ns. -/
def wrapOffset (o : Int) : Int :=
  let w : Int := (2 ^ 56 : Nat)
  let r := o % w
  if 2 * r < w then r else r - w

/-- Master time of a Sync at its ingress, 2⁻¹⁶ ns (R354, R356). -/
def masterTime (m : PtpSync) (delay : Int) : Int :=
  ((m.seconds * 1000000000 + m.ns : Nat) : Int) * 65536 + m.correction + delay * 4096

/-- The offset TIME40 − master time of a Sync, 2⁻¹⁶ ns. -/
def State.syncOffset (s : State) (port : Nat) (m : PtpSync) (delay : Int) : Int :=
  wrapOffset (((m.rawIn : Int) - signed 32 (s.get (R.TMB_ASYM_IN_ASYM port))) * 4096 - masterTime m delay)

/-- A signed value saturated to 32 bits. -/
def sat32 (v : Int) : Int := max (-2147483648) (min 2147483647 v)

/-- ±200 ppm in units of 2⁻⁴⁰ (R354). -/
def rateMax : Nat := 219902325

/-- The servo's next TMB_RATE (R354, R355): its law is not in the spec, so the value is a free one within ±200 ppm; after a
large offset correction runs at the bound. -/
def State.servo (s : State) (o : Int) : State :=
  let free : Int := ((s.freeVal 32 % (2 * rateMax + 1) : Nat) : Int) - (rateMax : Int)
  let r : Int := if 4 ≤ s.tmb.large then (if 0 < o then -(rateMax : Int) else (rateMax : Int)) else free
  let s := if 4 ≤ s.tmb.large then s else s.took
  ({ s with tmb := { s.tmb with rates := (r :: s.tmb.rates).take 16 } } : State).put R.TMB_RATE_R (unsigned 32 r)

/-- The acquisition step (R354, R359): TIME40 − `a` in one update; a timer it carries past its compare value rings at once. -/
def State.timeStep (s : State) (a : Int) : State :=
  let s := { s with time40 := unsigned 40 ((s.time40 : Int) - a) }
  let s := (s.put R.TMB_STEP_AMT_AMT (unsigned 40 (-a))).put R.TMB_STEP_AT_T s.time40
  let s := (s.bump R.TMB_CNT_STEPS).raise R.TMB_STAT_STEPPED srcTMB
  if a < 0 then s.forEach (List.range 16) State.timerRing else s

/-- The PTP second count that goes with TIME40 (R350): the multiple of 2⁴⁰ ns nearest to master time. -/
def epochOf (masterNs : Int) (time40 : Nat) : Nat := ((masterNs - (time40 : Int) + (2 ^ 39 : Nat)) / (2 ^ 40 : Nat)).toNat

/-- A measured offset (R354, R355). -/
def State.offsetIn (s : State) (o : Int) (master : Int) : State :=
  let s := s.put R.TMB_OFFSET_O (unsigned 32 (sat32 (roundDiv o 65536)))
  let st := s.get R.TMB_STAT_STATE
  if st = tmbACQUIRING ∧ s.tmb.meanDone = false then
    let l := (o :: s.tmb.offs).take 4
    let s := { s with tmb := { s.tmb with offs := l } }
    let mx := l.foldl max o
    let mn := l.foldl min o
    if l.length = 4 ∧ mx - mn ≤ 1000 * 65536 then
      let mean := roundDiv (l.foldl (· + ·) 0) (4 * 65536)
      let s := { s with tmb := { s.tmb with meanDone := true, inLock := 0 } }
      let s := if 1000 ≤ mean.natAbs then s.timeStep mean else s
      { s with tmb := { s.tmb with epoch := some (epochOf (master / 65536) s.time40) } }
    else s
  else
    let large := if (st = tmbLOCKED ∨ st = tmbHOLDOVER) ∧ 1000000 * 65536 < o.natAbs then s.tmb.large + 1 else 0
    let inLock := if o.natAbs ≤ max 1 (s.get R.TMB_CFG_LOCK_NS) * 65536 then s.tmb.inLock + 1 else 0
    let s := { s with tmb := { s.tmb with large := large, inLock := inLock } }
    let s := if 4 ≤ large then s.raise R.TMB_STAT_OFFSET_LARGE srcTMB else s
    let s := s.servo o
    if 8 ≤ inLock then (s.put R.TMB_STAT_STATE tmbLOCKED).bmca else s

/-- SYNC_MESSAGE (R354, R356): on the SLAVE port with a valid path delay it yields an offset. -/
def execSyncMessage (port : Nat) (msg : PtpSync) (s : State) : Outc :=
  coreEvent s (fun s =>
    if !s.ptpEnabled port then s
    else if s.ptpBad msg.head (-7) 1 then s.bump R.TMB_CNT_BADMSG
    else if s.tmb.ports.getD port 0 ≠ 1 then s
    else
      let s := s.ptpRelay 0
      match s.tmb.delay.getD port none with
      | none => s
      | some d => s.offsetIn (s.syncOffset port msg d) (masterTime msg d))

end Sys2Proof.Machine
end

