-- ==== Sys2Proof/Machine/EncOps.lean ====
section
/-! DEFINITION. Encoders and line timing (chapter 6): counting, speed, line positions and triggers, cross-check sums,
compare entries.  Stamps are ticks of 0.625 ns of the model's clock; sums and means are exact. -/

namespace Sys2Proof.Machine

/-- One encoder channel. -/
def State.ench (s : State) (n : Nat) : EncCh := s.enc.getD n {}
def State.onEnc (s : State) (n : Nat) (f : EncCh → EncCh) : State := { s with enc := modifyNth s.enc n f }

/-- A rational rounded to the nearest integer, halves up (R125, R127, R130). -/
def roundUp (r : Rat) : Int := (r + 1 / 2).floor

/-- A rational rounded to the nearest integer, halves away from zero (R133). -/
def roundAway (r : Rat) : Int := if 0 ≤ r then (r + 1 / 2).floor else -((-r + 1 / 2).floor)

/-- DIR up (Table 6.5). -/
def State.dirUp (s : State) (n : Nat) : Bool := s.flag (R.ENC_CH_STAT_DIR n)

/-- Position of a channel. -/
def State.posOf (s : State) (n : Nat) : Nat := s.get (R.ENC_CH_POS_POS n)

/-- AVG, REVCNT and type as they act. -/
def State.encType (s : State) (n : Nat) : Nat := if s.get (R.ENC_CH_CFG_TYPE n) = 3 then 0 else s.get (R.ENC_CH_CFG_TYPE n)

/-- The exact count period p in ticks, while speed is valid (R125). -/
def State.countPeriod (s : State) (n : Nat) : Option Rat :=
  if s.flag (R.ENC_CH_STAT_SPEED_VALID n) then
    let c := s.ench n
    let k := min (c.run - 1) (2 ^ min 6 (s.get (R.ENC_CH_CFG_AVG n)))
    let l := c.ivals.take k
    if l.isEmpty then none else some (l.foldl (· + ·) 0 / (l.length : Rat))
  else none

/-- The line source (R133). -/
def State.lineSrc (s : State) : Nat := s.get R.ENC_LINE_CFG_SRC

/-- PITCH × 65,536 + PFRAC as it acts (R126). -/
def State.pitchReg (s : State) : Nat := max 1024 (s.get R.ENC_LINE_PITCH_PITCH) * 65536 + s.get R.ENC_LINE_PFRAC_PFRAC

/-- The exact line period T in ticks, while speed is valid (R130). -/
def State.linePeriod (s : State) : Option Rat :=
  (s.countPeriod s.lineSrc).map (fun (p : Rat) => (s.pitchReg : Rat) * p / (2 ^ 32 : Nat))

/-- ENC_LATENCY in ticks (R127). -/
def State.encLatency (s : State) : Nat := 64 + 4 * max 1 (s.get (R.ENC_CH_CFG_FILT s.lineSrc))

/-- The speed figures of a channel and of the line source are shown (R125, R130). -/
def State.showSpeed (s : State) (n : Nat) : State :=
  let s := match s.countPeriod n with
    | some p => (s.put (R.ENC_CH_PERIOD_P n) (min (2 ^ 32 - 1) (roundUp (16 * p)).toNat)).put (R.ENC_CH_SPEED_V n)
        (if p = 0 then 2 ^ 32 - 1 else min (2 ^ 32 - 1) (roundUp (1600000000 / p)).toNat)
    | none => (s.put (R.ENC_CH_PERIOD_P n) 0).put (R.ENC_CH_SPEED_V n) 0
  if n = s.lineSrc then
    match s.linePeriod with
    | some t => s.put R.ENC_LINE_T_T (min 0xFFFFFF (roundUp t).toNat)
    | none =>
      let s := { s with line := { s.line with hist := [] } }
      (s.put R.ENC_LINE_T_T 0xFFFFFF).put R.ENC_LINE_TP_T 0xFFFFFF
  else s

/-- Speed of a channel becomes not valid (R119, R124). -/
def State.speedOff (s : State) (n : Nat) : State := s.put (R.ENC_CH_STAT_SPEED_VALID n) 0

/-- TIME40 at a stamp of the model's clock, rounded down to the nanosecond, at the rate now in force (R9, R120). -/
def State.timeAt (s : State) (t : Nat) : Nat :=
  let inc : Int := 5 * ((2 ^ 40 : Nat) + signed 32 (s.get R.TMB_RATE_R))
  let acc : Int := (s.time40 * 2 ^ 43 + s.subNs : Nat) + ((t : Int) - (s.now : Int)) * inc
  (acc / (2 ^ 43 : Nat) % (2 ^ 40 : Nat)).toNat

/-- The print direction is up. -/
def State.printUp (s : State) : Bool := !s.flag R.ENC_LINE_CFG_PRINT_DIR

/-- L(n) (R126, R133). -/
def State.linePos (s : State) (n : Nat) : Option Nat :=
  s.line.origin.map (fun (o : Nat) =>
    let d := (n - s.line.base) * s.line.pitch / 65536
    (if s.printUp then o + d else o + (2 ^ 40 - d % 2 ^ 40)) % 2 ^ 40)

/-- Signed distance still to go to a position in a direction: positive while it lies ahead (R127, R138). -/
def ahead (up : Bool) (target pos : Nat) : Int := if up then sdiff40 target pos else sdiff40 pos target

/-- The instant of the next line is scheduled when its position lies inside the count that follows the last one, unless an instant
of that line was withdrawn (R127). -/
def State.schedule (s : State) : State :=
  let src := s.lineSrc
  let at_ : Option Nat :=
    match s.linePos s.line.trig, s.countPeriod src with
    | some l, some p =>
      let d := ahead s.printUp l (s.posOf src)
      if s.encArmed && (s.dirUp src == s.printUp) && decide (s.line.counted ≤ s.line.trig ∧ 0 < d ∧ d < 65536) then
        some (roundUp (((s.ench src).tRun : Rat) + (d : Rat) * p / 65536)).toNat
      else none
    | _, _ => none
  { s with line := { s.line with sched := at_ } }

/-- Line `trig` triggers at an instant: its boundary is due ENC_LATENCY later (R127). -/
def State.trigger (s : State) (t : Nat) (backlog : Bool) : State :=
  let s := { s with line := { s.line with due := s.line.due ++ [⟨s.line.trig, t + s.encLatency, backlog⟩], trig := s.line.trig + 1 } }
  if backlog then s.put R.ENC_STAT_TRIG_LAG 1 else s

/-- Every line whose position is reached triggers at a stamp (R127, R128). -/
def State.reachLines : Nat → Nat → Bool → State → State
  | 0, _, _, s => s
  | fuel + 1, t, backlog, s =>
    match s.linePos s.line.trig with
    | none => s
    | some l =>
      if ahead s.printUp l (s.posOf s.lineSrc) ≤ 0 then State.reachLines fuel t backlog (s.trigger t backlog) else s

/-- Lines reached at a stamp trigger, and the next is scheduled (R127–R129), unless its instant has passed already. -/
def State.lineReach (s : State) (t : Nat) (backlog : Bool) : State :=
  if s.encArmed && (s.dirUp s.lineSrc == s.printUp) then
    let s := (State.reachLines 65536 t backlog s).schedule
    { s with line := { s.line with sched := s.line.sched.filter (fun (i : Nat) => decide (t ≤ i)) } }
  else { s with line := { s.line with sched := none } }

/-- A count against the print direction comes before the instants of the lines inside the present count: they are withdrawn
(R127). -/
def State.withdraw (s : State) (up : Bool) : State :=
  if up == s.printUp || s.line.sched.isNone then s
  else
    let pos := s.posOf s.lineSrc
    let n := ((List.range 65).filter (fun (i : Nat) => match s.linePos (s.line.trig + i) with
      | some l => decide (ahead s.printUp l pos < 65536)
      | none => false)).length
    { s with line := { s.line with sched := none, counted := s.line.trig + n } }

/-- Instants scheduled inside the count that have passed by a stamp trigger their lines (R127). -/
def State.settleSched : Nat → Nat → State → State
  | 0, _, s => s
  | fuel + 1, t, s =>
    match s.line.sched with
    | some i => if i ≤ t then State.settleSched fuel t ((s.trigger i false).schedule) else s
    | none => s

/-- A compare output. -/
def State.cmpOut (s : State) (k : Nat) : CmpOut := s.cmp.getD k {}
def State.onCmp (s : State) (k : Nat) (f : CmpOut → CmpOut) : State := { s with cmp := modifyNth s.cmp k f }

/-- Entry e of compare list k (R144). -/
def cmpEntry (k e : Nat) : Fld := ⟨0x406C0000 + 0x2000 * k + 8 * e, 0, 40⟩

/-- The armed entry's position and the distance still to go (R138). -/
def State.cmpAhead (s : State) (k : Nat) : Int :=
  ahead (!s.flag (R.CMP_CTRL_DIR k)) (s.get (cmpEntry k (s.get (R.CMP_INDEX_INDEX k)))) (s.posOf (s.get (R.CMP_CTRL_SRC k)))

/-- After a count at stamp t the armed entry is reached, scheduled inside the next count, or neither (R127, R138). -/
def State.cmpReach (s : State) (k t : Nat) : State :=
  let o := s.cmpOut k
  let src := s.get (R.CMP_CTRL_SRC k)
  let fwd := s.dirUp src != s.flag (R.CMP_CTRL_DIR k)
  if !o.armed || o.hard || o.late then s
  else
    let d := s.cmpAhead k
    if d ≤ 0 then (if fwd then s.onCmp k (fun o => { o with reach := some t, hard := true }) else s)
    else
      let at_ := match s.countPeriod src with
        | some p => if fwd && !o.counted && decide (d < 65536) then some (roundUp ((t : Rat) + (d : Rat) * p / 65536)).toNat else none
        | none => none
      s.onCmp k (fun o => { o with reach := at_ })

/-- An instant scheduled inside the count that has passed by a stamp stands; a count against the output's direction withdraws
one that has not (R127, R138). -/
def State.cmpHold (s : State) (k t : Nat) (up : Bool) : State :=
  let against := up == s.flag (R.CMP_CTRL_DIR k)
  s.onCmp k (fun o =>
    let hard := o.hard || (match o.reach with | some i => decide (i ≤ t) | none => false)
    { o with hard := hard, counted := o.counted || (against && o.reach.isSome && !hard) })

/-- The position of a channel is loaded: ext moves with it, DIR, run and speed are kept (R123). -/
def State.encLoad (s : State) (n v : Nat) : State :=
  let d := v % 2 ^ 40 + (2 ^ 40 - s.posOf n)
  let s := s.onEnc n (fun c => { c with ext := (c.ext + d) % 2 ^ 40, mark := c.mark.map (fun (m : Nat × Bool) => ((m.1 + d) % 2 ^ 40, m.2)) })
  s.put (R.ENC_CH_POS_POS n) v

/-- Cross-check sums of one count (R131). -/
def State.xchkCount (s : State) (n : Nat) (up : Bool) : State :=
  if !s.flag R.ENC_XCHK_CFG_EN || s.encType 0 == 0 || s.encType 1 == 0 then s
  else
    let one : Int := if up then 1 else -1
    if n = 1 then { s with line := { s.line with w1 := s.line.w1 + one, silent := s.line.silent + 1 } }
    else
      let w0 := s.line.w0 + one
      if max 1 (s.get R.ENC_XCHK_LEN_LEN) ≤ s.line.wn + 1 then
        { s with line := { s.line with wn := 0, w0 := 0, w1 := 0, wbad := false, silent := 0, wdone := some (w0, s.line.w1, s.line.wbad) } }
      else { s with line := { s.line with wn := s.line.wn + 1, w0 := w0, silent := 0 } }

/-- ENC0 shows an error in the window in progress (R132). -/
def State.xchkBad (s : State) (n : Nat) : State :=
  if n = 0 then { s with line := { s.line with wbad := true } } else s

/-- One accepted count of a channel at a stamp, with the interval it ends (R124). -/
def State.count1 (s : State) (n : Nat) (up : Bool) (t : Nat) (iv : Rat) : State :=
  let s := s.put (R.ENC_CH_POS_POS n) (s.posOf n + (if up then 65536 else 2 ^ 40 - 65536))
  let pos := s.posOf n
  let c := s.ench n
  let s := s.put (R.ENC_CH_STAT_STANDSTILL n) 0
  let s := if s.dirUp n = up then
      let beyond := if up then decide (0 < sdiff40 pos c.ext) else decide (sdiff40 pos c.ext < 0)
      let s := s.onEnc n (fun c => { c with
        ext := if beyond then pos else c.ext
        ivals := if 1 ≤ c.run then (iv :: c.ivals).take 64 else []
        run := c.run + 1
        tRun := t })
      if 1 ≤ c.run then s.put (R.ENC_CH_STAT_SPEED_VALID n) 1 else s
    else
      let s := if 2 * 65536 ≤ (sdiff40 pos c.ext).natAbs then
          (s.onEnc n (fun c => { c with ext := pos, run := 1, tRun := t, ivals := [], teeth := [] })).put (R.ENC_CH_STAT_DIR n) (b2n up)
        else s.onEnc n (fun c => { c with run := 0, ivals := [] })
      s.speedOff n
  s.xchkCount n up

/-- What follows the counts of one edge: speed figures, line triggers, compare entries (R125, R127, R128, R138). -/
def State.afterCount (s : State) (n : Nat) (up wasUp : Bool) (t : Nat) : State :=
  let s := s.showSpeed n
  let s := if n = s.lineSrc then
      if up = s.printUp then s.lineReach t (wasUp != s.dirUp n) else { s with line := { s.line with sched := none } }
    else s
  if s.mode == .boot then s
  else s.forEach ((List.range 8).filter (fun (k : Nat) => s.get (R.CMP_CTRL_SRC k) == n)) (fun s k => s.cmpReach k t)

/-- The standby's position is refined at a mark that both members see (R243): the primary's REFPOS travels in no frame, so the
correction is a free value within the coarse error of 16 counts. -/
def State.pairMark (s : State) (n : Nat) : State :=
  if s.pair.join = 4 ∧ s.pair.aligned = 1 ∧ n = s.lineSrc then
    let e : Nat := 2 ^ 40 - 16 + s.freeVal 6 % 33
    let s := (s.took.encLoad n ((s.posOf n + e) % 2 ^ 40)).put R.TSL_POS_DELTA_DELTA (s.get R.TSL_POS_DELTA_DELTA + e)
    { s with pair := { s.pair with aligned := 2 } }
  else s

/-- A reference mark of a channel at a stamp (R120, R122, R126). -/
def State.refMark (s : State) (n t : Nat) : State :=
  let pos := s.posOf n
  let up := s.dirUp n
  let s := ((s.put (R.ENC_CH_REFPOS_POS n) pos).put (R.ENC_CH_REFT_T n) (s.timeAt t)).raise (R.ENC_CH_STAT_REF_SEEN n) srcENC
  let rev := s.get (R.ENC_CH_REVCNT_COUNT n)
  let bad := rev != 0 && (match (s.ench n).mark with
    | some (p, d) => (d == up) && decide ((sdiff40 pos p).natAbs ≠ rev * 65536)
    | none => false)
  let s := s.onEnc n (fun c => { c with mark := some (pos, up) })
  let s := if bad then s.raise (R.ENC_CH_STAT_REF_ERR n) srcENC
    else if s.flag (R.ENC_CH_CFG_ZLOAD n) && up then s.encLoad n (s.get (R.ENC_CH_REFLOAD_POS n)) else s
  let s := s.pairMark n
  if n = s.lineSrc ∧ s.encArmed = true then
    let s := if s.primary && s.line.origin.isNone && (s.dirUp n == s.printUp) then
        let o := (s.posOf n + s.get R.ENC_LINE_ORIGIN_POS) % 2 ^ 40
        ({ s with line := { s.line with origin := some o } } : State).logDecide none 6 5 0 o
      else s
    s.lineReach t false
  else s

/-- An edge of the toothed wheel adds counts: `k` of them, each ending `iv` (R121). -/
def State.teethCounts (s : State) (n : Nat) (up : Bool) (t k : Nat) (iv : Rat) : State :=
  s.forEach (List.range k) (fun s _ => s.count1 n up t iv)

/-- A tooth interval that is none of the shapes R121 allows. -/
def State.toothErr (s : State) (n : Nat) : State :=
  ((s.raise (R.ENC_CH_STAT_TOOTH_ERR n) srcENC).bump (R.ENC_CH_ERRCNT_TOOTH n)).xchkBad n

/-- A single-tooth interval is held for p̄ (R121). -/
def State.tooth (s : State) (n : Nat) (iv : Rat) : State := s.onEnc n (fun c => { c with teeth := (iv :: c.teeth).take 8 })

/-- The reference period p̄ (R121). -/
def State.toothMean (s : State) (n : Nat) : Option Rat :=
  let l := (s.ench n).teeth
  if l.isEmpty then none else some (l.foldl (· + ·) 0 / (l.length : Rat))

/-- An edge of the toothed wheel (R121). -/
def State.toothEdge (s : State) (n : Nat) (up : Bool) (t : Nat) : State :=
  let c := s.ench n
  let iv : Rat := match c.tAny with | some u => ((t : Rat) - (u : Rat)) | none => 0
  let same := s.dirUp n == up
  let valid := s.flag (R.ENC_CH_STAT_SPEED_VALID n) && same
  let kind := s.get (R.ENC_CH_CFG_REFTYPE n)
  match c.held with
  | some (u, iv0) =>
    -- The edge after a held one (R121).
    let iv1 : Rat := (t : Rat) - (u : Rat)
    let s := s.onEnc n (fun c => { c with held := none })
    let extra := match s.toothMean n with
      | some p => same && decide (iv1 < 3 / 4 * p ∧ 3 / 4 * p ≤ iv0 + iv1 ∧ iv0 + iv1 ≤ 5 / 4 * p)
      | none => false
    if extra then
      let s := s.refMark n u
      (s.count1 n up t (iv0 + iv1)).tooth n (iv0 + iv1)
    else
      let s := (s.count1 n (s.dirUp n) u iv0).toothErr n
      (s.count1 n up t iv1).tooth n iv1
  | none =>
    match (if valid then s.toothMean n else none) with
    | none => let s := s.count1 n up t iv
              if same && c.tAny.isSome && decide (1 ≤ c.run) then s.tooth n iv else s
    | some p =>
      if kind = 1 then
        let m := max 1 (s.get (R.ENC_CH_CFG_MISSING n))
        let lo : Rat := ((m : Rat) + 1 / 2) * p
        let hi : Rat := ((m : Rat) + 3 / 2) * p
        if lo ≤ iv ∧ iv ≤ hi then (s.teethCounts n up t (m + 1) (iv / ((m : Rat) + 1))).refMark n t
        else if hi < iv ∨ (3 / 2 * p < iv ∧ iv < lo) then (s.count1 n up t iv).toothErr n
        else (s.count1 n up t iv).tooth n iv
      else if kind = 2 ∧ iv < 3 / 4 * p then s.onEnc n (fun c => { c with held := some (t, iv) })
      else (s.count1 n up t iv).tooth n iv

/-- An accepted change of an encoder's inputs (R117–R121, R124). -/
def State.encEdge (s : State) (n : Nat) (e : EncEdge) (t : Nat) : State :=
  let ty := s.encType n
  if 2 ≤ n ∨ ty = 0 then s
  else if e = .both then
    if ty = 1 then
      let s := ((s.raise (R.ENC_CH_STAT_QERR n) srcENC).bump (R.ENC_CH_ERRCNT_QERR n)).xchkBad n
      ((s.onEnc n (fun c => { c with run := 0, ivals := [] })).speedOff n).showSpeed n
    else s
  else
    let up := (e == .up) != s.flag (R.ENC_CH_CFG_INVERT n)
    let s := if n = s.lineSrc then (State.settleSched 65536 t s).withdraw up else s
    let s := s.forEach ((List.range 8).filter (fun (k : Nat) => s.get (R.CMP_CTRL_SRC k) == n)) (fun s k => s.cmpHold k t up)
    let wasUp := s.dirUp n
    let c := s.ench n
    let s := match c.tAny with
      | some u => if t < u + 40 then (s.raise (R.ENC_CH_STAT_OVERRATE n) srcENC).xchkBad n else s
      | none => s
    let iv : Rat := (t : Rat) - (c.tRun : Rat)
    let s := if ty = 1 then s.count1 n up t iv else s.toothEdge n up t
    let s := s.onEnc n (fun c => { c with tAny := some t })
    s.afterCount n up wasUp t

/-- Line triggering is armed with line index 0 (R126, R133, R275). -/
def State.armLines (s : State) : State :=
  let s := (s.put R.ENC_LINE_CFG_SRC 0).put R.ENC_LATENCY_LAT (64 + 4 * max 1 (s.get (R.ENC_CH_CFG_FILT 0)))
  let s := (s.put R.ENC_LINE_INDEX (2 ^ 40 - 1)).put R.ENC_LINE_GAP_T 0xFFFFFF
  let origin := if s.get R.ENC_LINE_CFG_ORIGIN_MODE = 1 then none else some (s.get R.ENC_LINE_ORIGIN_POS)
  let s := { s with line := { s.line with
    trig := 0, sched := none, counted := 0, origin := origin, base := 0, pitch := s.pitchReg, due := [], lastB := none, hist := [] } }
  (s.put R.ENC_LINE_TP_T 0xFFFFFF).put R.ENC_STAT_TRIG_LAG 0

/-- ENC_LINE_TP from the recorded periods (R130). -/
def linePredict (h : List (Nat × Nat)) : Nat :=
  match h with
  | [] => 0xFFFFFF
  | [a] => a.2
  | (x0, _) :: _ =>
    let n : Rat := h.length
    let sx : Rat := (h.map (fun (e : Nat × Nat) => (e.1 : Rat) - (x0 : Rat))).foldl (· + ·) 0
    let sy : Rat := (h.map (fun (e : Nat × Nat) => (e.2 : Rat))).foldl (· + ·) 0
    let sxy : Rat := (h.map (fun (e : Nat × Nat) => ((e.1 : Rat) - (x0 : Rat)) * (e.2 : Rat))).foldl (· + ·) 0
    let sxx : Rat := (h.map (fun (e : Nat × Nat) => ((e.1 : Rat) - (x0 : Rat)) * ((e.1 : Rat) - (x0 : Rat)))).foldl (· + ·) 0
    let k := (n * sxy - sx * sy) / (n * sxx - sx * sx)
    let v := roundUp ((sy - k * sx) / n + k * 16)
    (max 0 (min 0xFFFFFF v)).toNat

/-- A line boundary is issued at an instant: ENC_LINE, the gap, the record and the prediction (R12, R129, R130). -/
def State.boundaryTime (s : State) (d : Due) : State × Nat :=
  let t := match s.line.lastB with | some b => max d.at_ (b + 4000) | none => d.at_
  let s := match s.line.lastB with | some b => s.put R.ENC_LINE_GAP_T (min 0xFFFFFF (t - b)) | none => s
  let s := s.put R.ENC_LINE_INDEX d.line
  let s := if d.backlog then s.bump R.ENC_TRIG_DELAYED_COUNT else s
  let rest := s.line.due.drop 1
  let s := s.put R.ENC_STAT_TRIG_LAG (b2n (rest.any (fun (e : Due) => e.backlog)))
  let hist := if s.linePeriod.isSome then ((d.line, s.get R.ENC_LINE_T_T) :: s.line.hist).take 64 else s.line.hist
  let s := { s with line := { s.line with due := rest, lastB := some t, hist := hist } }
  (s.put R.ENC_LINE_TP_T (linePredict hist), t)

end Sys2Proof.Machine
end

