-- ==== Sys2Proof/Machine/Codec.lean ====
section
/-! DEFINITION. The billet format (chapter 4): header, decoder and compressor, as functions of bytes alone (R24). -/

namespace Sys2Proof.Machine

/-- The bits of a payload in stream order (R74). -/
def streamBits (b : List Nat) : List Bool := b.flatMap (fun (x : Nat) => toBits 8 x)

/-- Bytes of a bit stream, the last padded with zeros (R74). -/
def packBits (fuel : Nat) (l : List Bool) : List Nat :=
  match fuel with
  | 0 => []
  | n + 1 => if l.isEmpty then [] else ofBits (l.take 8) :: packBits n (l.drop 8)

/-- A billet header's fields (Table 4.1). -/
def hdrMagic (b : List Nat) : Nat := ofBytes (b.take 2)
def hdrVersion (b : List Nat) : Nat := b.getD 2 0
def hdrFlags (b : List Nat) : Nat := b.getD 3 0
def hdrColumn (b : List Nat) : Nat := b.getD 4 0
def hdrPad (b : List Nat) : Nat := b.getD 5 0
def hdrPlen (b : List Nat) : Nat := ofBytes ((b.drop 6).take 2)
def hdrBand (b : List Nat) : Nat := ofBytes ((b.drop 8).take 4)
def hdrCrc (b : List Nat) : Nat := ofBytes ((b.drop 12).take 4)

/-- The payload of a billet. -/
def payload (b : List Nat) : List Nat := (b.drop 16).take (hdrPlen b)

/-- The CRC of Table 4.1 as the bytes have it. -/
def billetCrc (b : List Nat) : Nat := crc32c (b.take 12 ++ payload b)

/-- Header checks of ingest (R73, check 9). -/
def headerOk (b : List Nat) (len col band : Nat) : Bool :=
  let raw := hdrFlags b % 2 = 1
  decide (b.length = len ∧ hdrMagic b = 0x4C42 ∧ hdrVersion b = 1 ∧ hdrFlags b < 2 ∧ len = 16 + hdrPlen b
    ∧ (if raw then hdrPlen b = 16384 ∧ hdrPad b = 0 else 1 ≤ hdrPlen b ∧ hdrPlen b ≤ 16383 ∧ hdrPad b ≤ 7)
    ∧ hdrCrc b = billetCrc b ∧ hdrColumn b = col ∧ hdrBand b = band)

/-- Canonical codes (R77): code length and code of each used symbol; `next` holds the next code of each length. -/
def codesFrom (count : List Nat) : List Nat :=
  ((List.range 15).foldl (fun (a : List Nat × Nat) i =>
    let c := (a.2 + count.getD i 0) * 2
    (a.1 ++ [a.2], c)) ([], 0)).1

/-- The number of symbols with each code length 1 to 15. -/
def lenCounts (l : List Nat) : List Nat := (List.range 15).map (fun (i : Nat) => (l.filter (· == i + 1)).length)

/-- The canonical code table of a list of code lengths: (length, code, symbol). -/
def codeTable (l : List Nat) : List (Nat × Nat × Nat) :=
  let start := codesFrom (lenCounts l)
  (l.zipIdx.foldl (fun (a : List (Nat × Nat × Nat) × List Nat) (e : Nat × Nat) =>
    if e.1 = 0 then a
    else ((e.1, a.2.getD (e.1 - 1) 0, e.2) :: a.1, modifyNth a.2 (e.1 - 1) (· + 1))) ([], start)).1

/-- Kraft sum in units of 2⁻¹⁵. -/
def kraft (l : List Nat) : Nat := l.foldl (fun a n => if n = 0 then a else a + 2 ^ (15 - n)) 0

/-- The length rules of R77. -/
def lengthsOk (ll dl : List Nat) : Bool :=
  decide (kraft ll = 32768 ∧ ll.getD 256 0 ≠ 0)
    && (decide (kraft dl = 32768) || dl.all (· == 0) || (decide ((dl.filter (· != 0)).length = 1) && dl.any (· == 1)))

/-- A bit reader: the bits left and the number taken. -/
structure Reader where
  rest : List Bool
  pos : Nat

/-- `n` bits, least significant first (R74); `none` at the end of the payload. -/
def Reader.num (r : Reader) (n : Nat) : Option (Nat × Reader) :=
  if (r.rest.take n).length < n then none else some (ofBits (r.rest.take n), ⟨r.rest.drop n, r.pos + n⟩)

/-- What reading a symbol gives: a symbol, a code no symbol holds, or the end of the payload. -/
inductive SymResult where
  | sym (s : Nat) (r : Reader)
  | bad
  | eof

/-- One symbol, its code most significant bit first (R74). -/
def readSym (t : List (Nat × Nat × Nat)) : Nat → Nat → Nat → Reader → SymResult
  | 0, _, _, _ => .bad
  | fuel + 1, len, code, r =>
    match r.rest with
    | [] => .eof
    | b :: rest =>
      let c := 2 * code + b2n b
      match t.find? (fun (e : Nat × Nat × Nat) => e.1 == len + 1 && e.2.1 == c) with
      | some e => .sym e.2.2 ⟨rest, r.pos + 1⟩
      | none => if t.length ≤ 1 then .bad else readSym t fuel (len + 1) c ⟨rest, r.pos + 1⟩

/-- A stop of the decoder: cause of Table 4.5 and the position R80 gives. -/
structure DecStop where
  cause : Nat
  pos : Nat
  deriving DecidableEq, Repr

/-- The length script (R76): lengths read so far (newest first), the last non-zero one. -/
def readScript (total : Nat) : Nat → List Nat → Nat → Reader → Except DecStop (List Nat × Reader)
  | 0, _, _, r => .error ⟨2, r.pos⟩
  | fuel + 1, acc, last, r =>
    if total ≤ acc.length then .ok (acc.reverse, r)
    else
      let p := r.pos
      match r.num 4 with
      | none => .error ⟨8, p⟩
      | some (0, r1) =>
        match r1.num 1 with
        | none => .error ⟨8, p⟩
        | some (0, r2) =>
          match r2.num 7 with
          | none => .error ⟨8, p⟩
          | some (n, r3) => if total < acc.length + n + 1 then .error ⟨2, p⟩
              else readScript total fuel (List.replicate (n + 1) 0 ++ acc) last r3
        | some (_, r2) =>
          match r2.num 6 with
          | none => .error ⟨8, p⟩
          | some (n, r3) => if last = 0 ∨ total < acc.length + n + 1 then .error ⟨2, p⟩
              else readScript total fuel (List.replicate (n + 1) last ++ acc) last r3
      | some (v, r1) => readScript total fuel (v :: acc) v r1

/-- Extra bits and base of a length symbol (Table 4.3). -/
def lenExtra (s : Nat) : Nat := if s < 265 then 0 else (s - 261) / 4
def lenBase (s : Nat) : Nat := if s < 265 then s - 254 else 3 + (4 + (s - 261) % 4) * 2 ^ ((s - 261) / 4)

/-- Extra bits and base of a distance symbol (Table 4.4). -/
def distExtra (s : Nat) : Nat := if s < 4 then 0 else (s - 2) / 2
def distBase (s : Nat) : Nat := if s < 4 then s + 1 else 1 + (2 + s % 2) * 2 ^ ((s - 2) / 2)

/-- A match copied one byte at a time; the output is held newest byte first (R79). -/
def copyMatch : Nat → Nat → List Nat → List Nat
  | 0, _, out => out
  | n + 1, d, out => copyMatch n d (out.getD (d - 1) 0 :: out)

/-- The symbols up to the end-of-billet symbol (R75, R78, R79); the output newest byte first, and the stop, if any. -/
def readSymbols (ll dl : List (Nat × Nat × Nat)) (pad : Nat) : Nat → List Nat → Nat → Reader → List Nat × Option DecStop
  | 0, out, _, r => (out, some ⟨8, r.pos⟩)
  | fuel + 1, out, n, r =>
    let p := r.pos
    match readSym ll 15 0 0 r with
    | .eof => (out, some ⟨8, p⟩)
    | .bad => (out, some ⟨4, p⟩)
    | .sym s r1 =>
      if s < 256 then
        if 16384 ≤ n then (out, some ⟨6, p⟩) else readSymbols ll dl pad fuel (s :: out) (n + 1) r1
      else if s = 256 then
        if n < 16384 then (out, some ⟨7, p⟩)
        else if r1.rest.length = pad ∧ r1.rest.all (! ·) = true then (out, none) else (out, some ⟨9, r1.pos⟩)
      else if dl.isEmpty then (out, some ⟨4, p⟩)
      else
        match r1.num (lenExtra s) with
        | none => (out, some ⟨8, r1.pos⟩)
        | some (x, r2) =>
          let len := lenBase s + x
          if 16384 < n + len then (out, some ⟨6, p⟩)
          else
            let q := r2.pos
            match readSym dl 15 0 0 r2 with
            | .eof => (out, some ⟨8, q⟩)
            | .bad => (out, some ⟨4, q⟩)
            | .sym t r3 =>
              match r3.num (distExtra t) with
              | none => (out, some ⟨8, r3.pos⟩)
              | some (y, r4) =>
                let d := distBase t + y
                if n < d then (out, some ⟨5, q⟩)
                else readSymbols ll dl pad fuel (copyMatch len d out) (n + len) r4

/-- Decoding a compressed payload (R75–R80): the bytes output and the stop, if any. -/
def decodePayload (b : List Nat) (pad : Nat) : List Nat × Option DecStop :=
  let bits := streamBits b
  match (Reader.mk bits 0).num 6 with
  | none => ([], some ⟨8, 0⟩)
  | some (nll, r1) =>
    if 36 < nll then ([], some ⟨1, 0⟩)
    else match r1.num 5 with
      | none => ([], some ⟨8, 6⟩)
      | some (nd, r2) =>
        if 27 < nd then ([], some ⟨1, 6⟩)
        else match readScript (nll + 257 + nd + 1) 400 [] 0 r2 with
          | .error e => ([], some e)
          | .ok (ls, r3) =>
            let ll := ls.take (nll + 257)
            let dl := ls.drop (nll + 257)
            if !lengthsOk ll dl then ([], some ⟨3, r3.pos⟩)
            else
              let (out, e) := readSymbols (codeTable ll) (codeTable dl) pad (bits.length + 2) [] 0 r3
              (out.reverse, e)

/-- Decoding a stored billet (R79, R80): the tile bytes output, in tile order (R70), and the stop, if any. -/
def decodeBillet (b : List Nat) : List Nat × Option DecStop :=
  let crc := decide (hdrCrc b = billetCrc b)
  if hdrFlags b % 2 = 1 then (payload b, if crc then none else some ⟨0xA, 0⟩)
  else
    let (out, e) := decodePayload (payload b) (hdrPad b)
    match e with
    | some _ => (out, e)
    | none => (out, if crc then none else some ⟨0xA, 0⟩)

/-- The hash of three bytes (R81). -/
def hash3 (a b c : Nat) : Nat := Nat.xor (Nat.xor (a * 16) (b * 4)) c % 4096

/-- How far two byte lists agree, up to a limit. -/
def agree : Nat → List Nat → List Nat → Nat
  | 0, _, _ => 0
  | n + 1, a :: s, b :: t => if a = b then 1 + agree n s t else 0
  | _ + 1, _, _ => 0

/-- A symbol the compressor emits: a literal, or a match with length and distance. -/
inductive LzSym where
  | lit (b : Nat)
  | copy (len dist : Nat)
  deriving DecidableEq, Repr

/-- The longest match at position p among the candidate distances, first tested wins, stopping at the limit (R81). -/
def bestMatch (tile : List Nat) (p limit : Nat) : List Nat → Nat × Nat → Nat × Nat
  | [], best => best
  | d :: t, best =>
    if best.1 = limit then best
    else if p < d ∨ d = 0 then bestMatch tile p limit t best
    else
      let n := agree limit (tile.drop (p - d)) (tile.drop p)
      bestMatch tile p limit t (if 3 ≤ n ∧ best.1 < n then (n, d) else best)

/-- Positions entered in the hash chains, newest first, for each hash (R81). -/
abbrev Chains := List (Nat × List Nat)

/-- A position entered in its chain. -/
def chainAdd (c : Chains) (h p : Nat) : Chains :=
  match c with
  | [] => [(h, [p])]
  | (g, l) :: t => if g = h then (g, p :: l) :: t else (g, l) :: chainAdd t h p

/-- The chain of a hash. -/
def chainGet (c : Chains) (h : Nat) : List Nat := match c.find? (fun (e : Nat × List Nat) => e.1 == h) with | some e => e.2 | none => []

/-- Every position of a range entered, the last two of the tile not (R81). -/
def chainRange (tile : List Nat) (c : Chains) (p n : Nat) : Chains :=
  (List.range n).foldl (fun (c : Chains) i =>
    match tile.drop (p + i) with
    | a :: b :: d :: _ => chainAdd c (hash3 a b d) (p + i)
    | _ => c) c

/-- Greedy encoding from position p (R81). -/
def lzFrom (tile : List Nat) (depth : Nat) : Nat → Nat → Chains → List LzSym
  | 0, _, _ => []
  | fuel + 1, p, c =>
    if 16384 ≤ p then []
    else
      let limit := min 1026 (16384 - p)
      let cand := match tile.drop p with
        | a :: b :: d :: _ => ((chainGet c (hash3 a b d)).take depth).map (fun (q : Nat) => p - q)
        | _ => []
      let m := bestMatch tile p limit (256 :: 1 :: cand) (0, 0)
      if m.1 < 3 then .lit (tile.getD p 0) :: lzFrom tile depth fuel (p + 1) (chainRange tile c p 1)
      else .copy m.1 m.2 :: lzFrom tile depth fuel (p + m.1) (chainRange tile c p m.1)

/-- The length symbol of a match length and the distance symbol of a distance. -/
def lenSym (n : Nat) : Nat := ((List.range 36).foldl (fun a i => if lenBase (257 + i) ≤ n then 257 + i else a) 257)
def distSym (d : Nat) : Nat := ((List.range 28).foldl (fun a i => if distBase i ≤ d then i else a) 0)

/-- An item of the code construction (R82): weight, order (leaves by symbol, then merged items by creation), symbols below it. -/
structure HufItem where
  weight : Nat
  order : Nat
  syms : List Nat

/-- The item of least weight, ties to the lower order, and the rest. -/
def popLeast : List HufItem → Option (HufItem × List HufItem)
  | [] => none
  | a :: t =>
    match popLeast t with
    | none => some (a, [])
    | some (b, r) => if b.weight < a.weight ∨ (b.weight = a.weight ∧ b.order < a.order) then some (b, a :: r) else some (a, b :: r)

/-- Depths by repeated merging (R82); `deps` counts each symbol's depth. -/
def hufMerge : Nat → Nat → List HufItem → List Nat → List Nat
  | 0, _, _, deps => deps
  | fuel + 1, next, items, deps =>
    match popLeast items with
    | none => deps
    | some (a, r) =>
      match popLeast r with
      | none => deps
      | some (b, r2) =>
        let syms := a.syms ++ b.syms
        let deps := syms.foldl (fun (d : List Nat) s => modifyNth d s (· + 1)) deps
        hufMerge fuel (next + 1) (⟨a.weight + b.weight, next, syms⟩ :: r2) deps

/-- Code lengths of an alphabet from its frequencies (R82). -/
def hufLengths : Nat → List Nat → List Nat
  | 0, f => f.map (fun _ => 0)
  | fuel + 1, f =>
    let used := (f.zipIdx.filter (fun (e : Nat × Nat) => e.1 != 0)).map (fun (e : Nat × Nat) => HufItem.mk e.1 e.2 [e.2])
    let zero := f.map (fun _ => 0)
    match used with
    | [] => zero
    | [a] => modifyNth zero a.order (fun _ => 1)
    | _ =>
      let l := hufMerge used.length 1000 used zero
      if l.any (fun (n : Nat) => decide (15 < n)) then hufLengths fuel (f.map (fun (n : Nat) => if n = 0 then 0 else (n + 1) / 2)) else l

/-- A Huffman code's bits, most significant first. -/
def codeBits (len code : Nat) : List Bool := (toBits len code).reverse

/-- The code of a symbol in a table. -/
def symBits (t : List (Nat × Nat × Nat)) (s : Nat) : List Bool :=
  match t.find? (fun (e : Nat × Nat × Nat) => e.2.2 == s) with
  | some e => codeBits e.1 e.2.1
  | none => []

/-- The length script of a list of code lengths: zero runs of at most 128, no repeats (R82). -/
def scriptBits : Nat → List Nat → List Bool
  | 0, _ => []
  | _ + 1, [] => []
  | fuel + 1, 0 :: t =>
    let n := min 127 (t.takeWhile (· == 0)).length
    toBits 4 0 ++ toBits 1 0 ++ toBits 7 n ++ scriptBits fuel (t.drop n)
  | fuel + 1, v :: t => toBits 4 v ++ scriptBits fuel t

/-- Code lengths without the trailing zeros, but at least `n` of them. -/
def trimLengths (n : Nat) (l : List Nat) : List Nat :=
  let k := ((l.zipIdx.filter (fun (e : Nat × Nat) => e.1 != 0)).map (fun (e : Nat × Nat) => e.2 + 1)).foldl max n
  l.take k

/-- The compressed payload of a tile and its padding (R81, R82). -/
def compressTile (tile : List Nat) (depth : Nat) : List Nat × Nat :=
  let syms := lzFrom tile depth 16385 0 []
  let lf := syms.foldl (fun (f : List Nat) s => match s with
    | .lit b => modifyNth f b (· + 1)
    | .copy n _ => modifyNth f (lenSym n) (· + 1)) (modifyNth (List.replicate 293 0) 256 (fun _ => 1))
  let df := syms.foldl (fun (f : List Nat) s => match s with
    | .lit _ => f
    | .copy _ d => modifyNth f (distSym d) (· + 1)) (List.replicate 28 0)
  let ll := trimLengths 257 (hufLengths 40 lf)
  let dl := trimLengths 1 (hufLengths 40 df)
  let lt := codeTable ll
  let dt := codeTable dl
  let body := syms.flatMap (fun (s : LzSym) => match s with
    | .lit b => symBits lt b
    | .copy n d => symBits lt (lenSym n) ++ toBits (lenExtra (lenSym n)) (n - lenBase (lenSym n))
        ++ symBits dt (distSym d) ++ toBits (distExtra (distSym d)) (d - distBase (distSym d)))
  let bits := toBits 6 (ll.length - 257) ++ toBits 5 (dl.length - 1) ++ scriptBits 400 (ll ++ dl) ++ body ++ symBits lt 256
  (packBits (bits.length + 1) bits, (8 - bits.length % 8) % 8)

/-- A billet header (Table 4.1). -/
def mkHeader (flags col pad plen band : Nat) (pl : List Nat) : List Nat :=
  let h := toBytes 2 0x4C42 ++ [1, flags, col, pad] ++ toBytes 2 plen ++ toBytes 4 band
  h ++ toBytes 4 (crc32c (h ++ pl)) ++ pl

/-- The stored form of a RAW billet or capture piece (R83): `none` where it does not shrink. -/
def compressBillet (flags col band depth : Nat) (tile : List Nat) : Option (List Nat) :=
  let (pl, pad) := compressTile tile depth
  if 16384 ≤ pl.length then none else some (mkHeader flags col pad pl.length band pl)

end Sys2Proof.Machine
end

