-- ==== Sys2Proof/Machine/StoreOps.lean ====
section
/-! DEFINITION. The job store (chapter 3): residence, consumption, eviction, poison, and the supply of tiles from DRAM to
the tile buffers (R16, R64, R87). -/

namespace Sys2Proof.Machine

/-- The number of the current job, 0 when none is defined. -/
def State.curJob (s : State) : Nat := match s.store.cur with | some j => j.d.num | none => 0

/-- The billet of the current job for a tile column and band. -/
def State.billetAt (s : State) (col band : Nat) : Option Billet :=
  s.store.billets.find? (fun (b : Billet) => b.job == s.curJob && b.col == col && b.band == band)

/-- The billet entries of one identity changed. -/
def State.onBillet (s : State) (job col band : Nat) (f : Billet → Billet) : State :=
  { s with store := { s.store with billets := s.store.billets.map (fun (b : Billet) =>
    if b.job == job && b.col == col && b.band == band then f b else b) } }

/-- Bytes of the store a billet takes: whole units of 64 and its index entry (R58). -/
def Billet.room (b : Billet) : Nat := ceilDiv b.bytes.length 64 * 64 + 16

/-- Bytes of the store that are free. -/
def State.storeFree (s : State) : Nat :=
  s.get R.DRC_STORE_MB_MB * 2 ^ 20 - (s.store.billets.map Billet.room).foldl (· + ·) 0

/-- The store has no free space: the longest billet would not fit (R59, log entry 31). -/
def State.storeFull (s : State) : Bool := decide (s.storeFree < 16464)

/-- FULL follows the store (Table 3.5). -/
def State.showFull (s : State) : State := s.put R.BLT_STORE_STAT_FULL (b2n s.storeFull)

/-- Billets picked by a test leave the store; those not yet consumed count as evicted unused (R58, R60, R68). -/
def State.evictWhere (s : State) (f : Billet → Bool) : State :=
  let unused := (s.store.billets.filter (fun (b : Billet) => f b && !b.consumed)).length
  let s := { s with store := { s.store with billets := s.store.billets.filter (fun (b : Billet) => !f b) } }
  ((s.count R.BLT_EVICTED_COUNT unused).put R.BLT_RESIDENT_COUNT (s.get R.BLT_RESIDENT_COUNT - unused)).showFull

/-- A billet is poisoned; it counts once (R67). -/
def State.poison (s : State) (job col band : Nat) : State :=
  match s.store.billets.find? (fun (b : Billet) => b.job == job && b.col == col && b.band == band) with
  | none => s
  | some b =>
    if b.poisoned then s
    else (s.onBillet job col band (fun b => { b with poisoned := true, staging := .no })).bump R.BLT_POISONED_COUNT

/-- A billet is consumed, once (R58). -/
def State.consume (s : State) (col band : Nat) : State :=
  match s.billetAt col band with
  | none => s
  | some b =>
    let s := s.onBillet b.job col band (fun b => { b with consumed := true, staging := .no })
    if b.consumed then s
    else (s.count R.BLT_CONSUMED_COUNT).put R.BLT_RESIDENT_COUNT (s.get R.BLT_RESIDENT_COUNT - 1)

/-- The channel of a DRAM unit address under the layout in force (R339). -/
def State.chanOf (s : State) (da : Nat) : Nat :=
  let g := da / (256 * 2 ^ s.drc.grain)
  s.drc.layout.getD (g % max 1 s.drc.layout.length) 0

/-- Some unit of a billet lies on a parted channel (R342). -/
def State.onParted (s : State) (b : Billet) : Bool :=
  (List.range (ceilDiv b.bytes.length 64)).any (fun (i : Nat) => s.bitIn R.DRC_STAT_PARTED (s.chanOf (b.addr + 64 * i)))

/-- Offsets of a port by first fire line, ascending, those of armed changes included (R15, R64). -/
def State.segments (s : State) (p : Nat) : List (Nat × Nat) :=
  let armed := s.path.changes.filterMap (fun (c : Change) => match c.kind with
    | .skew q o => if q = p then some (c.line, o) else none
    | _ => none)
  (match (s.port p).offs.reverse with | [] => [(0, s.get (R.BLT_SKEW_OFFSET p))] | l => l) ++ armed

/-- The bands a run of fire lines [lo, hi) under one offset needs, with `ahead` bands past the render cursor (R16). -/
def State.runBands (s : State) (off lo : Nat) (hi : Option Nat) (ahead : Nat) : List Nat :=
  let sb : Int := 64 * s.path.startBand
  let at_ (n : Nat) : Int := (sb + n - off) / 64
  let first := max (s.path.startBand : Int) (at_ lo)
  let last := at_ s.cursorLine + ahead
  let last := match hi with | some h => min last (at_ (h - 1)) | none => last
  let last := match s.store.cur with
    | some j => if j.d.continuous then last else min last j.d.lastBand
    | none => (-1)
  if last < first then [] else (List.range (last - first + 1).toNat).map (fun (i : Nat) => first.toNat + i)

/-- The bands whose tiles a port's lines not yet handed off need, with `ahead` bands past the cursor (R16, R64). -/
def State.supplyBands (s : State) (p ahead : Nat) : List Nat :=
  if !s.path.armed || s.path.closed || !s.portEnabled p then []
  else
    let segs := s.segments p
    ((segs.zipIdx.flatMap (fun (e : (Nat × Nat) × Nat) =>
      let hi := (segs[e.2 + 1]?).map (·.1)
      let lo := max e.1.1 s.path.handed
      if (match hi with | some h => decide (h ≤ lo) | none => false) then [] else s.runBands e.1.2 lo hi ahead)).eraseDups)

/-- The band of a fire-line run as the store numbers it (R50). -/
def wrapBand (b : Nat) : Nat := b % 2 ^ 32

/-- A band is a gap band of the current job (R274). -/
def State.gapBand (s : State) (b : Nat) : Bool := match s.store.cur with | some j => j.d.gap b | none => false

/-- The tile of a column and band in a port's buffers. -/
def State.tileAt (s : State) (col band : Nat) : Option Tile :=
  (s.port (col / 8)).tiles.find? (fun (t : Tile) => t.col == col && t.band == band)

/-- A tile is held whole, or a decompressor is at work on it. -/
def State.tileHeld (s : State) (col band : Nat) : Bool :=
  (match s.tileAt col band with | some t => decide (64 ≤ t.written) | none => false)
    || s.store.dec.any (fun (o : Option DecJob) => match o with | some j => j.col == col && j.band == band | none => false)

/-- Tile columns of a port that are needed in a band, with the billets that must be read for them. -/
def State.needed (s : State) (p b : Nat) : List Billet :=
  if s.gapBand (wrapBand b) then []
  else ((List.range 8).filterMap (fun (k : Nat) => s.billetAt (8 * p + k) (wrapBand b))).filter
    (fun (x : Billet) => !x.poisoned && !x.zero && !s.tileHeld x.col x.band)

/-- ZERO billets of a port in a band: staging asks for nothing to be read (R16, R58). -/
def State.neededZero (s : State) (p b : Nat) : List Billet :=
  if s.gapBand (wrapBand b) then []
  else ((List.range 8).filterMap (fun (k : Nat) => s.billetAt (8 * p + k) (wrapBand b))).filter
    (fun (x : Billet) => !x.poisoned && x.zero && !x.consumed)

/-- Staging is requested for every billet at or past its staging point (R16, R65); of a ZERO billet it is complete at once. -/
def State.stageKick (s : State) : State :=
  s.forEach (List.range 24) (fun s p => s.forEach (s.supplyBands p 2) (fun s b =>
    let s := (s.neededZero p b).foldl (fun s (x : Billet) =>
      s.onBillet x.job x.col x.band (fun b => { b with staging := .arrived })) s
    (s.needed p b).foldl (fun s (x : Billet) =>
      if x.staging == .no then s.onBillet x.job x.col x.band (fun b => { b with staging := .requested }) else s) s))

/-- The lowest fire line that still prints a band on a port: its render deadline orders the dispatch (R87). -/
def State.firstUse (s : State) (p b : Nat) : Nat :=
  let lines := (s.segments p).filterMap (fun (e : Nat × Nat) =>
    if 64 * s.path.startBand ≤ 64 * b + 63 + e.2 then some (max s.path.handed (max e.1 (64 * b + e.2 - 64 * s.path.startBand))) else none)
  match lines with
  | [] => s.path.handed
  | a :: t => t.foldl min a

/-- Staged billets at or past their decompression point, with the key that orders them (R87). -/
def State.decReady (s : State) : List ((Nat × Nat) × Billet) :=
  (List.range 24).flatMap (fun (p : Nat) => (s.supplyBands p 1).flatMap (fun (b : Nat) =>
    ((s.needed p b).filter (fun (x : Billet) => x.staging == .arrived &&
        decide (((s.port p).tiles.filter (fun (t : Tile) => t.col == x.col && t.band != x.band)).length < 3))).map
      (fun (x : Billet) => ((s.firstUse p b, x.col), x))))

/-- The entry of least key. -/
def leastKey : List ((Nat × Nat) × Billet) → Option ((Nat × Nat) × Billet)
  | [] => none
  | a :: t =>
    match leastKey t with
    | none => some a
    | some b => if b.1.1 < a.1.1 ∨ (b.1.1 = a.1.1 ∧ b.1.2 < a.1.2) then some b else some a

/-- The free decompressor of lowest index that is not parted and is not `not` (R87, R89). -/
def State.freeDec (s : State) (not_ : Option Nat) : Option Nat :=
  (List.range 32).find? (fun (d : Nat) => (s.store.dec.getD d none).isNone && !s.bitIn R.BLT_DEC_PART_PARTED d && (not_ != some d))

/-- The first decompressor of a tile under its second attempt (R89). -/
def State.firstDec (s : State) (col band : Nat) : Option Nat :=
  (s.store.retry.find? (fun (r : Nat × Nat × Nat) => r.1 == col && r.2.1 == band)).map (fun (r : Nat × Nat × Nat) => r.2.2)

/-- A billet is given to a decompressor: its tile starts with no line available (R87). -/
def State.dispatch (s : State) (d : Nat) (x : Billet) : State :=
  let out := decodeBillet x.bytes
  let j : DecJob := ⟨x.col, x.band, out.1, out.2.isNone, 0⟩
  let tile : Tile := ⟨x.col, x.band, 0, out.1, []⟩
  let s := s.onPort (x.col / 8) (fun q => { q with
    tiles := q.tiles.filter (fun (t : Tile) => !(t.col == x.col && t.band == x.band)) ++ [tile] })
  { s with store := { s.store with dec := modifyNth s.store.dec d (fun _ => some j) } }

/-- Staged billets go to free decompressors, in order (R87). -/
def State.decKick : Nat → State → State
  | 0, s => s
  | fuel + 1, s =>
    match leastKey (s.decReady.filter (fun (e : (Nat × Nat) × Billet) => (s.freeDec (s.firstDec e.2.col e.2.band)).isSome)) with
    | none => s
    | some (_, x) =>
      match s.freeDec (s.firstDec x.col x.band) with
      | none => s
      | some d => State.decKick fuel (s.dispatch d x)

/-- Staging and decompression are brought up to what is due (R16, R65, R87). -/
def State.supplyKick (s : State) : State := if s.path.armed then State.decKick 192 s.stageKick else s

/-- Consumed billets are reclaimed, oldest first, until the longest billet fits (R59). -/
def State.reclaim : Nat → State → State
  | 0, s => s
  | fuel + 1, s =>
    if !s.storeFull then s
    else
      match s.store.billets.find? (fun (b : Billet) => b.consumed) with
      | none => s
      | some b =>
        let s := { s with store := { s.store with billets := s.store.billets.filter (fun (c : Billet) =>
          !(c.job == b.job && c.col == b.col && c.band == b.band)) } }
        let s := s.logOne 0x06 none 1 (toBytes 4 (b.addr / 64) ++ [5, 0, 0, 0])
        State.reclaim fuel (s.raise R.BLT_STORE_STAT_REPLAY_SHORT srcBLT)

/-- Consumed billets behind the replay window give up their space (R58); `least` is the hand-off band of the
least-advanced enabled port. -/
def State.trimReplay (s : State) (least : Nat) : State :=
  let keep (b : Billet) : Bool := !b.consumed || b.job != s.curJob
    || decide (sdiff 32 least b.band ≤ (s.get R.BLT_STORE_CFG_REPLAY_BANDS : Int))
  ({ s with store := { s.store with billets := s.store.billets.filter keep } } : State).showFull

end Sys2Proof.Machine
end

