-- ==== Sys2Proof/Machine/Render.lean ====
section
/-! DEFINITION. What a rendered line contains (R93–R104, R156): the grain map, substitution, size map and spit mask, as
functions of the page, the map and the tags. -/

namespace Sys2Proof.Machine

/-- The grain-map entry of a global nozzle (R93). -/
def State.grain (s : State) (g : Nat) : Nat := Cells.look dfltGrain s.path.gmap g

/-- Fields of an entry (Table 5.2). -/
def gState (e : Nat) : Nat := bits e 39 37
def gSubst (e : Nat) : Nat := bits e 36 33
def gGain (e : Nat) : Nat := bits e 32 21
def gBias (e : Nat) : Int := signed 8 (bits e 20 13)
def gTrim (e : Nat) : Nat := bits e 12 8

/-- The word of a nozzle's entry renders as PARKED (R99). -/
def State.parkedWord (s : State) (g : Nat) : Bool := s.path.parkWords.contains (g / 3)

/-- A nozzle fires (R94). -/
def State.fires (s : State) (g : Nat) : Bool :=
  !s.parkedWord g && decide (gState (s.grain g) = 0 ∨ gState (s.grain g) = 1 ∨ gState (s.grain g) = 5)

/-- The substitution mask of a nozzle (R99). -/
def State.substMask (s : State) (g : Nat) : Nat := if s.parkedWord g then 3 else gSubst (s.grain g)

/-- Gain and bias with the dither threshold (R100 step 2). -/
def gainOut (c gain : Nat) (bias : Int) (t : Nat) : Nat :=
  let e : Int := c * gain + 32 * bias
  if e ≤ 0 then 0 else min 3 (e.toNat / 2048 + b2n (decide (t < e.toNat % 2048)))

/-- Entries of SPN_OVL that are marked VALID: index, port and nozzles. -/
def State.ovlValid (s : State) : List (Nat × Nat × Nat × Nat) :=
  ((s.regs.filter (fun (e : Nat × Nat) => decide (0x40404000 * 32 ≤ e.1 ∧ e.1 < 0x40408000 * 32 ∧ e.1 % 32 = 31))).map
    (fun (e : Nat × Nat) => (e.1 / 32 - 0x40404000) / 4)).map (fun (i : Nat) =>
      (i, s.get (R.SPN_OVL_PORT i), s.get (R.SPN_OVL_NOZ_A i), s.get (R.SPN_OVL_NOZ_B i)))

/-- A valid overlap entry is ignored (R103). -/
def State.ovlIgnored (s : State) (e : Nat × Nat × Nat × Nat) : Bool :=
  e.2.2.1 == e.2.2.2 || decide (s.nPorts ≤ e.2.1)
    || s.ovlValid.any (fun (f : Nat × Nat × Nat × Nat) => decide (f.1 < e.1) && f.2.1 == e.2.1 &&
      (f.2.2.1 == e.2.2.1 || f.2.2.1 == e.2.2.2 || f.2.2.2 == e.2.2.1 || f.2.2.2 == e.2.2.2))

/-- Pairs of nozzles of a port that the overlap table puts in force (R103). -/
def State.partners (s : State) (p : Nat) : List (Nat × Nat) :=
  (s.ovlValid.filter (fun (e : Nat × Nat × Nat × Nat) => e.2.1 == p && !s.ovlIgnored e)).map
    (fun (e : Nat × Nat × Nat × Nat) => (e.2.2.1, e.2.2.2))

/-- The partner of a nozzle. -/
def partnerOf (l : List (Nat × Nat)) (d : Nat) : Option Nat :=
  match l.find? (fun (e : Nat × Nat) => e.1 == d || e.2 == d) with
  | some e => some (if e.1 = d then e.2 else e.1)
  | none => none

/-- What substitution yields: output codes, drops lost, saturated additions (R102). -/
structure SubstOut where
  out : List Nat
  lost : Nat
  ovf : Nat
  deriving DecidableEq, Repr

/-- One silent nozzle gives its drop (R102). -/
def giveDrop (fires : Nat → Bool) (mask : Nat) (partner : Option Nat) (pl d c : Nat) (a : SubstOut) : SubstOut :=
  let nb := (if bit mask 0 && decide (1 ≤ d) then [d - 1] else []) ++ (if bit mask 1 && decide (d + 1 ≤ 8191) then [d + 1] else [])
    ++ (if bit mask 2 && decide (2 ≤ d) then [d - 2] else []) ++ (if bit mask 3 && decide (d + 2 ≤ 8191) then [d + 2] else [])
  let nb := nb.filter fires
  let r := (pl + d) % max 1 nb.length
  let l := (match partner with | some q => if fires q then [q] else [] | none => []) ++ nb.drop r ++ nb.take r
  match l with
  | [] => { a with lost := a.lost + 1 }
  | first :: _ =>
    match l.find? (fun (x : Nat) => a.out.getD x 0 == 0) with
    | some x => { a with out := modifyNth a.out x (fun _ => c) }
    | none =>
      let v := a.out.getD first 0 + c
      { out := modifyNth a.out first (fun _ => min 3 v), lost := a.lost, ovf := a.ovf + b2n (decide (3 < v)) }

/-- PERIOD and GAP_SPITS as they act (Table 7.5). -/
def State.spitPeriod (s : State) : Nat :=
  let p := s.get R.FIR_SPIT_CFG_PERIOD
  if p = 0 then 0 else max 256 p
def State.gapSpits (s : State) : Nat := min 32 (s.get R.FIR_SPIT_CFG_GAP_SPITS)

/-- The spit mask marks nozzle i of page line y (R156). -/
def State.spitMask (s : State) (y i : Nat) : Bool :=
  s.get R.FIR_SPIT_CFG_CODE != 0 &&
  (if s.gapBand (wrapBand (y / 64)) then decide ((y + i) % 64 < s.gapSpits)
   else s.spitPeriod != 0 && decide ((y + s.get R.FIR_SPIT_CFG_STRIDE * i) % s.spitPeriod = 0))

/-- The size map of a class (R100 step 4). -/
def State.sizeMap (s : State) (cls c : Nat) : Nat :=
  let m := if cls = 0 then s.get R.SPN_SIZEMAP_NORMAL else s.get R.SPN_SIZEMAP_SHORT
  if c = 0 then 0 else m / 4 ^ (c - 1) % 4

/-- A port-line rendered from the raw codes of its nozzles (R100): `covered` says whether a nozzle has a lane (R113). -/
def State.renderLine (s : State) (p pl cls : Nat) (raw : List Nat) (covered : Nat → Bool) : SubstOut :=
  let fires (i : Nat) : Bool := covered i && s.fires (8192 * p + i)
  let merged := raw.zipIdx.map (fun (e : Nat × Nat) =>
    if fires e.2 && e.1 == 0 && s.spitMask pl e.2 then s.get R.FIR_SPIT_CFG_CODE else e.1)
  let out := merged.zipIdx.map (fun (e : Nat × Nat) =>
    if e.1 = 0 ∨ fires e.2 = false then 0
    else
      let g := s.grain (8192 * p + e.2)
      gainOut e.1 (gGain g) (gBias g) (s.get (R.SPN_DITHER_THRESH (pl % 64 * 64 + e.2 % 64))))
  let pairs := s.partners p
  let silent := merged.zipIdx.filter (fun (e : Nat × Nat) => e.1 != 0 && covered e.2 && !fires e.2)
  let a := silent.foldl (fun (a : SubstOut) (e : Nat × Nat) =>
    giveDrop fires (s.substMask (8192 * p + e.2)) (partnerOf pairs e.2) pl e.2 e.1 a) ⟨out, 0, 0⟩
  { a with out := a.out.map (s.sizeMap cls) }

/-- Codes packed four to a byte (R104). -/
def packCodes : List Nat → List Nat
  | a :: b :: c :: d :: t => (a + 4 * b + 16 * c + 64 * d) :: packCodes t
  | _ => []

/-- The drop codes of a tile line (R70), nozzles of bad words as 0 (Table 1.8). -/
def tileRow (t : Tile) (l : Nat) : List Nat :=
  (((t.bytes.drop (256 * l)).take 256).flatMap (fun (b : Nat) => [b % 4, b / 4 % 4, b / 16 % 4, b / 64 % 4])).zipIdx.map
    (fun (e : Nat × Nat) => if t.bad.contains (16 * l + e.2 / 64) then 0 else e.1)

/-- What a port finds when it needs a tile line. -/
inductive TileView where
  /-- Not available yet. -/
  | wait
  /-- Code 0 by a ZERO billet, a gap band or a late tile. -/
  | zero
  /-- Code 0 by poison. -/
  | poison
  | codes (l : List Nat)
  deriving DecidableEq, Repr

/-- The tile of column k of a port for a fire line and its page line (R15–R17, R65–R67). -/
def State.tileView (s : State) (p k n pl : Nat) : TileView :=
  let b := wrapBand (pl / 64)
  let col := 8 * p + k
  if (s.port p).late.any (fun (e : Nat × Nat) => e.1 == n && bit e.2 k) then .zero
  else if s.gapBand b then .zero
  else
    match s.billetAt col b with
    | none => .wait
    | some x =>
      if x.poisoned then .poison
      else if x.zero then .zero
      else
        match s.tileAt col b with
        | none => .wait
        | some t => if pl % 64 < t.written then .codes (tileRow t (pl % 64)) else .wait

end Sys2Proof.Machine
end

