-- ==== Sys2Proof/Machine/LinkBase.lean ====
section
/-! DEFINITION. The sending side of Holza-H (R165–R176, R185): frames, credits, the command queue, trims, training's start
and its end at UP.  In the output record a downstream frame is its header word and data bytes; check symbols and line
coding follow from R27 and R165 and carry nothing more. -/

namespace Sys2Proof.Machine

/-- A port's link. -/
def State.link (s : State) (p : Nat) : Link := s.links.getD p {}
def State.onLink (s : State) (p : Nat) (f : Link → Link) : State := { s with links := modifyNth s.links p f }

/-- The link of a port is UP. -/
def State.linkUp (s : State) (p : Nat) : Bool := decide (p < s.nPorts) && (s.get (R.HLK_STAT_STATE p) == 5)

/-- Frame headers are sent (R240, R244): a claim is held, and the member is primary or a synchronised standby. -/
def State.linkSender (s : State) : Bool :=
  s.get R.HLK_CLAIM_CLAIM != 0 && (s.primary || (s.mode == .shadow && (s.synced || s.pair.quiet)))

/-- The pair is synchronised as this member sees it (R229, R230). -/
def State.pairSynced (s : State) : Bool :=
  if s.primary then s.flag R.TSL_STAT_HB_OK && (match s.pair.peerHb with | some b => bit (field b 2 1) 5 | none => false)
  else s.synced

/-- The partner shows a port parted in its newest OCRC frame (R226). -/
def State.peerParted (s : State) (p : Nat) : Bool :=
  match s.pair.theirs with | o :: _ => bit o.parted p | [] => false

/-- No line frame and no marker goes out on a parted port while the partner serves it (R229). -/
def State.hushed (s : State) (p : Nat) : Bool :=
  s.acct.parted.any (fun (u : PartedUnit) => u.src == p && u.cause != 2) && s.pairSynced && !s.peerParted p

/-- A downstream header word (Table 8.2). -/
def State.downHeader (s : State) (p seq ftype lctl nrec mapTag : Nat) : List Nat :=
  toBytes 4 seq ++ toBytes 4 (s.get R.HLK_CLAIM_CLAIM) ++ [ftype, p, lctl, nrec] ++ toBytes 2 mapTag ++ [0, 0]

/-- A byte list filled with zeros to whole words of 16. -/
def padWord (b : List Nat) : List Nat := b ++ List.replicate (ceilDiv b.length 16 * 16 - b.length) 0

/-- A LINE frame leaves (R170): packet, then the request words. -/
def State.sendLine (s : State) (p seq cls band mapTag : Nat) (codes res : List Nat) : State :=
  let req := res.flatMap (fun (n : Nat) => toBytes 2 n)
  let fill := List.replicate (ceilDiv res.length 8 * 16 - req.length) 0xFF
  s.emit (.down p 1 (s.downHeader p seq 1 (cls + 2 * band) res.length mapTag ++ packCodes codes ++ req ++ fill))

/-- A MARK block leaves (R166, R176): FINE, BLANK, DELAY and the low half of SEQ. -/
def State.sendMark (s : State) (p fine delay seq : Nat) (blank : Bool) : State :=
  let b := [fine % 32 + 32 * b2n blank] ++ toBytes 3 delay ++ toBytes 2 seq
  s.emit (.down p 0x96 (b ++ [crc8 b]))

/-- Credits available to a port (R185). -/
def State.credits (s : State) (p : Nat) : Nat :=
  s.get (R.HLK_CRED_GRANT p) - (s.get (R.HLK_CRED_SENT p) + 2 ^ 16 - (s.link p).creturn) % 2 ^ 16

/-- AVAIL shows the credits. -/
def State.showCredits (s : State) (p : Nat) : State := s.put (R.HLK_CRED_AVAIL p) (s.credits p)

/-- A frame that takes a credit leaves. -/
def State.sendCredit (s : State) (p ftype : Nat) (body : List Nat) : State :=
  ((s.emit (.down p ftype body)).put (R.HLK_CRED_SENT p) (s.get (R.HLK_CRED_SENT p) + 1)).showCredits p

/-- Records of TRIM frames sent whose line has not fired (R171). -/
def Link.trimsOut (l : Link) : Nat := (l.trimOut.map (fun (e : Nat × Nat) => e.2)).foldl (· + ·) 0

/-- The TRIM frame that may be sent next (R171). -/
def Link.trimNext (l : Link) : Option (Nat × List (Nat × Nat)) :=
  match l.trims with
  | t :: _ => if l.trimsOut + t.2.length ≤ 8192 then some t else none
  | [] => none

/-- Frames that wait for a credit go out in the order of R175: TRIM, then WAVE and CMD in CSEQ order on the primary. -/
def State.linkPumpN : Nat → State → Nat → State
  | 0, s, _ => s
  | fuel + 1, s, p =>
    let l := s.link p
    if !s.linkUp p || !s.linkSender || s.credits p == 0 then s
    else
      match l.trimNext with
      | some (seq, recs) =>
        let body := padWord (recs.flatMap (fun (r : Nat × Nat) => toBytes 2 r.1 ++ [r.2, 0]))
        let s := s.onLink p (fun l => { l with trims := l.trims.drop 1, trimOut := l.trimOut ++ [(seq, recs.length)] })
        State.linkPumpN fuel (s.sendCredit p 2 (s.downHeader p seq 2 0 recs.length 0 ++ body)) p
      | none =>
        match (if s.primary then l.queue.find? (fun (f : LinkFrame) => !f.sent) else none) with
        | none => s
        | some f =>
          let s := s.onLink p (fun l => { l with queue := l.queue.map (fun (g : LinkFrame) => if g.cseq == f.cseq then { g with sent := true } else g) })
          State.linkPumpN fuel (s.sendCredit p f.ftype (s.downHeader p f.cseq f.ftype 0 (b2n (f.ftype == 4)) 0 ++ f.body)) p

/-- Everything a port may send is sent. -/
def State.linkPump (s : State) (p : Nat) : State := State.linkPumpN 64 s p
def State.linkPumpAll (s : State) : State := s.forEach (List.range s.nPorts) State.linkPump

/-- A WAVE or CMD frame enters a port's command queue (R173, R175). -/
def State.linkPut (s : State) (p ftype op owner : Nat) (body : List Nat) : State :=
  s.onLink p (fun l => { l with cseq := (l.cseq + 1) % 2 ^ 32, queue := l.queue ++ [⟨l.cseq, ftype, op, body, false, owner⟩] })

/-- The HCMD record of a frame put into the queues of the ports of a mask (R219, Table 10.4). -/
def State.logHcmd (s : State) (mask : Nat) (body : List Nat) : State :=
  let base := match members 24 mask with | p :: _ => (s.link p).cseq | [] => 0
  s.logAdd 0x08 none 7 (toBytes 3 mask ++ toBytes 4 base ++ List.replicate 9 0 ++ body)

/-- The data bytes of a CMD frame (R173). -/
def cmdBody (op : Nat) (args : List Nat) : List Nat := (op :: args ++ List.replicate 31 0).take 32

/-- A command is put into the queues of a list of ports, and logged (R173, R219). -/
def State.linkCmd (s : State) (ports : List Nat) (op owner : Nat) (args : List Nat) : State :=
  let s := s.logHcmd (ports.foldl setBit 0) (cmdBody op args)
  s.forEach ports (fun s p => (s.linkPut p 4 op owner (cmdBody op args)).linkPump p)

/-- The data bytes of a WAVE frame (R172). -/
def ClassTab.bytes (t : ClassTab) (cls : Nat) : List Nat :=
  [cls, 0] ++ toBytes 2 t.off ++ t.trim.map (fun (a : Nat) => unsigned 8 (signed 7 a))
    ++ t.wf.flatMap (fun (w : Pulse) => toBytes 2 w.start ++ toBytes 2 w.width) ++ List.replicate 12 0

/-- A class's tables are put into the queues of a list of ports, and logged. -/
def State.linkWave (s : State) (ports : List Nat) (cls owner : Nat) (t : ClassTab) : State :=
  let s := s.logHcmd (ports.foldl setBit 0) (t.bytes cls)
  s.forEach ports (fun s p => (s.linkPut p 3 0 owner (t.bytes cls)).linkPump p)

/-- FLUSH goes to every port whose link is UP (R41, R173). -/
def State.linkFlush (s : State) : State := (s.linkCmd ((List.range s.nPorts).filter s.linkUp) 1 3 []).logClose

/-- A list cut into pieces of at most n. -/
def chunks {α : Type} (n : Nat) : Nat → List α → List (List α)
  | 0, _ => []
  | fuel + 1, l => if l.isEmpty then [] else l.take n :: chunks n fuel (l.drop n)

/-- Trim records wait to be sent on a port (R171). -/
def State.trimPut (s : State) (p seq : Nat) (recs : List (Nat × Nat)) : State :=
  s.onLink p (fun l => { l with trims := l.trims ++ (chunks 255 (recs.length / 255 + 1) recs).map (fun (c : List (Nat × Nat)) => (seq % 2 ^ 32, c)) })

/-- SEQ of the next line handed off (R174). -/
def State.nextSeq (s : State) : Nat := (s.get R.HLK_SEQ_SEQ + 1) % 2 ^ 40

/-- The full trim table of a port replaces what waited (R150). -/
def State.trimTable (s : State) (p : Nat) : State :=
  let s := s.onLink p (fun l => { l with trims := [], trimOut := [] })
  s.trimPut p s.nextSeq ((List.range 8192).map (fun (i : Nat) => (i, gTrim (s.grain (8192 * p + i)))))

/-- Records whose line has fired no longer count (R171). -/
def State.trimFired (s : State) (p seq : Nat) : State :=
  s.onLink p (fun l => { l with trimOut := l.trimOut.filter (fun (e : Nat × Nat) => decide (sdiff 32 seq e.1 < 0)) })

/-- A usage operation starts with a fresh nonce (R192, R193). -/
def State.usageSend (s : State) (p op : Nat) (again : Bool) : State :=
  let nonce := s.freeVal 128
  let s := s.took.onLink p (fun l => { l with usage := some (op, nonce, again), queue := l.queue.filter (fun (f : LinkFrame) => f.owner != 5) })
  let s := s.put (R.HLK_USTAT_PENDING p) 1
  (s.linkCmd [p] op 5 (List.replicate 15 0 ++ toBytes 16 nonce)).logClose

/-- The next class of a reload goes out, or the port holds the classes in force (R150). -/
def State.reloadNext (s : State) (p : Nat) : State :=
  match (s.link p).reload with
  | [] => s.onPort p (fun x => { x with loaded := true })
  | c :: rest =>
    match s.path.tab.getD c none with
    | none => s.onLink p (fun l => { l with reload := rest, stage := 0 })
    | some t =>
      let s := s.onLink p (fun l => { l with stage := 1 })
      (s.linkWave [p] c 2 t).logClose

/-- The classes in force. -/
def State.classesLoaded (s : State) : List Nat := (List.range 2).filter (fun (c : Nat) => (s.path.tab.getD c none).isSome)

/-- The temperature band of a port with no valid report (R155). -/
def State.bandStart (s : State) : Nat := if s.flag R.FIR_CTRL_BAND_AUTO then 0 else s.get R.FIR_CTRL_BAND_FIX

/-- What belongs to the time a link was UP ends with it: lanes, errors, trims, reloads (R150, R185, R191). -/
def State.linkForget (s : State) (p : Nat) : State :=
  let s := s.onLink p (fun l => { l with mask := 3, both := 0, backT := none, sticky := false, errT := [], trims := [], trimOut := [], reload := [], stage := 0 })
  s.onPort p (fun x => { x with loaded := false, noTemp := 0 })

/-- A port starts to train (R188, Table 8.6): state LOCK, the last failure cleared, no temperature report yet. -/
def State.trainStart (s : State) (p : Nat) : State :=
  let s := ((s.put (R.HLK_STAT_STATE p) 1).put (R.HLK_STAT_FAILCAUSE p) 0).put (R.HLK_STAT_LANES p) 0
  let s := (s.put (R.FIR_HTEMP_VALID p) 0).put (R.FIR_HTEMP_BAND p) s.bandStart
  (s.linkForget p).onPort p (fun x => { x with bandPend := none })

/-- A link goes off (Table 8.9, R34): electrical idle. -/
def State.linkOff (s : State) (p : Nat) : State :=
  let s := (s.put (R.HLK_STAT_STATE p) 0).put (R.HLK_STAT_LANES p) 0
  s.emit (.pin .linkIdle p 1)

/-- The head links start at boot step 13: every port with EN = 1 trains (R188, R299). -/
def State.hlkBootStart (s : State) : State :=
  s.forEach ((List.range s.nPorts).filter (fun (p : Nat) => s.flag (R.HLK_CTRL_EN p))) State.trainStart

/-- A port reaches UP (R150, R176, R185, Table 8.6): EQ, credits, counts from 0, outstanding frames sent again while the
procedure that owns them runs, the usage count, the classes in force and the full trim table. -/
def State.linkReachUp (s : State) (p cable : Nat) : State :=
  let s := s.put (R.HLK_LAT_CABLE p) cable
  let s := s.put (R.HLK_LAT_EQ p) (512 - 48 - cable - s.get (R.HLK_LAT_RXLAT p) - 64)
  let s := (s.put (R.HLK_STAT_STATE p) 5).put (R.HLK_STAT_LANES p) 2
  let credits := s.get (R.HLK_HMEM_DATA p 7) % 256
  let s := ((s.put (R.HLK_CRED_GRANT p) credits).put (R.HLK_CRED_SENT p) 0).put (R.HLK_CRED_AVAIL p) credits
  let s := if (s.link p).trained then (s.bump (R.HLK_EVTCNT_RETRAIN p)).bump (R.HLK_CRED_RESET_COUNT p) else s
  let spent (f : LinkFrame) : Bool := f.owner == 2 || (f.sent && (f.owner == 0 || f.owner == 3 || (f.owner == 1 && s.load.isNone)))
  let again := ((s.link p).queue.filter (fun (f : LinkFrame) => !spent f)).zipIdx.map
    (fun (e : LinkFrame × Nat) => { e.1 with cseq := e.2, sent := false })
  let s := s.onLink p (fun l => { l with
    trained := true, creturn := 0, queue := again, cseq := again.length
    reload := if s.primary then s.classesLoaded else [], stage := 0 })
  let s := if s.primary && s.flag (R.HLK_USTAT_GY5 p) && (s.link p).usage.isNone then s.usageSend p 5 false else s
  ((s.trimTable p).reloadNext p).linkPump p

end Sys2Proof.Machine
end

