-- ==== Sys2Proof/Machine/GrainOps.lean ====
section
/-! DEFINITION. Grain-map commits and verdicts (R93–R99, R171): their checks and their coming into force. -/

namespace Sys2Proof.Machine

/-- Bit ranges of the six fields of an entry, in FMASK order (Tables 5.2 and 5.4). -/
def grainFields : List (Nat × Nat × Nat) := [(0, 39, 37), (1, 36, 33), (2, 32, 21), (3, 20, 13), (4, 12, 8), (5, 7, 0)]

/-- An entry with the fields of a mask taken from a value (R96). -/
def grainMerge (e fmask v : Nat) : Nat :=
  grainFields.foldl (fun (e : Nat) (f : Nat × Nat × Nat) =>
    if bit fmask f.1 then e - bits e f.2.1 f.2.2 * 2 ^ f.2.2 + bits v f.2.1 f.2.2 * 2 ^ f.2.2 else e) e

/-- A record of the change list (Table 5.4). -/
def grecOf (b : List Nat) : GRec := ⟨bits (field b 0 4) 17 0, bits (field b 0 4) 29 24, field b 4 5⟩

/-- The cause of Table R97 a record gives by itself, 0 when none: 2, 3, 4 in that order. -/
def State.recCause (s : State) (b : List Nat) : Nat :=
  let r := grecOf b
  if 196608 ≤ r.nozzle ∨ s.nPorts * 8192 ≤ r.nozzle then 2
  else if bit r.fmask 0 ∧ 6 ≤ gState r.value then 3
  else if bits (field b 0 4) 23 18 ≠ 0 ∨ bits (field b 0 4) 31 30 ≠ 0 ∨ field b 9 3 ≠ 0 ∨ field b 12 4 ≠ 0 then 4
  else 0

/-- The fields a commit writes of a nozzle. -/
def fieldsWritten (l : List GRec) (g : Nat) : Nat :=
  (l.filter (fun (r : GRec) => r.nozzle == g)).foldl (fun (m : Nat) (r : GRec) => Nat.lor m r.fmask) 0

/-- A commit writes all six fields of all three entries of a word (R99). -/
def wholeWord (l : List GRec) (w : Nat) : Bool := [0, 1, 2].all (fun (i : Nat) => fieldsWritten l (3 * w + i) % 64 == 63)

/-- The first record that names a nozzle of a word breaking R99. -/
def State.parkBreak (s : State) (l : List GRec) : Option Nat :=
  l.findIdx? (fun (r : GRec) => s.path.parkWords.contains (r.nozzle / 3) && !wholeWord l (r.nozzle / 3))

/-- The refusal of a commit, as cause and index (R97). -/
def State.commitRefusal (s : State) (count : Nat) (recs : List (List Nat)) : Option (Nat × Nat) :=
  if s.mode = .boot ∨ s.mode = .safe ∨ s.mode = .shadow then some (6, 0)
  else if count = 0 ∨ 4096 < count then some (1, 0)
  else
    match recs.findIdx? (fun (b : List Nat) => s.recCause b != 0) with
    | some i => some (s.recCause (recs.getD i []), i)
    | none => (s.parkBreak (recs.map grecOf)).map (fun (i : Nat) => (5, i))

/-- What a set of commits that comes into force at one boundary has done so far (R95). -/
structure GrainAcc where
  s : State
  changed : Bool
  /-- Ports whose nozzles were named. -/
  ports : Nat
  /-- Nozzles whose TRIM changed. -/
  trims : List Nat

/-- One entry written: what changed is noted; a write of STATE ends the nozzle's scoring runs (R207). -/
def GrainAcc.write (a : GrainAcc) (g fmask v : Nat) : GrainAcc :=
  let e := a.s.grain g
  let e' := grainMerge e fmask v
  let path := { a.s.path with gmap := Cells.store dfltGrain a.s.path.gmap g e' }
  let ended (c : CamPort) : CamPort := if bit fmask 0 then { c with runs := Cells.store dfltZero c.runs g 0 } else c
  { s := { a.s with path := path, cam := { a.s.cam with ports := a.s.cam.ports.map ended } }
    changed := a.changed || (e / 256 != e' / 256)
    ports := if fmask % 32 = 0 then a.ports else setBit a.ports (g / 8192)
    trims := if gTrim e = gTrim e' then a.trims else if a.trims.contains g then a.trims else a.trims ++ [g] }

/-- One commit, in list order (R96, R97); words wholly written are parked no more (R99). -/
def GrainAcc.commit (a : GrainAcc) (l : List GRec) : GrainAcc :=
  let a := l.foldl (fun (a : GrainAcc) (r : GRec) => a.write r.nozzle r.fmask r.value) a
  let left := a.s.path.parkWords.filter (fun (w : Nat) => !wholeWord l w)
  let ended := decide (left.length < a.s.path.parkWords.length)
  let s := ({ a.s with path := { a.s.path with parkWords := left } } : State).put R.GMP_PARKWORDS_COUNT left.length
  { a with s := s, changed := a.changed || ended }

/-- One verdict (R98): only a nozzle that is OK, WEAK or SUSPECT changes. -/
def GrainAcc.verdict (a : GrainAcc) (g st : Nat) : GrainAcc :=
  if a.s.fires g then a.write g 1 (st * 2 ^ 37) else a

/-- The end of what comes into force together (R95, R171): one step of GMP_GEN, the map tags, the TRIM frames. -/
def GrainAcc.done (a : GrainAcc) : State :=
  if !a.changed then a.s
  else
    let s := a.s.count R.GMP_GEN_GEN
    let gen := s.get R.GMP_GEN_GEN
    let s := s.forEach (members 24 a.ports) (fun s p => s.onPort p (fun x => { x with mapTag := gen }))
    s.forEach ((List.range 24).filter (fun (p : Nat) => s.linkUp p && a.trims.any (fun (g : Nat) => g / 8192 == p)))
      (fun s p => (s.trimPut p s.nextSeq ((a.trims.filter (fun (g : Nat) => g / 8192 == p)).map
        (fun (g : Nat) => (g % 8192, gTrim (s.grain g))))).linkPump p)

/-- A change is a commit or a verdict. -/
def Change.isGrain (c : Change) : Bool := match c.kind with | .commit _ => true | .verdict _ _ _ => true | _ => false

/-- Changes of one source of verdicts, as nozzle and STATE. -/
def verdictsOf (src : Nat) (l : List Change) : List (Nat × Nat) :=
  l.filterMap (fun (c : Change) => match c.kind with | .verdict g st x => if x = src then some (g, st) else none | _ => none)

/-- Commits and verdicts that affect lines up to `line` come into force: commits in order of acceptance, then resistance
verdicts, then camera verdicts (R96, R98, R159). -/
def State.grainDue (s : State) (line : Nat) : State :=
  let l := s.path.changes.filter (fun (c : Change) => c.isGrain && decide (c.line ≤ line))
  if l.isEmpty then s
  else
    let s := { s with path := { s.path with changes := s.path.changes.filter (fun (c : Change) => !(c.isGrain && decide (c.line ≤ line))) } }
    let a : GrainAcc := ⟨s, false, 0, []⟩
    let a := l.foldl (fun (a : GrainAcc) (c : Change) => match c.kind with | .commit r => a.commit r | _ => a) a
    let a := (verdictsOf 0 l).foldl (fun (a : GrainAcc) (v : Nat × Nat) => a.verdict v.1 v.2) a
    let a := (verdictsOf 1 l).foldl (fun (a : GrainAcc) (v : Nat × Nat) => a.verdict v.1 v.2) a
    let s := a.done
    if s.flag R.GMP_CSTAT_BUSY && l.any (fun (c : Change) => match c.kind with | .commit _ => true | _ => false) then
      (s.put R.GMP_CSTAT_BUSY 0).raise R.GMP_CSTAT_DONE srcGMP
    else s

/-- Every commit and verdict that waits comes into force: entry into IDLE (R96). -/
def State.grainFlush (s : State) : State :=
  s.grainDue ((s.path.changes.map (fun (c : Change) => c.line)).foldl max 0)

/-- A change joins those not yet in force. -/
def State.addChange (s : State) (line : Nat) (k : ChangeKind) : State :=
  { s with path := { s.path with changes := s.path.changes ++ [⟨line, k⟩] } }

/-- EFF of a record for a first line (R219–R222): five lines before it, or on arrival while nothing is armed. -/
def State.effOf (s : State) (line : Nat) : Option Nat := if s.path.armed then some (line - 5) else none

/-- A commit is accepted (R96): at once in IDLE, otherwise for the line named or the first R21 allows.  Answers the state and
the first line affected. -/
def State.commitIn (s : State) (recs : List GRec) (at_ : Option Nat) : State × Nat :=
  let body := toBytes 2 recs.length ++ List.replicate 6 0
    ++ recs.flatMap (fun (r : GRec) => toBytes 4 (r.nozzle + r.fmask * 2 ^ 24) ++ toBytes 5 r.value ++ List.replicate 7 0)
  if s.mode = .idle then
    let s := s.logAdd 0x02 none 0 body
    let s := (s.addChange 0 (.commit recs)).put R.GMP_CSTAT_BUSY 1
    (s.grainDue 0, 0)
  else
    let line := match at_ with | some l => max l s.firstLine | none => s.firstLine
    let s := s.logAdd 0x02 (s.effOf line) 0 body
    ((s.addChange line (.commit recs)).put R.GMP_CSTAT_BUSY 1, line)

/-- A write of GMP_COMMIT with GO (R96, R97): the cause of the last refusal is held until this GO (Table 5.9). -/
def State.commitGo (s : State) (recs : List (List Nat)) (count : Nat) (at_ : Option Nat) : State × Nat :=
  match s.commitRefusal count recs with
  | some (cause, i) => (((s.put R.GMP_CSTAT_CAUSE cause).put R.GMP_CSTAT_INDEX i).raise R.GMP_CSTAT_REFUSED srcGMP, 0)
  | none => ((s.put R.GMP_CSTAT_CAUSE 0).put R.GMP_CSTAT_INDEX 0).commitIn (recs.map grecOf) at_

/-- Records 0 to n − 1 of the change list. -/
def State.changeList (s : State) (n : Nat) : List (List Nat) := (List.range n).map (fun (i : Nat) => s.bytesAt (0x42100000 + 16 * i) 16)

/-- The verdict entry of Table 10.4 and of the VERDICT event (Table 11.10). -/
def verdictWord (g st src : Nat) : Nat := g + st * 2 ^ 18 + src * 2 ^ 21

/-- A verdict is accepted on the member that decides (R98, R159, R208, R209): `code` is the pipeline, or 4 for resistance. -/
def State.verdictIn (s : State) (g st code : Nat) : State :=
  let src := if code < 4 then 1 else 0
  let line := s.firstLine
  let s := s.logOne 0x03 (s.effOf line) (if src = 1 then 4 else 5) (toBytes 4 (verdictWord g st code) ++ [0, 0, 0, 0])
  let s := s.postEvent 0x8013 (verdictWord g st code) line
  if s.path.armed then s.addChange line (.verdict g st src) else (s.addChange 0 (.verdict g st src)).grainDue 0

end Sys2Proof.Machine
end

