-- ==== Sys2Proof/Machine/CamOps.lean ====
section
/-! DEFINITION. Inspection (chapter 9): frames and lines, correction, registration, scoring, verdicts, statistics records,
captures, and what parting does to a pipeline. -/

namespace Sys2Proof.Machine

/-- A camera port and its pipeline. -/
def State.cport (s : State) (n : Nat) : CamPort := s.cam.ports.getD n {}
def State.onCam (s : State) (n : Nat) (f : CamPort → CamPort) : State :=
  { s with cam := { s.cam with ports := modifyNth s.cam.ports n f } }

/-- Frames of a port are taken in this mode (Table 9.2). -/
def State.camOn (s : State) (n : Nat) : Bool :=
  decide (n < s.nCams) && (match s.mode with
    | .idle => true | .calibrate => true | .print => true | .shadow => true | .maintain => bit s.maint.cams n | _ => false)

/-- Nozzles are scored in this mode (Table 9.2). -/
def State.camScores (s : State) : Bool := s.mode == .calibrate || s.mode == .print || s.mode == .shadow

/-- A pipeline is parted. -/
def State.pipeParted (s : State) (n : Nat) : Bool := s.acct.parted.any (fun (u : PartedUnit) => u.src == 28 + n)

/-- The partner pipeline, where it can serve (R199). -/
def partnerPipe (n : Nat) : Nat := Nat.xor n 1
def State.pipeServes (s : State) (n : Nat) : Bool :=
  s.flag R.CAM_GCFG_SHARE_EN && decide (partnerPipe n < s.nCams) && !s.pipeParted (partnerPipe n)

/-- Frames the staging buffer of a pair of pipelines holds. -/
def State.slotsOf (s : State) (n : Nat) : List (Nat × CamFrame) := s.cam.slots.filter (fun (e : Nat × CamFrame) => e.1 / 2 == n / 2)

/-- A PRINT, ILLUM or MISSING record goes to the ring, or is discarded (R210, Table 9.4). -/
def State.statRecord (s : State) (type : Nat) (rest : List Nat) : State :=
  if !s.flag R.CAM_SRING_CFG_EN then s
  else
    let n := 64 * 2 ^ min 4 (s.get R.CAM_SRING_CFG_SIZE)
    let h := s.get R.CAM_SRING_HEAD_HEAD % n
    if (h + 1) % n = s.get R.CAM_SRING_DONE_DONE % n then s.bump R.CAM_SRING_DROP_COUNT
    else
      let b := toBytes 2 0x5453 ++ [type + 128 * b2n s.cam.phase] ++ rest
      let s := s.emit (.hostWrite (s.get R.CAM_SRING_HI_ADDR_HI * 2 ^ 32 + s.get R.CAM_SRING_LO_ADDR_LO / 1024 * 1024 + 1024 * h)
        (b ++ List.replicate (1024 - b.length) 0))
      let s := s.put R.CAM_SRING_HEAD_HEAD ((h + 1) % n)
      if h + 1 = n then { s with cam := { s.cam with phase := !s.cam.phase } } else s

/-- The common fields of a record from PORT to PADDED (Table 9.4). -/
def State.statHead (s : State) (n : Nat) (f : CamFrame) (lines padded : Nat) : List Nat :=
  let pipe := if bit f.flags 5 then partnerPipe n else n
  let flags := f.flags % 512 - bits f.flags 6 6 * 64 + 64 * s.get (R.CAM_PIPE_STAT_REG_LOST n)
  [n] ++ toBytes 4 f.num ++ toBytes 8 (f.time % 2 ^ 40) ++ toBytes 8 (f.pos % 2 ^ 40) ++ toBytes 2 flags ++ [pipe, 0]
    ++ toBytes 2 (s.get (R.CAM_PIPE_REG_DX n)) ++ toBytes 2 (s.get (R.CAM_PIPE_REG_DY n)) ++ toBytes 2 lines ++ toBytes 2 padded

/-- A frame is dropped whole: counted, flagged, recorded as missing (R199, R210); a capture it was to satisfy waits on. -/
def State.camDrop (s : State) (n : Nat) (f : CamFrame) : State :=
  let s := (s.raise (R.CAM_STAT_DROPPED n) srcCAM).bump (R.CAM_DROPCNT_COUNT n)
  let s := if bit f.flags 15 then s.onCam n (fun c => { c with wanted := false }) else s
  s.statRecord 3 (s.statHead n f 0 0)

/-- The oldest frames of a staging buffer that are dropped are recorded in their turn. -/
def State.dropHead : Nat → State → Nat → State
  | 0, s, _ => s
  | fuel + 1, s, n =>
    match s.slotsOf n with
    | (p, f) :: _ =>
      if f.dropped then
        let s := { s with cam := { s.cam with slots := s.cam.slots.filter (fun (e : Nat × CamFrame) => !(e.1 == p && e.2.num == f.num)) } }
        State.dropHead fuel (s.camDrop p f) n
      else s
    | [] => s

/-- A pipeline is parted (R199): the frame in progress goes, with the windows and runs; frames it serves go too. -/
def State.camPart (s : State) (n : Nat) : State :=
  let served := (s.slotsOf n).map (fun (e : Nat × CamFrame) => e.1)
  let s := { s with cam := { s.cam with slots := s.cam.slots.map (fun (e : Nat × CamFrame) => if e.1 / 2 = n / 2 then (e.1, { e.2 with dropped := true }) else e) } }
  let s := State.dropHead 8 s n
  let s := match (s.cport n).frame with
    | some f => if f.shared || f.dropped then s else s.camDrop n f
    | none => s
  s.forEach (n :: served).eraseDups (fun s p => s.onCam p (fun c => { c with
    frame := c.frame.map (fun (f : CamFrame) => { f with dropped := true }), wins := [], runs := [], rows := [] }))

/-- A pipeline is restored: its port returns to it at its next frame start (R199). -/
def State.camUnpart (s : State) (_ : Nat) : State := s

/-- DEPTH as it acts (Table 4.7). -/
def State.cmpDepth (s : State) : Nat := max 1 (min 64 (s.get R.BLT_ENG_CFG_DEPTH))

/-- A job a compressor may start now: billets before pieces, pieces only while CAP_ENABLE = 1 (R85). -/
def State.cmpNext (s : State) : Option CmpJob :=
  match s.store.cmpWait.find? (fun (j : CmpJob) => match j with | .flight _ _ => true | _ => false) with
  | some j => some j
  | none => if s.flag R.BLT_ENG_CFG_CAP_ENABLE then s.store.cmpWait.head? else none

/-- Waiting work goes to free compressors, lowest index first (R85). -/
def State.cmpKickN : Nat → State → State
  | 0, s => s
  | fuel + 1, s =>
    match s.cmpNext, (List.range 4).find? (fun (k : Nat) => (s.store.cmp.getD k none).isNone && !s.bitIn R.BLT_CMP_PART_PARTED k) with
    | some j, some k =>
      let j' := match j with | .flight i _ => CmpJob.flight i s.cmpDepth | .capture c i _ => CmpJob.capture c i s.cmpDepth
      let st := { s.store with
        cmp := modifyNth s.store.cmp k (fun _ => some j'), cmpWait := s.store.cmpWait.erase j
        flights := match j with
          | .flight i _ => s.store.flights.map (fun (f : Flight) => if f.id = i then { f with phase := 2 } else f)
          | _ => s.store.flights }
      State.cmpKickN fuel { s with store := st }
    | _, _ => s
def State.cmpKick (s : State) : State := State.cmpKickN 4 s

/-- WIDTH and HEIGHT as they act (Table 9.5). -/
def State.camWidth (s : State) (n : Nat) : Nat := max 1 (min 16384 (s.get (R.CAM_SIZE_WIDTH n)))
def State.camHeight (s : State) (n : Nat) : Nat := max 1 (min 1024 (s.get (R.CAM_SIZE_HEIGHT n)))

/-- The position of what the camera sees now (R202): POS40 less the latency while speed is valid. -/
def State.camPos (s : State) (n : Nat) : Nat :=
  let pos := s.posOf s.lineSrc
  match s.countPeriod s.lineSrc with
  | some p =>
    if p = 0 then pos
    else ((pos : Int) - roundUp ((s.get (R.CAM_LAT_LAT n) : Rat) * 16 / 10 * 65536 / p)).emod (2 ^ 40 : Nat) |>.toNat
  | none => pos

/-- The line coordinate of a position, in 1/64 line (R202); `none` while ORIGIN is not resolved. -/
def State.lineCoord (s : State) (pos : Nat) : Option Int :=
  s.line.origin.map (fun (o : Nat) =>
    let d := if s.printUp then sdiff40 pos o else -(sdiff40 pos o)
    64 * (s.line.base : Int) + roundDiv (d * 65536 * 64) (max 1 s.line.pitch : Nat))

/-- A pixel brought to 12 bits (R201). -/
def State.rawPixel (s : State) (n v : Nat) : Nat :=
  match s.get (R.CAM_CFG_FMT n) with | 1 => v % 1024 * 4 | 2 => v % 4096 | _ => v % 256 * 16

/-- The darkness of a 12-bit pixel in column x (R201). -/
def State.darkness (s : State) (n x r : Nat) : Nat :=
  let w := s.get (wordFld (0x40980000 + 0x10000 * n + 4 * x))
  let v : Int := (((r : Int) - (w % 65536 : Nat)) * (w / 65536 : Nat) + 32768) / 65536
  255 - (max 0 (min 255 v)).toNat

/-- A row as the pipeline keeps it: bit 4 of its flags, the model's own, says that it has no line coordinate. -/
def State.mkRow (s : State) (n : Nat) (f : CamFrame) (k : Nat) (pixels : List Nat) (flags : Nat) : CamRow :=
  let raw := (pixels.take f.width).map (s.rawPixel n)
  let raw := raw ++ List.replicate (f.width - raw.length) (s.get (R.CAM_PAD_PAD n))
  let pos := if s.flag (R.CAM_CFG_SCAN n) then (f.base + k * s.get (R.CAM_YPITCH_YPITCH n)) % 2 ^ 40 else s.camPos n
  let c := s.lineCoord pos
  { c := c.getD 0, raw := raw, dark := raw.zipIdx.map (fun (e : Nat × Nat) => s.darkness n e.2 e.1)
    flags := flags + (if c.isNone then 16 else 0), used := pixels.length, time := s.time40 }

/-- A row takes part in scoring, registration and statistics (R197). -/
def CamRow.good (r : CamRow) : Bool := r.flags % 4 == 0

/-- SCALE as it acts, pixels per nozzle in 1/65,536. -/
def State.camScale (s : State) (n : Nat) : Nat := max 0x4000 (min 0x80000 (s.get (R.CAM_PIPE_GEOM_SCALE n)))

/-- The exact place of nozzle i of port p across the web, without DX (R202). -/
def State.camX (s : State) (n p i : Nat) : Rat :=
  (s.get (R.CAM_PIPE_PORTX_X n p) : Rat) / 256 + (i : Rat) * (s.camScale n : Rat) / 65536

/-- DX and DY in force. -/
def State.camDX (s : State) (n : Nat) : Int := signed 16 (s.get (R.CAM_PIPE_REG_DX n))
def State.camDY (s : State) (n : Nat) : Int := signed 16 (s.get (R.CAM_PIPE_REG_DY n))

/-- Ports a pipeline scores: those no lower-numbered pipeline names (R206). -/
def State.scoredPorts (s : State) (n : Nat) : List Nat :=
  (members s.nPorts (s.get (R.CAM_PIPE_PORTS_PORTS n))).filter (fun (p : Nat) =>
    !(List.range n).any (fun (m : Nat) => s.bitIn (R.CAM_PIPE_PORTS_PORTS m) p))

/-- Samples of a port in a row: nozzle and darkness (R202). -/
def State.samples (s : State) (n p : Nat) (r : CamRow) : List (Nat × Nat) :=
  (List.range 8192).filterMap (fun (i : Nat) =>
    let x := roundUp (s.camX n p i + (s.camDX n : Rat) / 16)
    if x < 0 ∨ r.used ≤ x.toNat ∨ r.dark.length ≤ x.toNat then none else some (i, r.dark.getD x.toNat 0))

/-- The latest fire line at which a port printed a page line, under the offsets of a list newest first (R203). -/
def fireLineOf (m : Int) : Option Nat → List (Nat × Nat) → Option (Nat × Nat)
  | _, [] => none
  | next, (e, off) :: t =>
    let n := m + off
    if decide ((e : Int) ≤ n ∧ 0 ≤ n) && (match next with | some k => decide (n < (k : Int)) | none => true) then some (n.toNat, e)
    else fireLineOf m (some e) t

/-- The mask of a port at a fire line, while the ring holds it (R204). -/
def State.maskAt (s : State) (p n : Nat) : Option Nat :=
  (s.cam.masks.find? (fun (m : MaskLine) => m.line == n)).map (fun (m : MaskLine) =>
    match m.ports.find? (fun (e : Nat × Nat) => e.1 == p) with | some e => e.2 | none => 0)

/-- A sample is a hit (R206). -/
def isHit (mask iso i : Nat) : Bool :=
  bit mask i && (List.range iso).all (fun (k : Nat) => !bit mask (i + k + 1) && (decide (i < k + 1) || !bit mask (i - (k + 1))))

/-- The score of a window's nozzle (R206). -/
def scoreOf (d n ref : Nat) : Nat := min 255 ((2 * 255 * d + ref * n) / (2 * ref * n))

/-- A run's verdict (R207–R209): issued in PRINT; a standby sends it to its primary. -/
def State.camVerdict (s : State) (n g : Nat) : State :=
  let s := (s.bump (R.CAM_PIPE_VERDICTS_COUNT n)).raise (R.CAM_PIPE_STAT_VERDICT n) srcCAM
  if s.mode = .shadow then s.pairFrame 0x24 0 (toBytes 4 (verdictWord g 3 n) ++ [0, 0, 0, 0]) else s.verdictIn g 3 n

/-- Verdicts are issued now (R207, Table 9.2). -/
def State.camJudges (s : State) (n : Nat) : Bool :=
  s.flag (R.CAM_PIPE_SCORE_VERDICT_EN n) && (s.mode == .print || (s.mode == .shadow && s.follow == .print))

/-- One nozzle of a closed window (R206, R207). -/
def State.scoreNozzle (s : State) (n : Nat) (f : CamFrame) (w : CamWin) (i : Nat) : State × CamFrame :=
  let hits := Cells.look dfltZero w.hits i
  if hits < max 1 (s.get (R.CAM_PIPE_SCORE_MINHIT n)) then (s, f)
  else
    let v := scoreOf (Cells.look dfltZero w.dark i) hits (max 1 (s.get (R.CAM_PIPE_SCORE_REF n)))
    let g := 8192 * w.p + i
    let low := decide (v < s.get (R.CAM_PIPE_SCORE_THRESH n))
    let e := s.grain g
    let s := ({ s with path := { s.path with gmap := Cells.store dfltGrain s.path.gmap g (e - e % 256 + v) } } : State).count (R.CAM_PIPE_SCORES_COUNT n)
    let f := { f with scores := f.scores + 1, low := f.low + b2n low }
    let run := Cells.look dfltZero (s.cport n).runs g
    let setRun (s : State) (x : Nat) : State := s.onCam n (fun c => { c with runs := Cells.store dfltZero c.runs g x })
    if !low then (setRun s 0, f)
    else
      let first := if run = 0 then 64 * w.m else run - 1
      if 512 ≤ 64 * w.m + 63 + 1 - first ∧ s.camJudges n = true then
        ((setRun s 0).camVerdict n g, { f with verds := f.verds + 1 })
      else (setRun s (first + 1), f)

/-- A window closes (R206): every nozzle with hits is scored, unless registration is lost. -/
def State.closeWin (s : State) (n : Nat) (f : CamFrame) (w : CamWin) : State × CamFrame :=
  let s := s.onCam n (fun c => { c with wins := c.wins.filter (fun (x : CamWin) => !(x.p == w.p && x.m == w.m)) })
  if s.flag (R.CAM_PIPE_STAT_REG_LOST n) then (s, f)
  else (w.hits.map (fun (e : Nat × Nat) => e.1)).foldl (fun (a : State × CamFrame) (i : Nat) => a.1.scoreNozzle n a.2 w i) (s, f)

/-- Samples of one line enter the window of its fire line (R206). -/
def State.addHits (s : State) (n p line mask : Nat) (l : List (Nat × Nat)) : State :=
  let iso := s.get (R.CAM_PIPE_SCORE_ISO n)
  let hits := l.filter (fun (e : Nat × Nat) => isHit mask iso e.1)
  let add (w : CamWin) : CamWin := hits.foldl (fun (w : CamWin) (e : Nat × Nat) => { w with
    hits := Cells.store dfltZero w.hits e.1 (Cells.look dfltZero w.hits e.1 + 1)
    dark := Cells.store dfltZero w.dark e.1 (Cells.look dfltZero w.dark e.1 + e.2) }) w
  s.onCam n (fun c =>
    if c.wins.any (fun (w : CamWin) => w.p == p && w.m == line / 64) then
      { c with wins := c.wins.map (fun (w : CamWin) => if w.p == p && w.m == line / 64 then add w else w) }
    else if c.wins.any (fun (w : CamWin) => w.p == p && decide (line / 64 < w.m)) then c
    else { c with wins := c.wins ++ [add ⟨p, line / 64, [], []⟩] })

/-- One port of one row: density, windows, hits (R203, R206, R210). -/
def State.scanPort (s : State) (n : Nat) (r : CamRow) (f : CamFrame) (p : Nat) : State × CamFrame :=
  let l := s.samples n p r
  let add (d : List (Nat × Nat × Nat)) (e : Nat × Nat) : List (Nat × Nat × Nat) :=
    let col := 8 * p + e.1 / 1024
    if d.any (fun (x : Nat × Nat × Nat) => x.1 == col) then d.map (fun (x : Nat × Nat × Nat) => if x.1 = col then (x.1, x.2.1 + e.2, x.2.2 + 1) else x)
    else d ++ [(col, e.2, 1)]
  let f := { f with dens := l.foldl add f.dens }
  if !s.camScores || bit r.flags 4 then (s, f)
  else
    let m := (r.c + s.camDY n - (s.get (R.CAM_PIPE_DIST_DIST n) : Int) + 32) / 64
    let offs : List (Nat × Nat) := match (s.port p).offs with | [] => [(0, s.get (R.BLT_SKEW_OFFSET p))] | o => o
    match fireLineOf m none offs with
    | none => ((s.count (R.CAM_PIPE_MASKMISS_COUNT n) l.length).when (!l.isEmpty) (fun s => s.raise (R.CAM_PIPE_STAT_MASK_MISS n) srcCAM), f)
    | some (line, _) =>
      let due := (s.cport n).wins.filter (fun (w : CamWin) => w.p == p && decide (64 * (w.m + 1) ≤ line))
      let (s, f) := due.foldl (fun (a : State × CamFrame) (w : CamWin) => a.1.closeWin n a.2 w) (s, f)
      let fresh := offs.any (fun (e : Nat × Nat) => decide (0 < e.1 ∧ e.1 ≤ line ∧ line < e.1 + 64))
      match (if fresh || s.path.lastFired.isNone || decide (s.encLine < line) then none else s.maskAt p line) with
      | none => ((s.count (R.CAM_PIPE_MASKMISS_COUNT n) l.length).when (!l.isEmpty) (fun s => s.raise (R.CAM_PIPE_STAT_MASK_MISS n) srcCAM), f)
      | some mask => (s.addHits n p line mask l, f)

/-- The mean of a list of numbers. -/
def meanR (l : List Nat) : Rat := if l.isEmpty then 0 else (l.foldl (· + ·) 0 : Nat) / (l.length : Rat)

/-- The first value of a list of places and means that reaches a threshold, interpolated with the one before it (R205). -/
def edgeOf (t : Rat) : Option (Rat × Rat) → List (Rat × Rat) → Option Rat
  | _, [] => none
  | prev, (x, v) :: rest =>
    if t ≤ v then
      match prev with
      | some (x0, v0) => if v0 < t ∧ v0 ≠ v then some (x0 + (t - v0) / (v - v0) * (x - x0)) else some x
      | none => some x
    else edgeOf t (some (x, v)) rest

/-- Mark m of a pipeline: first page line, height, left-edge nozzle, width (Table 9.6). -/
def State.markAt (s : State) (n m : Nat) : Nat × Nat × Nat × Nat :=
  (s.get (R.CAM_PIPE_MARK_Y n m), max 1 (s.get (R.CAM_PIPE_MARK_H n m)), s.get (R.CAM_PIPE_MARK2_G n m), max 1 (s.get (R.CAM_PIPE_MARK2_W n m)))

/-- Rows, newest first, let an occurrence at coordinate c be judged: its rows and the search behind it have been seen. -/
def markSeen (c : Int) (h search : Nat) (rows : List CamRow) : Bool :=
  let after := rows.takeWhile (fun (r : CamRow) => decide (c ≤ r.c))
  decide (after.length < rows.length) && decide (search < after.length)
    && (match rows with | r :: _ => decide (c + 64 * h ≤ r.c) | [] => false)

/-- A mark is found or not: the differences across in 1/16 pixel and along in 1/64 line (R205). -/
def State.findMark (s : State) (n m : Nat) (c : Int) (rows : List CamRow) : Option (Int × Int) :=
  let (_, h, g, w) := s.markAt n m
  let search := max 1 (s.get (R.CAM_PIPE_REGCFG_SEARCH n))
  let t : Rat := (s.get (R.CAM_PIPE_REGCFG_MTHRESH n) : Rat)
  let x0 := s.camX n (g / 8192) (g % 8192)
  let x1 := s.camX n (g / 8192) (g % 8192 + w)
  let asc := rows.reverse.filter (fun (r : CamRow) => r.good && !bit r.flags 4)
  let body := asc.filter (fun (r : CamRow) => decide (c ≤ r.c ∧ r.c < c + 64 * h))
  let cols : List Int := (List.range (2 * search + 1)).map (fun (k : Nat) => roundUp x0 - (search : Int) + (k : Int))
  let colMean (x : Int) : Rat := meanR (body.filterMap (fun (r : CamRow) => if 0 ≤ x ∧ x.toNat < r.used then r.dark[x.toNat]? else none))
  let across := edgeOf t none ((cols.filter (fun (x : Int) => decide (0 ≤ x))).map (fun (x : Int) => ((x : Rat), colMean x)))
  let before := (asc.filter (fun (r : CamRow) => decide (r.c < c))).reverse.take search
  let after := (asc.filter (fun (r : CamRow) => decide (c ≤ r.c))).take (search + 1)
  let lo := (max 0 (roundUp x0)).toNat
  let hi := (max 0 (roundUp x1)).toNat
  let rowMean (r : CamRow) : Rat := meanR ((r.dark.take (min hi r.used)).drop lo)
  let along := edgeOf t none ((before.reverse ++ after).map (fun (r : CamRow) => ((r.c : Rat), rowMean r)))
  match across, along with
  | some x, some y => some (roundUp ((x - x0) * 16), roundUp ((c : Rat) - y))
  | _, _ => none

/-- The outcome of one occurrence (R205): DX and DY, or a miss; four in a row pause scoring, a mark found resumes it. -/
def State.markOutcome (s : State) (n : Nat) (o : Option (Int × Int)) : State :=
  match o with
  | some (dx, dy) =>
    let s := (s.put (R.CAM_PIPE_REG_DX n) (unsigned 16 dx)).put (R.CAM_PIPE_REG_DY n) (unsigned 16 dy)
    let s := if s.flag (R.CAM_PIPE_STAT_REG_LOST n) then s.onCam n (fun c => { c with runs := [] }) else s
    (s.put (R.CAM_PIPE_STAT_REG_LOST n) 0).onCam n (fun c => { c with misses := 0 })
  | none =>
    let s := (s.raise (R.CAM_PIPE_STAT_REG_MISS n) srcCAM).bump (R.CAM_PIPE_VERDICTS_REGMISS n)
    let s := s.onCam n (fun c => { c with misses := c.misses + 1 })
    if 4 ≤ (s.cport n).misses then s.put (R.CAM_PIPE_STAT_REG_LOST n) 1 else s

/-- Occurrences of a mark, as line coordinates, among the rows kept (R205). -/
def State.markPlaces (s : State) (n m : Nat) (rows : List CamRow) : List Int :=
  match rows, rows.getLast? with
  | new :: _, some old =>
    let first : Int := 64 * ((s.markAt n m).1 : Int) + s.get (R.CAM_PIPE_DIST_DIST n)
    let per : Int := 64 * (s.get (R.CAM_PIPE_MPERIOD_PERIOD n) : Int)
    if per = 0 then (if old.c < first ∧ first ≤ new.c then [first] else [])
    else
      let j0 := max 0 ((old.c - first) / per)
      let cnt := (max 0 ((new.c - first) / per - j0 + 1)).toNat
      ((List.range cnt).map (fun (k : Nat) => first + (j0 + k) * per)).filter (fun (c : Int) => decide (old.c < c))
  | _, _ => []

/-- Registration on a new row (R205). -/
def State.register (s : State) (n : Nat) (r : CamRow) : State :=
  let marks := min 16 (s.get (R.CAM_PIPE_REGCFG_MARKS n))
  let old := (s.cport n).rows
  let rows := if bit r.flags 4 then old else (r :: old).take 1536
  let search := max 1 (s.get (R.CAM_PIPE_REGCFG_SEARCH n))
  let s := s.onCam n (fun c => { c with rows := rows })
  if marks = 0 ∨ bit r.flags 4 then
    (if marks = 0 then (s.put (R.CAM_PIPE_REG_DX n) 0).put (R.CAM_PIPE_REG_DY n) 0 else s)
  else s.forEach (List.range marks) (fun s m =>
    ((s.markPlaces n m rows).filter (fun (c : Int) => markSeen c (s.markAt n m).2.1 search rows && !markSeen c (s.markAt n m).2.1 search old)).foldl
      (fun (s : State) (c : Int) => s.markOutcome n (s.findMark n m c rows)) s)

/-- A corrected row runs through a pipeline: scoring with the DX and DY in force, then registration. -/
def State.camScan (s : State) (n : Nat) (f : CamFrame) (r : CamRow) : State × CamFrame :=
  let (s, f) := if r.good then (s.scoredPorts n).foldl (fun (a : State × CamFrame) (p : Nat) => a.1.scanPort n r a.2 p) (s, f) else (s, f)
  (s.register n r, f)

/-- Four-line moving means. -/
def smooth4 : List (Rat × Nat) → List (Rat × Nat)
  | a :: b :: c :: d :: t => ((a.1 + b.1 + c.1 + d.1) / 4, d.2) :: smooth4 (b :: c :: d :: t)
  | _ => []

/-- Times of the rising crossings (R211): `low` says that the value has been below M − HYST since the last. -/
def crossings (m h : Rat) : Bool → List (Rat × Nat) → List Nat
  | _, [] => []
  | low, (v, t) :: rest =>
    if low && decide (m + h < v) then t :: crossings m h false rest
    else crossings m h (low || decide (v < m - h)) rest

/-- FREQ, DEPTH and LEVEL of a frame (R211); where no line gives them, the spec states no value: free values. -/
def State.illum (s : State) (n : Nat) (f : CamFrame) : State × Nat × Nat × Nat :=
  let x0 := s.get (R.CAM_PIPE_ILL_X0 n)
  let x1 := s.get (R.CAM_PIPE_ILL_X1 n)
  let l := (f.rows.filter CamRow.good).filterMap (fun (r : CamRow) =>
    let strip := (r.raw.take (min (x1 + 1) r.used)).drop x0
    if strip.isEmpty then none else some (meanR strip, r.time))
  let sm := smooth4 l
  let vals := sm.map (fun (e : Rat × Nat) => e.1)
  match vals with
  | [] =>
    let a := s.freeVal 16
    let s := s.took
    let b := s.freeVal 16
    (s.took, 0, a, b)
  | v0 :: _ =>
    let mean := vals.foldl (· + ·) 0 / (vals.length : Rat)
    let hi := vals.foldl max v0
    let lo := vals.foldl min v0
    let free := s.freeVal 16
    let s := if hi + lo = 0 then s.took else s
    let depth := if hi + lo = 0 then free else (roundUp (1000 * (hi - lo) / (hi + lo))).toNat
    let q := crossings mean (s.get (R.CAM_PIPE_ILL2_HYST n) : Rat) false sm
    let dt : Int := match q.getLast?, q.head? with | some b, some a => sdiff40 b a | _, _ => 0
    let freq := if q.length < 2 ∨ dt ≤ 0 then 0 else (roundUp (((q.length - 1 : Nat) : Rat) * 100000000000 / (dt : Rat))).toNat
    (s, freq, depth, (roundUp mean).toNat)

/-- The ILLUM record of a frame and the flicker flag (R210, R211). -/
def State.illumRecord (s : State) (n : Nat) (f : CamFrame) (lines padded : Nat) : State :=
  if !s.flag (R.CAM_PIPE_ILL2_EN n) then s
  else
    let (s, freq, depth, level) := s.illum n f
    let s := if s.get (R.CAM_PIPE_ILL2_DEPTH_MAX n) < depth then s.raise (R.CAM_PIPE_STAT_FLICKER n) srcCAM else s
    s.statRecord 2 (s.statHead n f lines padded ++ toBytes 4 f.scores ++ toBytes 4 f.low ++ toBytes 2 f.verds ++ [0, 0]
      ++ toBytes 4 freq ++ toBytes 2 depth ++ toBytes 2 level)

/-- The density entries of a frame (Table 9.4): a column without a sample has no stated mean: a free value. -/
def State.densities (s : State) (n : Nat) (f : CamFrame) : State × List Nat :=
  ((s.scoredPorts n).flatMap (fun (p : Nat) => (List.range 8).map (fun (k : Nat) => 8 * p + k))).foldl
    (fun (a : State × List Nat) (col : Nat) =>
      match f.dens.find? (fun (e : Nat × Nat × Nat) => e.1 == col) with
      | some (_, sum, cnt) => (a.1, a.2 ++ [col, 0] ++ toBytes 2 (256 * sum / max 1 cnt))
      | none => (a.1.took, a.2 ++ [col, 0] ++ toBytes 2 (a.1.freeVal 16))) (s, [])

/-- A captured frame goes to the compressors in pieces (R83, R212). -/
def State.capStart (s : State) (n : Nat) (f : CamFrame) : State :=
  let raw := (s.cport n).capRaw
  let data := f.rows.flatMap (fun (r : CamRow) => if raw then r.raw.flatMap (toBytes 2) else r.dark.map (fun (d : Nat) => 255 - d))
  let pieces := chunks 16384 (data.length / 16384 + 1) data
  let pieces := pieces.map (fun (b : List Nat) => (b ++ List.replicate (16384 - b.length) 0, (none : Option (List Nat))))
  let head := toBytes 2 0x5043 ++ [n, b2n raw] ++ toBytes 4 f.num ++ toBytes 8 (f.time % 2 ^ 40) ++ toBytes 8 (f.pos % 2 ^ 40)
    ++ toBytes 2 f.width ++ toBytes 2 f.height ++ toBytes 2 (f.flags % 512)
  let s := s.onCam n (fun c => { c with wanted := false, cap := some ⟨head, f.rows.map (fun (r : CamRow) => r.flags % 16), pieces⟩ })
  ({ s with store := { s.store with cmpWait := s.store.cmpWait ++ (List.range pieces.length).map (fun (i : Nat) => CmpJob.capture n i 0) } } : State).cmpKick

/-- A processed frame ends (R210–R212). -/
def State.camFinish (s : State) (n : Nat) (f : CamFrame) : State :=
  let bad := (f.rows.filter (fun (r : CamRow) => !r.good)).length
  let lines := f.rows.length - bad
  let (s, d) := s.densities n f
  let s := s.statRecord 1 (s.statHead n f lines bad ++ toBytes 4 f.scores ++ toBytes 4 f.low ++ toBytes 2 f.verds
    ++ toBytes 2 (d.length / 4) ++ List.replicate 16 0 ++ d)
  let s := s.illumRecord n f lines bad
  if bit f.flags 15 then s.capStart n f else s

/-- Frames that a serving pipeline holds whole are processed in order of their starts (R199). -/
def State.serveSlots : Nat → State → Nat → State
  | 0, s, _ => s
  | fuel + 1, s, n =>
    match s.slotsOf n with
    | (p, f) :: _ =>
      let pop (s : State) : State := { s with cam := { s.cam with slots := s.cam.slots.filter (fun (e : Nat × CamFrame) => !(e.1 == p && e.2.num == f.num)) } }
      if f.dropped then State.serveSlots fuel ((pop s).camDrop p f) n
      else if f.ended then
        let (s, f) := f.rows.foldl (fun (a : State × CamFrame) (r : CamRow) => a.1.camScan p a.2 r) (s, f)
        State.serveSlots fuel ((pop s).camFinish p f) n
      else s
    | [] => s

/-- The frame in progress of a port closes (R196, R197). -/
def State.closeFrame (s : State) (n : Nat) (noFe : Bool) : State :=
  match (s.cport n).frame with
  | none => s
  | some f =>
    let s := s.onCam n (fun c => { c with frame := none })
    let s := if noFe then s.raise (R.CAM_STAT_NO_FE n) srcCAM else s
    if f.dropped then State.serveSlots 8 s n
    else
      let short := decide (f.rows.length < f.height)
      let s := if short then s.raise (R.CAM_STAT_SHORT_FRAME n) srcCAM else s
      let pad := (List.range (f.height - f.rows.length)).map (fun (i : Nat) => s.mkRow n f (f.rows.length + i) [] 1)
      let f := { f with rows := f.rows ++ pad, ended := true
                        flags := f.flags + (if short then 4 else 0) + (if noFe then 256 else 0) }
      if f.shared then
        let s := { s with cam := { s.cam with slots := s.cam.slots.map (fun (e : Nat × CamFrame) => if e.1 = n ∧ e.2.num = f.num then (n, f) else e) } }
        State.serveSlots 8 s n
      else s.camFinish n f

end Sys2Proof.Machine
end

