-- ==== Sys2Proof/Machine/DramOps.lean ====
section
/-! DEFINITION. The DRAM controller's shared operations (chapter 15): description, training, layout, parting, bands. -/

namespace Sys2Proof.Machine

/-- The 64-byte DRAM description (R335). -/
def State.dramDesc (s : State) : List Nat := (List.range 64).map (fun (i : Nat) => Cells.look dfltFlash s.flash.bytes (0x50000 + i))

/-- Its channel capacity in MiB (R335). -/
def descMB (b : List Nat) : Nat := field b 4 1 / 8 * 1024 * (64 / max 1 (field b 3 1)) * field b 5 1

/-- The description's CRC as it stands. -/
def descCrc (b : List Nat) : Nat := field b 0x3C 4

/-- The description is valid (R335, Table 15.2). -/
def descGood (b : List Nat) : Bool :=
  (field b 0 2 == 0x4444) && (field b 2 1 == 1) && (field b 3 1 == 4 || field b 3 1 == 8) && (field b 4 1 == 8 || field b 4 1 == 16)
    && (field b 5 1 == 1 || field b 5 1 == 2) && decide (field b 6 1 < 4) && decide (20 ≤ field b 7 1 ∧ field b 7 1 ≤ 24)
    && (field b 8 1 == 16 || field b 8 1 == 20) && (field b 9 1 == 0) && decide (260 ≤ field b 0xA 2 ∧ field b 0xA 2 ≤ 550)
    && (b.drop 0xC).take 48 == List.replicate 48 0 && (descCrc b == crc32c (b.take 0x3C)) && decide (descMB b ≤ 16384)

/-- HI_TEMP of the description. -/
def State.hiTemp (s : State) : Bool := bit (field s.dramDesc 6 1) 0

/-- A channel's stored training result counts: it was made under the present description (R336). -/
def State.dramStored (s : State) (c : Nat) : Bool :=
  bit s.flash.dramStore c && (s.flash.dramCrc.getD c 0 == descCrc s.dramDesc)

/-- Channels of a mask whose full training ended well: the results are stored (R336). -/
def State.dramSave (s : State) (mask : Nat) : State :=
  { s with flash := { s.flash with
    dramStore := Nat.lor s.flash.dramStore mask
    dramCrc := s.flash.dramCrc.zipIdx.map (fun (e : Nat × Nat) => if bit mask e.2 then descCrc s.dramDesc else e.1) } }

/-- A channel runs after training (R336, Table 15.10). -/
def State.dramUp (s : State) (c : Nat) (stored : Bool) : State :=
  ((s.put (R.DRC_CH_STAT_STATE c) 2).put (R.DRC_CH_STAT_STORED c) (b2n stored)).put (R.DRC_CH_SIZE_MB c) (descMB s.dramDesc)

/-- One channel of the controller. -/
def State.chan (s : State) (c : Nat) : DrcChan := s.drc.chans.getD c {}
def State.onChan (s : State) (c : Nat) (f : DrcChan → DrcChan) : State :=
  { s with drc := { s.drc with chans := modifyNth s.drc.chans c f } }

/-- MiB the regions above the job store take in the present layout (R340, Table 15.4). -/
def State.regionMB (s : State) : Nat :=
  64 + (if s.drc.layout.length = 1 then 2 else 4) + 32 * s.nCams + s.drc.maskMax * (if s.fuse.part12A then 12 else 24)

/-- DRC_STORE_MB: the layout's job store less the capacity of its parted channels (R340, R342). -/
def State.showStore (s : State) : State :=
  let cap := (s.drc.layout.map (fun (c : Nat) => s.get (R.DRC_CH_SIZE_MB c))).foldl (· + ·) 0
  let lost := ((s.drc.layout.filter (fun (c : Nat) => s.bitIn R.DRC_STAT_PARTED c)).map (fun (c : Nat) => s.get (R.DRC_CH_SIZE_MB c))).foldl (· + ·) 0
  (s.put R.DRC_STORE_MB_MB (cap - s.regionMB - lost)).showFull

/-- A relayout (R341): the layout is formed from the running channels; the mask ring, captures and consumed billets go. -/
def State.relayoutNow (s : State) : State :=
  let l := (List.range s.nChans).filter (fun (c : Nat) => s.get (R.DRC_CH_STAT_STATE c) == 2 && !s.bitIn R.DRC_STAT_PARTED c)
  let s := { s with
    drc := { s.drc with layout := l, grain := min 8 (s.get R.DRC_CTRL_GRAIN), maskMax := max 1 (min 64 (s.get R.DRC_LAYOUT_MASK_MAX)) }
    store := { s.store with billets := s.store.billets.filter (fun (b : Billet) => !b.consumed) }
    cam := { s.cam with masks := [] } }
  let s := (s.put R.DRC_STAT_INUSE (l.foldl setBit 0)).put R.DRC_STAT_ACC_SINGLE (b2n (l.length == 1))
  (s.put R.DRC_STAT_RELAYOUT_DUE 0).showStore

/-- A channel is parted (R342): no traffic; the layout stands until the next relayout. -/
def State.drcPart (s : State) (c : Nat) : State :=
  let s := (s.setIn R.DRC_STAT_PARTED c).put (R.DRC_CH_STAT_STATE c) 3
  let s := (s.put R.DRC_STAT_RELAYOUT_DUE 1).onChan c (fun _ => {})
  s.showStore

/-- A channel is restored: it is retrained from stored values and joins at the next relayout (R342). -/
def State.drcUnpart (s : State) (c : Nat) : State :=
  let s := (s.clrIn R.DRC_STAT_PARTED c).dramUp c true
  s.put R.DRC_STAT_RELAYOUT_DUE 1

/-- Lower bound of a band in quarter degrees (Table 15.5). -/
def State.bandFloor (s : State) (b : Nat) : Int :=
  match b with
  | 0 => -100000
  | 1 => 340
  | 2 => 380
  | _ => if s.hiTemp then 420 else 380

/-- The band a reading lies in (Table 15.5). -/
def State.bandOf (s : State) (t : Int) : Nat :=
  if s.bandFloor 3 < t then 3 else if s.hiTemp && decide (s.bandFloor 2 < t) then 2 else if s.bandFloor 1 < t then 1 else 0

/-- A band falls while the reading is at or below its lower bound less 2 °C (R343). -/
def State.bandFall (s : State) (t : Int) : Nat → Nat → Nat
  | 0, b => b
  | fuel + 1, b =>
    if 0 < b ∧ t ≤ s.bandFloor b - 8 then State.bandFall s t fuel (if b = 3 ∧ s.hiTemp = false then 1 else b - 1) else b

/-- A channel's temperature band follows its diode (R343). -/
def State.drcBand (s : State) (c : Nat) : State :=
  let k := 24 + s.get (R.DRC_CH_TEMP_DIODE c)
  let v := s.flag (R.CHK_CH_VALID k)
  let t := signed 16 (s.get (R.CHK_CH_VALUE k))
  let s := (s.put (R.DRC_CH_TEMP_TEMP c) (unsigned 10 t)).put (R.DRC_CH_TEMP_VALID c) (b2n v)
  let old := s.get (R.DRC_CH_STAT_TBAND c)
  let new := if !v then (if s.hiTemp then 2 else 3) else max (s.bandOf t) (s.bandFall t 3 old)
  let s := s.put (R.DRC_CH_STAT_TBAND c) new
  if new = 3 ∧ old ≠ 3 then s.raise R.DRC_STAT_HOT srcDRC else s

/-- Every channel's band, and HOT_HOLD with them (R343). -/
def State.drcBands (s : State) : State :=
  let s := s.forEach (List.range s.nChans) State.drcBand
  s.put R.BLT_STORE_STAT_HOT_HOLD (b2n ((List.range s.nChans).any (fun (c : Nat) => s.get (R.DRC_CH_STAT_TBAND c) == 3)))

end Sys2Proof.Machine
end

