-- ==== Sys2Proof/Machine/JobOps.lean ====
section
/-! DEFINITION. The end of a job: fire line E, and a stop (R40, R42). -/

namespace Sys2Proof.Machine

/-- The last fire line of [from, to) that prints a page line at or before `last` under one offset, 0 where none does. -/
def segEnd (sb last off from_ : Nat) (upTo : Option Nat) : Nat :=
  let n := last + off - sb
  let n := match upTo with | some t => min n (t - 1) | none => n
  if from_ ≤ n ∧ off ≤ n then n else 0

/-- The last fire line at which a port prints a page line of the job under its offsets (R42). -/
def State.portEnd (s : State) (last p : Nat) : Nat :=
  let segs : List (Nat × Nat) := match (s.port p).offs.reverse with | [] => [(0, s.get (R.BLT_SKEW_OFFSET p))] | l => l
  (segs.zipIdx.map (fun (e : (Nat × Nat) × Nat) =>
    segEnd (64 * s.path.startBand) (64 * last + 63) e.1.2 e.1.1 ((segs[e.2 + 1]?).map (·.1)))).foldl max 0

/-- Fire line E of the job in PRINT (R42, R64, R275); none for a continuous job. -/
def State.jobEnd (s : State) : Option Nat :=
  match s.store.cur with
  | none => none
  | some j =>
    if j.d.continuous then none
    else
      let e := (s.enabledPorts.map (s.portEnd j.d.lastBand)).foldl max 0
      let e := if s.enabledPorts.isEmpty then 64 * j.d.lastBand + 63 - 64 * s.path.startBand else e
      some (max s.path.endFloor e)

/-- The last fire line of the run: the stop in force or E, whichever comes first (R40, R42). -/
def State.lastLine (s : State) : Option Nat :=
  match s.path.stop, s.jobEnd with
  | some a, some b => some (min a b)
  | some a, none => some a
  | none, b => b

/-- A decision whose first line a stop will not reach is cancelled (R154). -/
def State.cancelAfter (s : State) (last : Nat) : State :=
  match s.path.decision with
  | some (_, line, _) =>
    if last < line then
      ({ s with path := { s.path with
        decision := none
        clsAt := s.path.clsAt.filter (fun (e : Nat × Nat) => decide (e.1 ≤ last))
        changes := s.path.changes.filter (fun (c : Change) => match c.kind with | .cls _ => false | _ => true) } } : State).put R.FIR_CTRL_PEND 0
    else s
  | none => s

/-- A stop is accepted: the last fire line is the named one, at the earliest the fourth after the next boundary, and an
earlier stop or E stays in force (R40, R276). -/
def State.stopRequest (s : State) (named cause : Nat) : State :=
  let last := max (s.path.next + 4) named
  let cause := match s.path.stop, s.jobEnd with
    | some a, _ => if a < last then s.path.stopCause else cause
    | none, some e => if e < last then mcJOB_END else cause
    | none, none => cause
  let last := match s.lastLine with | some l => min l last | none => last
  let s := { s with path := { s.path with stop := some last, stopCause := cause }, trans := true }
  s.cancelAfter last

end Sys2Proof.Machine
end

