-- ==== Sys2Proof/Machine/SpindleOps.lean ====
section
/-! DEFINITION. The Spindle's shared operations (chapter 5): what each lane renders next, port-lines, render deadlines. -/

namespace Sys2Proof.Machine

/-- The physical lane of a logical lane, when it is served (R92, R113). -/
def State.laneServed (s : State) (k : Nat) : Bool := s.get (R.SPN_LANEMAP_PHYS k) != 0x3F

/-- Its physical lane is in service (R112). -/
def State.laneUp (s : State) (k : Nat) : Bool := s.laneServed k && !s.bitIn R.SPN_PARTED_PARTED (s.get (R.SPN_LANEMAP_PHYS k))

/-- Tile columns of a port that a logical lane renders (R92). -/
def lanePart (lane p : Nat) : List Nat := (List.range 8).filter (fun (k : Nat) => (8 * p + k) / 6 == lane)

/-- Fire line n of a port is rendered: enabled, in service, inside the job (R15, R25, R66). -/
def State.renders (s : State) (p n : Nat) : Bool :=
  s.portEnabled p && !s.portParted p && decide ((s.port p).resume ≤ n) && (s.pageLine p n).isSome

/-- A started line of a port. -/
def State.qline (s : State) (p n : Nat) : Option QLine := (s.port p).queue.find? (fun (q : QLine) => q.line == n)

/-- The queue entry of a line changed. -/
def State.onQ (s : State) (p n : Nat) (f : QLine → QLine) : State :=
  s.onPort p (fun x => { x with queue := x.queue.map (fun (q : QLine) => if q.line == n then f q else q) })

/-- The tiles of a lane's part of a port-line are available (R17). -/
def State.partReady (s : State) (p n lane : Nat) : Bool :=
  match s.pageLine p n with
  | none => false
  | some pl => (lanePart lane p).all (fun (k : Nat) => s.tileView p k n pl != .wait)

/-- A lane's part of a port-line is still to be rendered and can be (R105). -/
def State.partDue (s : State) (p n lane : Nat) : Bool :=
  s.renders p n && (match s.qline p n with | none => true | some q => !bit q.done lane) && s.partReady p n lane

/-- Lines that may be rendered: not handed off, up to the render cursor (R105). -/
def State.openLines (s : State) : List Nat :=
  (List.range (s.cursorLine + 1 - s.path.handed)).map (fun (i : Nat) => s.path.handed + i)

/-- A lane's next item: the lowest line with a part it can render, its ports in increasing order (R105). -/
def State.laneWork (s : State) (lane : Nat) : Option LaneItem :=
  s.openLines.findSome? (fun (n : Nat) =>
    let ps := (portsOf lane).filter (fun (p : Nat) => s.partDue p n lane)
    if ps.isEmpty then none else some ⟨n, ps⟩)

/-- Logical lanes that render a port. -/
def State.portLanes (s : State) (p : Nat) : List Nat := (lanesOf p).filter (fun (k : Nat) => decide (k < s.nLanes))

/-- The render of a port-line starts (R105, R107): parts of lanes without a physical lane render as code 0 (R113). -/
def State.startLine (s : State) (p n : Nat) : State :=
  if (s.qline p n).isSome then s
  else
    let none_ := (s.portLanes p).filter (fun (k : Nat) => !s.laneServed k)
    let q : QLine := {
      line := n, done := none_.foldl setBit 0, rows := [], complete := false, mapTag := (s.port p).mapTag
      skewTag := s.get R.BLT_SKEW_GEN_GEN, cls := s.classOf n, codes := [], uncovered := !none_.isEmpty }
    let s := s.onPort p (fun x => { x with queue := x.queue ++ [q] })
    (s.count R.SPN_RENDERS_COUNT).put R.SPN_QUEUED_COUNT (s.get R.SPN_QUEUED_COUNT + 1)

/-- A port-line counts once as poisoned (R67). -/
def State.countPoison (s : State) (p n : Nat) : State :=
  if (s.port p).poisCnt.contains n then s
  else ((s.onPort p (fun x => { x with poisCnt := n :: x.poisCnt })).count (R.BLT_POISONL_COUNT p)).raiseIn R.BLT_POISONFLAGS_POISON p srcBLT

/-- A port-line counts once as late (R17, R19, R65). -/
def State.countLateLine (s : State) (p n : Nat) : State :=
  if (s.port p).lateCnt.contains n then s
  else (s.onPort p (fun x => { x with lateCnt := n :: x.lateCnt })).count (R.BLT_LATE_COUNT p)

/-- A tile of a port-line is late (R17, R65): LATE is set and the line counts. -/
def State.countLate (s : State) (p n : Nat) : State :=
  if (s.port p).lateCnt.contains n then s else (s.countLateLine p n).raiseIn R.BLT_LATEFLAGS_LATE p srcBLT

/-- The port-line is complete when every lane has rendered its part: its codes are formed (R100, R104, R113). -/
def State.tryComplete (s : State) (p n : Nat) : State :=
  match s.qline p n, s.pageLine p n with
  | some q, some pl =>
    if q.complete || !(s.portLanes p).all (fun (k : Nat) => bit q.done k) then s
    else
      let raw := (List.range 8).flatMap (fun (k : Nat) =>
        match q.rows.find? (fun (r : Nat × List Nat) => r.1 == k) with
        | some r => r.2
        | none => List.replicate 1024 0)
      let a := s.renderLine p pl q.cls raw (fun i => s.laneServed ((8192 * p + i) / 6144))
      let s := s.onQ p n (fun q => { q with complete := true, codes := a.out, rows := [] })
      let s := s.count R.SPN_SUBST_LOST_COUNT a.lost
      let s := if 0 < a.lost then s.raise R.SPN_STAT_SUBST_LOSS srcSPN else s
      let s := s.bump R.SPN_SUBST_OVF_COUNT a.ovf
      if q.uncovered then s.count R.SPN_UNCOVERED_COUNT else s
  | _, _ => s

/-- A lane has rendered its part of a port-line. -/
def State.partDone (s : State) (p n lane : Nat) : State :=
  match s.qline p n, s.pageLine p n with
  | some q, some pl =>
    if bit q.done lane then s
    else
      let views := (lanePart lane p).map (fun (k : Nat) => (k, s.tileView p k n pl))
      let rows := views.filterMap (fun (e : Nat × TileView) => match e.2 with | .codes l => some (e.1, l) | _ => none)
      let s := if views.any (fun (e : Nat × TileView) => e.2 == .poison) then s.countPoison p n else s
      (s.onQ p n (fun q => { q with done := setBit q.done lane, rows := q.rows ++ rows })).tryComplete p n
  | _, _ => s

/-- A free lane takes its next item (R105), after a known-answer test that is due (R111). -/
def State.laneKick (s : State) (lane : Nat) : State :=
  if (s.path.lanes.getD lane none).isSome || !s.laneUp lane || bit s.path.katDue (s.get (R.SPN_LANEMAP_PHYS lane)) then s
  else
    match s.laneWork lane with
    | none => s
    | some i =>
      let s := { s with path := { s.path with lanes := modifyNth s.path.lanes lane (fun _ => some i) } }
      i.ports.foldl (fun (s : State) (p : Nat) => s.startLine p i.line) s

/-- Ports none of whose lanes has a physical lane: their lines render as code 0 at once (R113). -/
def State.bareKick (s : State) : State :=
  s.forEach ((List.range 24).filter (fun (p : Nat) => s.portEnabled p && (s.portLanes p).all (fun (k : Nat) => !s.laneServed k)))
    (fun s p => s.forEach (s.openLines.filter (fun (n : Nat) => s.renders p n)) (fun s n => (s.startLine p n).tryComplete p n))

/-- Every free lane takes what it can (R105). -/
def State.renderKick (s : State) : State :=
  if s.path.armed && !s.path.closed then (s.forEach (List.range s.nLanes) State.laneKick).bareKick else s

/-- Supply and rendering are brought up to what is due. -/
def State.kick (s : State) : State := s.supplyKick.renderKick

/-- The render deadline of line n passes (R17, R65): tiles still awaited render as code 0 on it. -/
def State.deadline (s : State) (n : Nat) : State :=
  s.forEach (List.range 24) (fun s p =>
    match (if s.renders p n then s.pageLine p n else none) with
    | none => s
    | some pl =>
      let q := s.qline p n
      let mask := ((List.range 8).filter (fun (k : Nat) =>
        s.tileView p k n pl == .wait && !(match q with | some q => bit q.done ((8 * p + k) / 6) | none => false))).foldl setBit 0
      if mask = 0 then s
      else (s.onPort p (fun x => { x with late := (n, mask) :: x.late })).countLate p n)

/-- Everything a port keeps of lines up to n can go: they are handed off. -/
def State.pruneLine (s : State) (p n : Nat) : State :=
  s.onPort p (fun x => { x with
    late := x.late.filter (fun (e : Nat × Nat) => decide (n < e.1))
    lateCnt := x.lateCnt.filter (fun (m : Nat) => decide (n < m))
    poisCnt := x.poisCnt.filter (fun (m : Nat) => decide (n < m)) })

/-- The uncommitted lines of the ports a logical lane covers are discarded and rendered again (R112, R113). -/
def State.laneDiscard (s : State) (lane n : Nat) : State :=
  s.forEach ((portsOf lane).filter (fun (p : Nat) => s.portEnabled p && !s.portParted p)) (fun s p => s.shaveFrom p n)

/-- The spare pool shown (R92, R115). -/
def State.putPool (s : State) (m : Nat) : State := (s.put R.SPN_POOL_POOL m).put R.SPN_STAT_SPARES (popcount 34 m)

/-- Parted serving lanes are replaced at a boundary, the lower logical lane first (R112, R113); `n` is the first line not
committed. -/
def State.substitute (s : State) (n : Nat) : State :=
  s.forEach (List.range s.nLanes) (fun s k =>
    let ph := s.get (R.SPN_LANEMAP_PHYS k)
    if ph = 0x3F ∨ s.bitIn R.SPN_PARTED_PARTED ph = true then
      match members 34 (s.get R.SPN_POOL_POOL) with
      | l :: _ =>
        let s := (s.putPool (clrBit (s.get R.SPN_POOL_POOL) l)).put (R.SPN_LANEMAP_PHYS k) l
        let s := { s with path := { s.path with lanes := modifyNth s.path.lanes k (fun _ => none) } }
        s.laneDiscard k n
      | [] =>
        if ph = 0x3F then s
        else
          let s := (s.put (R.SPN_LANEMAP_PHYS k) 0x3F).raise R.SPN_STAT_NO_SPARE srcSPN
          let s := { s with path := { s.path with lanes := modifyNth s.path.lanes k (fun _ => none) } }
          s.laneDiscard k n
    else s)

/-- A step of VDD_SP is requested and not acknowledged (R109). -/
def State.spBusy (s : State) : Bool :=
  s.chuck.spWait.isSome || (match s.chuck.avs with | some (rail, _) => rail == 1 | none => false)

end Sys2Proof.Machine
end

