-- ==== Sys2Proof/Machine/IngestOps.lean ====
section
/-! DEFINITION. The ingest engine's shared operations (chapter 3): the descriptors in flight, completion records, entry into
the store index, and the BILLET and EVICT records of the pair log (R54–R56, R68, R69, R83, R224, R266). -/

namespace Sys2Proof.Machine

/-- Ring size of ring n (Table 3.4). -/
def State.ringSize (s : State) (n : Nat) : Nat := 64 * 2 ^ min 4 (s.get (R.ING_RING_CFG_SIZE n))

/-- The completion ring of ring n is full (R55). -/
def State.cqRingFull (s : State) (n : Nat) : Bool :=
  let z := s.ringSize n
  (s.store.cqIndex.getD n 0 + 1) % z == s.get (R.ING_RING_CQDONE_DONE n) % z

/-- A completion record (Table 3.3). -/
def Flight.record (f : Flight) (phase : Bool) : List Nat :=
  toBytes 4 f.cookie ++ toBytes 4 f.band ++ [f.col, f.status, f.ring + 0x80 * b2n phase, f.store] ++ toBytes 2 f.slen ++ [f.job, 0]

/-- A flight leaves the list. -/
def State.dropFlight (s : State) (id : Nat) : State :=
  { s with store := { s.store with flights := s.store.flights.filter (fun (g : Flight) => g.id != id) } }

/-- A flight changed. -/
def State.onFlight (s : State) (id : Nat) (k : Flight → Flight) : State :=
  { s with store := { s.store with flights := s.store.flights.map (fun (g : Flight) => if g.id == id then k g else g) } }

/-- A completion record is written to its ring, with the ring's MSI-X vector where the descriptor asks for it (R55). -/
def State.writeRecord (s : State) (f : Flight) : State :=
  let n := f.ring
  let i := s.store.cqIndex.getD n 0
  let base := s.get (R.ING_RING_CQHI_ADDR_HI n) * 2 ^ 32 + s.get (R.ING_RING_CQLO_ADDR_LO n) / 4096 * 4096
  let phase := s.store.cqPhase.getD n true
  let s := s.emit (.hostWrite (base + 16 * i) (f.record phase))
  let wrap := decide (s.ringSize n ≤ i + 1)
  let s := { s with store := { s.store with
    cqIndex := modifyNth s.store.cqIndex n (fun _ => if wrap then 0 else i + 1)
    cqPhase := if wrap then modifyNth s.store.cqPhase n (fun b => !b) else s.store.cqPhase } }
  if bit f.flags 2 then s.sendIrq (s.get (R.ING_RING_CFG_VEC n)) else s

/-- Records of one ring, or of the UDP path, are returned in the order of the descriptors (R55, R266). -/
def State.settle1 : Nat → State → Nat → Bool → State
  | 0, s, _, _ => s
  | fuel + 1, s, n, udp =>
    match s.store.flights.find? (fun (f : Flight) => f.ring == n && f.udp == udp) with
    | none => s
    | some f =>
      if f.phase ≠ 3 then s
      else if f.quiet then State.settle1 fuel (s.dropFlight f.id) n udp
      else if udp then
        let s := if s.flag R.MBX_UDP_SESS_OPEN then
            let s := s.sendUdp 5 s.mbx.icplSeq (f.record false)
            { s with mbx := { s.mbx with icplSeq := s.mbx.icplSeq + 1 } }
          else s
        State.settle1 fuel (s.dropFlight f.id) n udp
      else if s.cqRingFull n then s
      else State.settle1 fuel ((s.writeRecord f).dropFlight f.id) n udp

/-- Every completion record that may be written is written. -/
def State.recordsOut (s : State) : State :=
  let fuel := s.store.flights.length + 1
  State.settle1 fuel (s.forEach (List.range 4) (fun s n => State.settle1 fuel s n false)) 3 true

/-- A flight ends: it counts as returned unless its status is OK (R68). -/
def State.flightEnd (s : State) (id status store slen : Nat) : State :=
  let s := s.onFlight id (fun f => { f with phase := 3, status := status, store := store, slen := slen, bytes := [] })
  let s := s.put R.ING_INFLIGHT_COUNT (s.get R.ING_INFLIGHT_COUNT - 1)
  (if status = 0 then s else s.count R.ING_RETURNED_COUNT).recordsOut

/-- SLEN of a stored form. -/
def storedLen (zero : Bool) (bytes : List Nat) : Nat := if zero then 0 else ceilDiv bytes.length 64 * 64

/-- The resident billet of an identity (R58). -/
def State.resident (s : State) (job col band : Nat) : Option Billet :=
  s.store.billets.find? (fun (b : Billet) => b.job == job && b.col == col && b.band == band && !b.consumed)

/-- Check 10 of Table 3.2: none for a duplicate, else whether a resident billet is replaced (R56). -/
def State.checkTen (s : State) (f : Flight) : Option Bool :=
  let early := s.store.flights.any (fun (g : Flight) => g.phase == 5 && g.job == f.job && g.col == f.col && g.band == f.band)
  match s.resident f.job f.col f.band with
  | some b => if bit f.flags 1 && (b.staging == .no) && !b.poisoned then some true else none
  | none => if early then (if bit f.flags 1 then some true else none) else some false

/-- A billet becomes resident; a billet of the same identity leaves the store, evicted unused if it was not consumed
(R56, R58, R65). -/
def State.enterBillet (s : State) (job col band : Nat) (zero : Bool) (bytes : List Nat) (addr : Nat) : State :=
  let s := s.evictWhere (fun (b : Billet) => b.job == job && b.col == col && b.band == band)
  let b : Billet := {
    job := job, col := col, band := band, zero := zero, bytes := bytes, consumed := false, poisoned := false
    staging := .no, fails := 0, addr := addr }
  let s := { s with store := { s.store with billets := s.store.billets ++ [b] } }
  (s.put R.BLT_RESIDENT_COUNT (s.get R.BLT_RESIDENT_COUNT + 1)).showFull

/-- The DRAM unit address the store writes to next, and the state after. -/
def State.allocate (s : State) (len : Nat) : State × Nat :=
  ({ s with store := { s.store with alloc := s.store.alloc + max 64 (ceilDiv len 64 * 64) } }, s.store.alloc)

/-- Bytes of the log stream that are not acknowledged (R223). -/
def State.unacked (s : State) : Nat := (s.pair.buf.map (fun (e : Nat × List Nat) => e.2.length)).foldl (· + ·) 0

/-- The BILLET record of a flight (Table 10.4). -/
def Flight.billetBody (f : Flight) (addr : Nat) : List Nat :=
  let zero := bit f.flags 0
  let raw := !zero && (hdrFlags f.bytes % 2 == 1)
  [f.job, f.col, b2n zero + 2 * b2n raw + 4 * b2n (bit f.flags 1), 0] ++ toBytes 4 f.band ++ toBytes 4 (addr / 64)
    ++ toBytes 2 (storedLen zero f.bytes) ++ [0, 0] ++ f.bytes

/-- An EVICT record of one billet (Table 10.4). -/
def State.logEvict (s : State) (addr reason : Nat) : State :=
  s.logAdd 0x06 none 1 (toBytes 4 (addr / 64) ++ [reason, 0, 0, 0])

/-- Billets picked by a test are evicted, and the eviction is logged with its reason (R219). -/
def State.evictLogged (s : State) (f : Billet → Bool) (reason : Nat) : State :=
  ((s.store.billets.filter f).foldl (fun (s : State) (b : Billet) => s.logEvict b.addr reason) s).evictWhere f

/-- A flight whose billet may be entered now is entered, and its descriptor ends OK. -/
def State.flightEnter (s : State) (f : Flight) (addr : Nat) : State :=
  let zero := bit f.flags 0
  (s.enterBillet f.job f.col f.band zero f.bytes addr).flightEnd f.id 0 f.store (storedLen zero f.bytes)

/-- The stored form of a flight is ready: checks of its job and of its identity, and entry (R56, R60, R224). -/
def State.flightReady (s : State) (id : Nat) : State :=
  match s.store.flights.find? (fun (g : Flight) => g.id == id) with
  | none => s
  | some f =>
    if f.noJob then s.flightEnd id 0x12 0 0
    else
      match s.checkTen f with
      | none => s.flightEnd id 0x17 0 0
      | some _ =>
        let (s, addr) := s.allocate f.bytes.length
        s.flightEnter f addr

/-- The next flight waiting for the log is appended to it while the window allows (R223, R224); its identity is checked
here, since the record carries the outcome (log entry 63). -/
def State.appendOne (s : State) (f : Flight) : State :=
  if f.noJob then s.flightEnd f.id 0x12 0 0
  else
    match s.checkTen f with
    | none => s.flightEnd f.id 0x17 0 0
    | some _ =>
      let (s, addr) := s.allocate f.bytes.length
      let s := s.logOne 0x05 none 1 (f.billetBody addr)
      s.onFlight f.id (fun g => { g with phase := 5, addr := addr, logEnd := s.get R.TSL_LOG_TX_OFF })

/-- BILLET records go out while fewer than BILLET_WIN KiB are unacknowledged; with the log closed nothing waits for it. -/
def State.appendAll : Nat → State → State
  | 0, s => s
  | fuel + 1, s =>
    if s.logOpen then
      match s.store.flights.find? (fun (f : Flight) => f.phase == 4) with
      | some f =>
        if s.unacked < max 8 (min 128 (s.get R.TSL_CFG_BILLET_WIN)) * 1024 then State.appendAll fuel (s.appendOne f) else s
      | none => s
    else
      match s.store.flights.find? (fun (f : Flight) => f.phase == 4 || f.phase == 5) with
      | some f =>
        if f.phase = 4 then State.appendAll fuel (s.flightReady f.id)
        else State.appendAll fuel (if f.noJob then s.flightEnd f.id 0x12 0 0 else s.flightEnter f f.addr)
      | none => s
def State.appendKick (s : State) : State := State.appendAll (s.store.flights.length + 1) s

/-- A billet's stored form is ready to be entered: at once, or through the log (R56, R224). -/
def State.flightStored (s : State) (id : Nat) : State :=
  (if s.logOpen then (s.onFlight id (fun f => { f with phase := 4 })).appendKick else s.flightReady id).kick

/-- BILLET records acknowledged up to an offset enter their billets (R224). -/
def State.ackBillets (s : State) : State :=
  let acked := s.get R.TSL_LOG_ACK_OFF
  let l := s.store.flights.filter (fun (f : Flight) => f.phase == 5 && decide (sdiff 32 acked f.logEnd ≥ 0))
  let s := l.foldl (fun (s : State) (f : Flight) =>
    if f.noJob then ((s.logEvict f.addr 4).logClose).flightEnd f.id 0x12 0 0 else s.flightEnter f f.addr) s
  (if l.isEmpty then s else s.kick).appendKick

/-- Every flight in its host read ends with a status (Table 1.6, R259). -/
def State.readsEnd (s : State) (status : Nat) : State :=
  ((s.store.flights.filter (fun (f : Flight) => f.phase == 0 && !f.udp)).map (fun (f : Flight) => f.id)).foldl
    (fun (s : State) (id : Nat) => s.flightEnd id status 0 0) s

end Sys2Proof.Machine
end

