-- ==== Sys2Proof/Machine/MotionOps.lean ====
section
/-! DEFINITION. Shared operations on the stepper axes (chapter 19): profiles, targets, groups, LOST, stops. -/

namespace Sys2Proof.Machine

/-- One axis. -/
def State.axis (s : State) (n : Nat) : Axis := s.axes.getD n {}
def State.onAxis (s : State) (n : Nat) (f : Axis → Axis) : State := { s with axes := modifyNth s.axes n f }

/-- Position of an axis as the count of steps issued (R404). -/
def State.axPos (s : State) (n : Nat) : Int := signed 32 (s.get (R.MOT_AX_POS_POS n))

/-- DEC_MAX as it acts: below DEC_DEF it acts as DEC_DEF (Table 19.3). -/
def State.decMax (s : State) (n : Nat) : Nat := max (s.get (R.MOT_AX_W4_DEC_MAX n)) (s.get (R.MOT_AX_W3_DEC_DEF n))

/-- SPEED_MAX as it acts. -/
def State.speedMax (s : State) (n : Nat) : Nat := min 2000000 (s.get (R.MOT_AX_W1_SPEED_MAX n))

/-- An AXIS event (Table 12.7). -/
def State.axEvent (s : State) (n kind : Nat) : State := s.postEvent 0x8010 (n + kind * 256) (unsigned 32 (s.axPos n))

/-- STATE of an axis (Table 19.3). -/
def Axis.code (a : Axis) : Nat :=
  match a.run with
  | .rest => 0
  | .move => if a.grp then 4 else 1
  | .stop _ => 3
  | .home _ => 2
  | .homeWait => 2
  | .back => 2
  | .follow _ => 4

/-- STATE and VEL follow the axis. -/
def State.axShow (s : State) (n : Nat) : State :=
  let a := s.axis n
  (s.put (R.MOT_AX_STAT_STATE n) a.code).put (R.MOT_AX_VEL_VEL n) (unsigned 32 (if 0 ≤ a.vel then a.vel.floor else -((-a.vel).floor)))

/-- What an axis is doing changes. -/
def State.axRun (s : State) (n : Nat) (f : Axis → Axis) : State := (s.onAxis n f).axShow n

/-- LOST sets, with AXIS kind 5; HOMED clears (R404). -/
def State.axLost (s : State) (n : Nat) : State :=
  if s.flag (R.MOT_AX_STAT_LOST n) then s
  else ((s.put (R.MOT_AX_STAT_LOST n) 1).put (R.MOT_AX_STAT_HOMED n) 0).axEvent n 5

/-- LOST and UNCERTAIN clear (R409, R414). -/
def State.axFound (s : State) (n : Nat) : State :=
  ((s.put (R.MOT_AX_STAT_LOST n) 0).put (R.MOT_AX_STAT_UNCERTAIN n) 0).put (R.MOT_AX_UNCERT_E n) 0

/-- A status bit of an axis sets and rings MOT_EVT (R418). -/
def State.axRaise (s : State) (f : Fld) : State := s.raise f srcMOT

/-- Claim-gated outputs are driven by this member (R34). -/
def State.drives (s : State) : Bool := s.primary && s.mode != .shadow

/-- The position moves: steps are issued for the whole microsteps crossed (R405). -/
def State.axMoveTo (s : State) (n : Nat) (p v : Rat) : State :=
  let c := s.axPos n
  let c' : Int := if (c : Rat) + 1 ≤ p then p.floor else if p ≤ (c : Rat) - 1 then -((-p).floor) else c
  let s := s.put (R.MOT_AX_POS_POS n) (unsigned 32 c')
  let s := if c' = c ∨ s.drives = false then s else
    (s.emit (.pin .dir n (b2n (decide (c < c') != s.flag (R.MOT_AX_W0_DIR_INV n))))).emit (.pin .step n (c' - c).natAbs)
  s.axRun n (fun a => { a with pos := p, vel := v })

/-- An axis comes to rest where it is. -/
def State.axRest (s : State) (n : Nat) : State :=
  s.axRun n (fun a => { a with
    run := .rest, pos := (s.axPos n : Rat), vel := 0, braking := false, held := none, overrun := false, next := none
    grp := false, delta := 0, fast := 0, noStall := false })

/-- 1 µs in seconds. -/
def tickDt : Rat := 1 / 1000000

/-- The sign of a rational as −1, 0, 1. -/
def sgn (r : Rat) : Rat := if 0 < r then 1 else if r < 0 then -1 else 0

/-- One profile tick of slowing to zero at `d` (R405). -/
def Axis.slow (a : Axis) (d : Rat) : Axis :=
  let v := sgn a.vel * max 0 (absR a.vel - d * tickDt)
  { a with vel := v, pos := a.pos + v * tickDt }

/-- One profile tick toward the goal; the flag says that it has been reached (R405, R407). -/
def Axis.seek (a : Axis) (decMax : Rat) : Axis × Bool :=
  let dist := (a.goal : Rat) - a.pos
  if dist = 0 ∧ a.vel = 0 then (a, true)
  else if a.overrun ∨ (a.vel ≠ 0 ∧ sgn a.vel ≠ sgn dist) then
    let b := a.slow (if a.overrun then decMax else a.dec)
    ({ b with overrun := a.overrun && decide (b.vel ≠ 0) }, false)
  else
    let d := a.held.getD a.dec
    let rem := absR dist
    let sp := absR a.vel
    let brake := decide (sp ≠ 0) && (a.braking || decide (rem ≤ sp * sp / (2 * d) + sp * tickDt))
    let v := if brake then max 0 (sp - d * tickDt)
      else if sp < a.speed then min a.speed (sp + a.acc * tickDt) else max a.speed (sp - d * tickDt)
    if rem ≤ v * tickDt then ({ a with pos := a.goal, vel := 0, braking := false, held := none }, true)
    else ({ a with
      pos := a.pos + sgn dist * v * tickDt, vel := sgn dist * v, braking := brake && decide (v ≠ 0)
      held := if v = 0 then none else a.held }, false)

/-- A free axis starts toward a target. -/
def State.axStart (s : State) (n : Nat) (tgt : Int) (speed acc dec : Rat) : State :=
  (s.put (R.MOT_AX_STAT_STALL n) 0).axRun n (fun a => { a with
    run := .move, goal := tgt, speed := speed, acc := acc, dec := dec, braking := false, held := none, overrun := false
    next := none, grp := false, delta := 0 })

/-- The goal of a moving axis changes, reachable in the direction of travel (Table 19.1). -/
def State.axAim (s : State) (n : Nat) (goal : Int) : State :=
  let a := s.axis n
  let rem := absR ((goal : Rat) - a.pos)
  let need := if rem = 0 then (2 * s.decMax n : Rat) + 1 else a.vel * a.vel / (2 * rem)
  if need ≤ a.dec then s.axRun n (fun a => { a with goal := goal, held := none, overrun := false, braking := false })
  else if need ≤ (s.decMax n : Rat) then
    (s.axRun n (fun a => { a with goal := goal, held := some need, overrun := false, braking := true })).axRaise (R.MOT_AX_STAT_DECEL_HELD n)
  else
    let s := s.axRun n (fun a => { a with goal := goal, held := none, overrun := true, braking := false })
    (s.axRaise (R.MOT_AX_STAT_OVERSHOOT n)).axEvent n 6

/-- A move acts on an axis (R406, R407, Table 19.1). -/
def State.axMove (s : State) (n : Nat) (tgt : Int) (speed acc dec : Rat) : State :=
  let s := s.put (R.MOT_AX_TGT_TGT n) (unsigned 32 tgt)
  let a := s.axis n
  if a.run = .rest ∨ a.vel = 0 then s.axStart n tgt speed acc dec
  else
    let dist := (tgt : Rat) - a.pos
    let s := s.onAxis n (fun a => { a with speed := speed, acc := acc, dec := dec, next := none })
    if sgn dist = sgn a.vel then (s.onAxis n (fun a => { a with run := .move })).axAim n tgt
    else
      let s := match a.run with
        | .move => if sgn ((a.goal : Rat) - a.pos) = sgn a.vel then s.axAim n a.goal else s
        | _ => s
      s.onAxis n (fun a => { a with next := some (tgt, speed, acc, dec) })

/-- The members of the group an axis belongs to, leader first; the axis alone outside a group. -/
def State.axGroupOf (s : State) (n : Nat) : List Nat :=
  let lead := match (s.axis n).run with | .follow l => l | _ => n
  lead :: (List.range 8).filter (fun (i : Nat) => match (s.axis i).run with | .follow l => l == lead | _ => false)

/-- The leader of an axis's group. -/
def State.axLead (s : State) (n : Nat) : Nat := match (s.axis n).run with | .follow l => l | _ => n

/-- A moving axis slows to rest (R407); a group as one. -/
def State.axStop (s : State) (n : Nat) (dec : Option Rat) : State :=
  let l := s.axLead n
  let a := s.axis l
  match a.run with
  | .rest => s
  | .homeWait => (s.axRest l).axEvent l 1
  | _ => s.axRun l (fun a => { a with run := .stop (dec.getD a.dec), next := none, overrun := false, held := none, braking := false })

/-- A stop command: DECEL in force, or DEC_MAX with HARD (R407). -/
def State.axHalt (s : State) (n : Nat) (hard : Bool) : State :=
  s.axStop n (if hard then some (s.decMax (s.axLead n) : Rat) else none)

/-- Every other axis of a group comes to rest by itself (R408). -/
def State.axBreak (s : State) (n : Nat) : State :=
  let l := s.axLead n
  let lead := s.axis l
  let mates := (s.axGroupOf n).filter (fun (i : Nat) => i != n)
  s.forEach mates (fun s i =>
    let a := s.axis i
    let v := if i = l ∨ lead.delta = 0 then a.vel else absR lead.vel * (a.delta : Rat) / absR (lead.delta : Rat)
    s.axRun i (fun a => { a with run := .stop ((s.decMax i : Rat) * lead.ratio), vel := v, next := none, grp := false, held := none, overrun := false }))

/-- An axis issues no further step (R409, R411). -/
def State.axFreeze (s : State) (n : Nat) : State :=
  let s := if (s.axis n).grp || (match (s.axis n).run with | .follow _ => true | _ => false) then s.axBreak n else s
  s.axRest n

/-- An interpolation group starts (R408). -/
def State.axGroup (s : State) (mask : Nat) (tgts : List Int) (speed acc dec : Rat) : State :=
  let m := members 8 mask
  let d (i : Nat) : Int := tgts.getD i 0 - s.axPos i
  let lead := m.foldl (fun (b : Nat) (i : Nat) => if (d b).natAbs < (d i).natAbs then i else b) (m.headD 0)
  let s := s.forEach m (fun s i => s.put (R.MOT_AX_TGT_TGT i) (unsigned 32 (tgts.getD i 0)))
  if d lead = 0 then s.forEach m (fun s i => s.axEvent i 1)
  else
    let part (i : Nat) : Rat := ((d i).natAbs : Rat) / ((d lead).natAbs : Rat)
    let cap (limit value : Rat) (i : Nat) : Rat := if value * part i ≤ limit then 1 else limit / (value * part i)
    let r := m.foldl (fun (r : Rat) (i : Nat) =>
      min r (min (cap (s.speedMax i) speed i) (min (cap (s.decMax i) dec i) (cap (4 * s.get (R.MOT_AX_W2_ACC_DEF i)) acc i)))) 1
    let s := if r < 1 then s.axRaise (R.MOT_AX_STAT_GROUP_SLOWED lead) else s
    let s := s.forEach (m.filter (fun (i : Nat) => i != lead)) (fun s i =>
      s.axRun i (fun a => { a with run := .follow lead, start := s.axPos i, delta := d i, ratio := r, vel := 0 }))
    let s := s.axStart lead (tgts.getD lead 0) (speed * r) (acc * r) (dec * r)
    s.axRun lead (fun a => { a with grp := true, start := s.axPos lead, delta := d lead, ratio := r })

/-- Homing starts (R409). -/
def State.axHome (s : State) (n : Nat) (up : Bool) (speed : Rat) (backoff : Nat) : State :=
  (s.put (R.MOT_AX_STAT_STALL n) 0).axRun n (fun a => { a with
    run := .home up, speed := speed, acc := (s.get (R.MOT_AX_W2_ACC_DEF n) : Rat), dec := (s.get (R.MOT_AX_W3_DEC_DEF n) : Rat)
    fast := 0, homeFrom := s.axPos n, homeUp := up, backoff := backoff, noStall := false, grp := false, next := none })

/-- A motion request takes effect. -/
def State.axDo (s : State) (n : Nat) : AxReq → State
  | .move tgt speed acc dec => s.axMove n tgt speed acc dec
  | .stop hard => s.axHalt n hard
  | .home up speed backoff => s.axHome n up speed backoff
  | .group mask tgts speed acc dec => s.axGroup mask tgts speed acc dec

/-- An axis has come to rest after a stop: kind 1 with STOPPED, or kind 3 after a homing that found no stall; a driver
that was switched off follows (R407, R409, R410). -/
def State.axStopped (s : State) (n : Nat) : State :=
  let group := s.axGroupOf n
  let no := (s.axis n).noStall
  s.forEach group (fun s i =>
    let s := s.axRest i
    if no then s.axEvent i 3 else (s.axRaise (R.MOT_AX_STAT_STOPPED i)).axEvent i 1)

/-- Followers take their places from the leader's progress (R408). -/
def State.axFollow (s : State) (l : Nat) : State :=
  let lead := s.axis l
  let prog : Int := (s.axPos l - lead.start).natAbs
  let span : Int := max 1 lead.delta.natAbs
  s.forEach ((s.axGroupOf l).drop 1) (fun s i =>
    let a := s.axis i
    s.axMoveTo i ((a.start + roundDiv (a.delta * prog) span : Int) : Rat) (absR lead.vel * (a.delta : Rat) / (span : Rat)))

/-- A move has reached its target (R407, R408, R409). -/
def State.axArrived (s : State) (n : Nat) : State :=
  let a := s.axis n
  match a.run with
  | .back => (((s.axRest n).put (R.MOT_AX_STAT_HOMED n) 1).axEvent n 2)
  | _ =>
    match a.next with
    | some (tgt, speed, acc, dec) => s.axStart n tgt speed acc dec
    | none => s.forEach (s.axGroupOf n) (fun s i => (s.axRest i).axEvent i 1)

/-- One profile tick of an axis that runs a profile of its own (R405). -/
def State.axTick (s : State) (n : Nat) : State :=
  let a := s.axis n
  match a.run with
  | .rest => s
  | .homeWait => s
  | .follow _ => s
  | .stop dec =>
    let b := a.slow dec
    let s := s.axMoveTo n b.pos b.vel
    let s := if a.grp then s.axFollow n else s
    if b.vel = 0 then
      match a.next with
      | some (tgt, speed, acc, d) => s.axStart n tgt speed acc d
      | none => s.axStopped n
    else s
  | .home up =>
    let dir : Rat := if up then 1 else -1
    let v := min a.speed (absR a.vel + a.acc * tickDt)
    let s := s.axMoveTo n (a.pos + dir * v * tickDt) (dir * v)
    let s := s.onAxis n (fun a => { a with fast := if (s.get (R.MOT_AX_W10_STALL_MIN n) : Rat) ≤ v then a.fast + 1 else 0 })
    if (s.get (R.MOT_AX_W9_HOME_TRAVEL n) : Int) ≤ ((s.axPos n - a.homeFrom).natAbs : Int) then
      s.axRun n (fun a => { a with run := .stop a.dec, noStall := true })
    else s
  | _ =>
    let r := a.seek (s.decMax n)
    let s := s.axMoveTo n r.1.pos r.1.vel
    let s := s.onAxis n (fun b => { b with
      braking := r.1.braking, held := r.1.held, overrun := r.1.overrun
      fast := if (s.get (R.MOT_AX_W10_STALL_MIN n) : Rat) ≤ absR r.1.vel then b.fast + 1 else 0 })
    let s := if a.grp then s.axFollow n else s
    if r.2 then s.axArrived n else s

/-- Every moving axis is brought to rest at DEC_MAX (R46). -/
def State.motSafeStop (s : State) : State :=
  s.forEach (List.range 8) (fun s n => match (s.axis n).run with | .rest => s | .follow _ => s | _ => s.axHalt n true)

/-- Step outputs high-impedance at once; positions LOST unless RETAIN (R47, R410). -/
def State.motThermal (s : State) : State :=
  s.forEach (List.range 8) (fun s n =>
    let s := (s.axRest n).put (R.MOT_AX_STAT_DRV_ON n) 0
    if s.flag (R.MOT_AX_W0_RETAIN n) then s else s.axLost n)

/-- The axis state a stall, fault or SSI action results in, as the primary logs it (R416). -/
def State.axLog (s : State) (n : Nat) : State :=
  let st := s.get (R.MOT_AX_STAT_STATE n) + 8 * s.get (R.MOT_AX_STAT_LOST n) + 16 * s.get (R.MOT_AX_STAT_UNCERTAIN n)
    + 256 * s.get (R.MOT_AX_STAT_FAULT n) + 512 * s.get (R.MOT_AX_STAT_STALL n) + 1024 * s.get (R.MOT_AX_STAT_SSI_DEV n)
  s.logOne 0x01 none 2 (regwBody [(0x41000040 + 0x80 * n, st), (0x41000044 + 0x80 * n, s.get (R.MOT_AX_POS_POS n))])

/-- Moving axes at takeover (R417): `hb` gives the old primary's positions of the last heartbeat. -/
def State.axTakeover (s : State) (hb : Nat → Int) : State :=
  s.forEach (List.range 8) (fun s n =>
    let homing (s : State) : State := ((s.axRun n (fun a => { a with run := .stop (s.decMax n) })).axLost n)
    match (s.axis n).run with
    | .rest => s
    | .home _ => homing s
    | .homeWait => (s.axRest n).axLost n
    | .back => homing s
    | _ =>
      let e := (s.axPos n - hb n).natAbs
      let s := (s.put (R.MOT_AX_UNCERT_E n) (min e 65535)).put (R.MOT_AX_STAT_UNCERTAIN n) 1
      if s.get (R.MOT_AX_W11_UNCERT_MAX n) < e then (s.axHalt n true).axLost n else s)

/-- An axis takes the state a logged record carries (R416). -/
def State.axApply (s : State) (n st pos : Nat) : State :=
  let s := (s.put (R.MOT_AX_STAT_LOST n) (st / 8)).put (R.MOT_AX_STAT_UNCERTAIN n) (st / 16)
  let s := ((s.put (R.MOT_AX_STAT_FAULT n) (st / 256)).put (R.MOT_AX_STAT_STALL n) (st / 512)).put (R.MOT_AX_STAT_SSI_DEV n) (st / 1024)
  let s := s.put (R.MOT_AX_POS_POS n) pos
  if st % 8 = 0 then s.axRest n else s.onAxis n (fun a => { a with pos := (signed 32 pos : Rat) })

end Sys2Proof.Machine
end

