-- ==== Sys2Proof/Machine/Modes.lean ====
section
/-! DEFINITION. Mode changes, the outputs that follow the mode, and entry into SAFE (chapter 2). -/

namespace Sys2Proof.Machine

/-- The head-supply enables present (R386, R402). -/
def State.hvPresent (s : State) : Nat := if s.fuse.part12A then 3 else 15

/-- HV_EN0–3 as the mode asks for them (Table 2.4, R386, R34). -/
def State.hvTarget (s : State) : Nat :=
  let asked := Nat.land (match s.chuck.hvReq with | some m => m | none => s.get R.CHK_HV_EN) s.hvPresent
  match s.mode with
  | .print => s.hvPresent
  | .idle => asked
  | .calibrate => asked
  | .maintain => asked
  | .shadow => (match s.follow with | .print => s.hvPresent | .idle => asked | .calibrate => asked | .maintain => asked | _ => 0)
  | _ => 0

/-- The enables are driven; power-good is taken to follow an enable until a fall or a time-out is reported (log entry 20). -/
def State.hvApply (s : State) : State :=
  let t := s.hvTarget
  if t = s.chuck.hvOut then s
  else
    let s := s.forEach (List.range 4) (fun s g => if bit t g == bit s.chuck.hvOut g then s else s.emit (.pin .hvEn g (b2n (bit t g))))
    let pg := Nat.lor (Nat.land (s.get R.CHK_HV_PG) t) (t - Nat.land t s.chuck.hvOut)
    ({ s with chuck := { s.chuck with hvOut := t } }).put R.CHK_HV_PG pg

/-- MODE, PREV, TRANS and MBX_MODE_T change together (R31, R32).  Commits that wait come into force on entry into IDLE
(R96). -/
def State.modeChange (s : State) (m : Mode) : State :=
  let old := s.mode
  let s := if m = Mode.idle then s.grainFlush else s
  let s := { s with mode := m, prev := old, trans := false, modeT := s.time40, safeCause := if m = Mode.safe then s.safeCause else 0xFF }
  (s.ring srcMODE).hvApply

/-- The mode event of the last change (R31, Table 11.10). -/
def State.modeEvent (s : State) (cause : Nat) : State :=
  s.postEvent 0x8001 (s.mode.code + s.prev.code * 2 ^ 4 + cause * 2 ^ 8 + s.safeCause * 2 ^ 16) s.encLine

/-- A completed transition with its mode event (R31, R32). -/
def State.setMode (s : State) (m : Mode) (cause : Nat) : State := (s.modeChange m).modeEvent cause

/-- A failure record is written, newest first (R370, Table 17.3). -/
def State.failRecord (s : State) (type src unit cause : Nat) : State :=
  let seq := s.acct.failSeq + 1
  let b := toBytes 2 0x5246 ++ [type, src] ++ toBytes 4 seq ++ toBytes 4 (s.get R.BTJ_BOOTNO_BOOTNO)
    ++ [s.modeWord % 256, cause, unit, 0] ++ toBytes 8 (s.time40 % 2 ^ 40) ++ toBytes 8 (s.get R.FLT_STATUS_STATUS)
    ++ toBytes 8 (s.get R.FLT_PARTED_PARTED) ++ toBytes 5 s.encLine ++ [0] ++ toBytes 2 (unsigned 16 (signed 11 (s.get R.CHK_DIE_TMAX)))
    ++ toBytes 2 (s.get R.CHK_VCORE_TARGET) ++ toBytes 2 (s.get R.CHK_VSP_TARGET) ++ toBytes 4 (s.get R.HLK_CLAIM_CLAIM)
    ++ toBytes 4 0
  { s with acct := { s.acct with failSeq := seq }, flash := { s.flash with failRecords := (b ++ toBytes 4 (crc32c b)) :: s.flash.failRecords } }

/-- A journal entry is appended (R310, R311); BTJ_JPTR moves on. -/
def State.journal (s : State) (type step result way data : Nat) : State :=
  if s.flag R.BTJ_STAT_NO_JOURNAL then s
  else
    let tus := if s.mode = .boot then (s.now - s.boot.t0) / 1600 else s.time40 % 2 ^ 32
    let e : JEntry := ⟨type, step, result, way, s.get R.BTJ_BOOTNO_BOOTNO, tus % 2 ^ 32, data % 2 ^ 24⟩
    let n := s.flash.journal.length
    let sector : JEntry := ⟨0x0A, 0, 0, 0, s.get R.BTJ_BOOTNO_BOOTNO, tus % 2 ^ 32, n / 256 % 2 ^ 24⟩
    let j := if n % 256 = 0 then s.flash.journal ++ [sector, e] else s.flash.journal ++ [e]
    ({ s with flash := { s.flash with journal := j } }).put R.BTJ_JPTR_OFF (j.length % 16384 * 16)

/-- Claim-gated outputs are released (R34). -/
def State.releaseGated (s : State) : State := s.emit (.pin .claimGate 0 0)

/-- Long commands whose work a SAFE entry or an abort ends complete ABORTED (R257). -/
def State.abortLong (s : State) : State :=
  let s := (s.mbx.cmds.filter (fun (c : Cmd) => c.running)).foldl (fun s c => s.finish c stABORTED) s
  let s := if s.calRun.isSome then s.journal 0x06 0 2 0 (s.get R.CHK_CAL_GEN + 1) else s
  { s with load := none, calRun := none, maint := { s.maint with run := none, ending := none, cams := 0, axes := 0 } }

/-- What entry into SAFE discards: lines, pending skew changes, the head links (R33, R46). -/
def State.safeDiscards (s : State) : State :=
  let s := s.discardAll
  let s := s.dropSkew
  s.forEach (List.range s.nPorts) (fun s p => ((s.put (R.HLK_STAT_STATE p) 0).put (R.HLK_STAT_LANES p) 0).emit (.pin .linkIdle p 1))

/-- What entry into SAFE ends: the gated outputs in a pair or the axes, long commands, ALIVE (R34, R35, R46, R257). -/
def State.safeLoads (s : State) (src : Nat) (paired : Bool) : State :=
  let s := if paired then
      { (s.pairFault (if s.aon.thermLatch then 2 else 1) src).releaseGated with primary := false }
    else s.motSafeStop
  let s := s.abortLong
  ({ s with chuck := { s.chuck with aliveOn := false, aliveLevel := false, hvReq := none } }).emit (.pin .alive 0 0)

/-- The records of an entry into SAFE (R311, R370). -/
def State.safeRecords (s : State) (src unit cause : Nat) : State :=
  (if s.boot.flashOk || s.boot.coresUp then s.failRecord (if s.aon.thermLatch then 2 else 1) src unit cause else s).journal 0x09 0 0 0 src

/-- Entry into SAFE (R46, R33, R34, R35): cause, discards, outputs, axes, the mode, the records. -/
def State.safeEntry (s : State) (src unit cause mcause : Nat) : State :=
  let paired := decide (s.get R.TSL_STAT_LANES ≠ 0) && s.flag R.TSL_CFG_PAIR_EN
  ((({ s with safeCause := src }).safeDiscards.safeLoads src paired).setMode .safe mcause).safeRecords src unit cause

/-- Die shutdown (R47, R394): SAFE with THERM_LATCH; a SAFE already in force takes the latch. -/
def State.thermalShutdown (s : State) : State :=
  let s := { s with aon := { s.aon with thermLatch := true, retention := 1 } }
  let s := s.put R.FLT_STATUS_STATUS (setBit (s.get R.FLT_STATUS_STATUS) 51)
  let s := if s.mode = .safe then ({ s with safeCause := 51 }).failRecord 2 51 0 1 else s.safeEntry 51 0 1 mcTHERMAL
  s.motThermal

end Sys2Proof.Machine
end

