-- ==== Sys2Proof/Machine/PairBase.lean ====
section
/-! DEFINITION. Pair operation, the parts other chapters call on (chapter 10): events, the loss of the link, leaving
synchronisation, a join that fails. -/

namespace Sys2Proof.Machine

/-- Causes of R246. -/
def pcLATE_RECORD : Nat := 1
def pcDIVERGE : Nat := 2
def pcENCODER : Nat := 3
def pcSTORE : Nat := 4
def pcLOG_OVF : Nat := 5
def pcLINK : Nat := 6
def pcMISMATCH : Nat := 7
def pcNO_PRIMARY : Nat := 8
def pcALIGN : Nat := 9
def pcABORTED : Nat := 10

/-- A PAIR event (Table 12.7). -/
def State.pairEvent (s : State) (kind cause data : Nat) : State := s.postEvent 0x8012 (kind + cause * 2 ^ 8) data

/-- JOIN as TSL_STAT shows it: 1 COPY, 2 ALIGN, 3 VERIFY (Table 10.8). -/
def State.joinShow (s : State) : State :=
  s.put R.TSL_STAT_JOIN (match s.pair.join with | 3 => 1 | 4 => 2 | 5 => 3 | _ => 0)

/-- The phase of the join in progress changes. -/
def State.joinPhase (s : State) (k : Nat) : State := ({ s with pair := { s.pair with join := k } } : State).joinShow

/-- What a join had received is dropped. -/
def State.joinDrop (s : State) : State :=
  { s with pair := { s.pair with
    group := [], due := [], items := [], verified := 0, alignAt := none, copied := 0, copyAll := 0, aligned := 0, chunk := [], mine := [], theirs := [] } }

/-- A join fails (R241): JOIN_FAIL with its cause, the member back in IDLE with PRIMARY = 0. -/
def State.joinFail (s : State) (cause : Nat) : State :=
  let s := ((s.put R.TSL_STAT_CAUSE cause).raise R.TSL_STAT_JOIN_FAIL srcTSL).pairEvent 6 cause s.encLine
  let s := (s.joinPhase 0).joinDrop
  let s := ({ s with primary := false, synced := false } : State).put R.HLK_CLAIM_CLAIM 0
  let s := if s.mode = .shadow then s.disarm.setMode .idle mcCOMMAND else s
  s.finishLong opPAIR_JOIN 0x0170 cause

/-- A standby leaves synchronisation (R244): it stops sending at its next boundary, at once where none is armed, and
joins again from OPEN with AUTO_RESYNC = 1. -/
def State.desync (s : State) (cause : Nat) : State :=
  if s.mode = .shadow ∧ s.synced = true then
    let s := { s with synced := false, pair := { s.pair with quiet := s.path.armed } }
    let s := ((s.put R.TSL_STAT_CAUSE cause).raise R.TSL_STAT_DESYNC srcTSL).bump R.TSL_EVTCNT_DESYNCS
    let s := s.joinDrop.pairEvent 2 cause s.encLine
    if s.flag R.TSL_CFG_AUTO_RESYNC then s.joinPhase 2 else s
  else s

/-- The SPEED_CEIL duty the partner reports, while this primary is synchronised with it (R393). -/
def State.pairDuty (s : State) : Option Nat :=
  if s.primary && s.pairSynced then s.pair.peerState.map (fun (b : List Nat) => field b 80 2) else none

/-- LINK_LOST sets, with its event (R231, Table 12.7). -/
def State.linkLost (s : State) : State :=
  if s.flag R.TSL_STAT_LINK_LOST then s
  else (s.raise R.TSL_STAT_LINK_LOST srcTSL).pairEvent 4 0 s.encLine

/-- The pair link is down: no lane is left (R218), or its block is parted (Table 17.1).  A join in progress fails (R241). -/
def State.tslDown (s : State) : State :=
  let s := { s with pair := { s.pair with lanes := 0, state := 0, laneReady := 0, ident := none } }
  let s := (s.put R.TSL_STAT_LANES 0).linkLost
  if s.pair.join = 0 then s
  else if s.primary then { s with pair := { s.pair with join := 0 } }
  else s.joinFail pcLINK

end Sys2Proof.Machine
end

