-- ==== Sys2Proof/Machine/FaultOps.lean ====
section
/-! DEFINITION. The fault collector's shared operations (chapter 17): a report, parting, restoration, clearing; and the
freezing of a snapshot bank. -/

namespace Sys2Proof.Machine

/-- A FAULT event and the source's HIC ring: kind 1 parted, 2 restored, 3 held (R366, Table 11.10). -/
def State.faultNotice (s : State) (src kind : Nat) : State :=
  (s.ring (16 + src)).postEvent 0x8003 (src + kind * 2 ^ 8) (s.get R.FLT_STATUS_STATUS)

/-- A mailbox command executed by a vendor core that is parted: final completion INTERRUPTED if it had not committed (R258). -/
def State.interruptCmds (s : State) (core : Nat) : State :=
  let lost := s.mbx.cmds.filter (fun (c : Cmd) => c.core == core && !c.running)
  let s := lost.foldl (fun s c => s.finalEntry c stINTERRUPTED 0 1 (cmdClass c.op) []) s
  { s with mbx := { s.mbx with cmds := s.mbx.cmds.map (fun (c : Cmd) => if c.core == core then { c with core := s.vendorCore } else c) } }

/-- A port's lines when it is parted (R25, R161, R377): uncommitted ones are shavings, committed ones fire blank. -/
def State.partPort (s : State) (p : Nat) : State :=
  (s.shaveAll p).onPort p (fun x => { x with
    committed := x.committed.map (fun (c : CLine) => { c with blank := if c.blank = 3 ∨ c.blank = 4 then 1 else if c.blank = 1 then 1 else 2 }) })

/-- Work of a parted decompressor goes to the others, its partial tile discarded (R87, R90, Table 1.6). -/
def State.partDec (s : State) (d : Nat) : State :=
  let s := s.setIn R.BLT_DEC_PART_PARTED d
  match s.store.dec.getD d none with
  | some j =>
    let s := { s with store := { s.store with dec := modifyNth s.store.dec d (fun _ => none) } }
    (s.onPort (j.col / 8) (fun x => { x with
      tiles := x.tiles.filter (fun (t : Tile) => !(t.col == j.col && t.band == j.band && decide (t.written < 64))) })).kick
  | none => s

/-- Work of a parted compressor queues for the others (R85, Table 1.6). -/
def State.partCmp (s : State) (k : Nat) : State :=
  let s := s.setIn R.BLT_CMP_PART_PARTED k
  match s.store.cmp.getD k none with
  | some j => { s with store := { s.store with
      cmp := modifyNth s.store.cmp k (fun _ => none), cmpWait := j :: s.store.cmpWait } } |>.cmpKick
  | none => s

/-- A physical lane leaves service (R112): a spare leaves the pool at once, a serving lane is replaced at the next boundary. -/
def State.partLane (s : State) (l : Nat) : State :=
  let s := s.setIn R.SPN_PARTED_PARTED l
  let s := { s with path := { s.path with
    katOk := clrBit s.path.katOk l
    lanes := s.path.lanes.zipIdx.map (fun (e : Option LaneItem × Nat) => if s.get (R.SPN_LANEMAP_PHYS e.2) = l then none else e.1) } }
  let s := s.put R.SPN_POOL_POOL (clrBit (s.get R.SPN_POOL_POOL) l)
  (s.put R.SPN_STAT_SPARES (popcount 34 (s.get R.SPN_POOL_POOL))).when (!s.path.armed) (fun s => s.substitute 0)

/-- What parting does to a unit (Table 1.6, Table 17.1, R365). -/
def State.partEffect (s : State) (src unit : Nat) : State :=
  if src < 24 then s.partPort src
  else if src = 24 then s.partLane unit
  else if src = 25 then s.partDec unit
  else if src = 26 then s.partCmp unit
  else if src = 27 then s.readsEnd 0x18
  else if 28 ≤ src ∧ src ≤ 31 then s.camPart (src - 28)
  else if 32 ≤ src ∧ src ≤ 35 then s.drcPart (src - 32)
  else if 36 ≤ src ∧ src ≤ 41 then
    let c := src - 36
    let s := s.hicPart c
    if c < 4 then s.interruptCmds c else s
  else if src = 42 then s.tslDown
  else if src = 43 then { s with mbx := { s.mbx with pcieUp := false } }
  else if src = 46 then s.motSafeStop
  else if src = 47 then s.forEach (List.range 8) (fun s k =>
    ((s.put (R.CMP_CTRL_ENABLE k) 0).put (R.CMP_STAT_LEVEL k) 0).onCmp k (fun _ => {}))
  else s

/-- The collector latches a report of a source that is not chip-level, or of the unit part of one that is (R364, R365). -/
def State.latch (s : State) (src unit cause : Nat) : State :=
  let s := (s.put (R.FLT_SRC_UNIT src) unit).put (R.FLT_SRC_CAUSE src) cause
  let s := s.setIn R.FLT_STATUS_STATUS src
  let s := if s.flag R.FLT_FIRST_VALID then s else
    let s := ((s.put R.FLT_FIRST_SRC src).put R.FLT_FIRST_UNIT unit).put R.FLT_FIRST_CAUSE cause
    (s.put R.FLT_FIRST_VALID 1).put R.FLT_FIRST_T_T s.time40
  if 48 ≤ src then s
  else if s.unitParted src unit then
    { s with acct := { s.acct with parted := s.acct.parted.map (fun (u : PartedUnit) =>
        if u.src == src && u.unit == unit then { u with cause := cause, asserted := decide (src < 24) } else u) } }
  else
    let s := { s with acct := { s.acct with parted := ⟨src, unit, cause, decide (src < 24), false⟩ :: s.acct.parted } }
    let s := (s.setIn R.FLT_PARTED_PARTED src).put (R.FLT_SRC_PARTED src) 1
    (s.partEffect src unit).faultNotice src 1

/-- A source is chip-level (R369). -/
def State.chipLevel (s : State) (src : Nat) : Bool := s.bitIn R.FLT_CHIP_CHIP src

/-- A report whose source is chip-level takes the GY8 to SAFE (R46, R47, R369). -/
def State.chipReport (s : State) (src unit cause : Nat) : State :=
  if !s.chipLevel src then s
  else if src = 51 then s.thermalShutdown
  else if s.mode = .safe then s
  else s.safeEntry src unit cause mcFAULT

/-- No vendor core is left in service after the boot has started them (source CORES, Table 17.2). -/
def State.coresGone (s : State) : Bool := s.boot.coresUp && (List.range 4).all s.corePartedB

/-- A block's error line reports (R364–R366, R369): sources 57 to 63 never set (R363). -/
def State.report (s : State) (src unit cause : Nat) : State :=
  if 57 ≤ src then s
  else
    let s := s.latch src unit cause
    let s := s.chipReport src unit cause
    if 36 ≤ src ∧ src ≤ 39 ∧ s.coresGone = true then (s.latch 56 0 1).chipReport 56 0 1 else s

/-- The error line of a unit falls: its quiet period starts (R366). -/
def State.lineFalls (s : State) (src unit : Nat) : State :=
  { s with acct := { s.acct with parted := s.acct.parted.map (fun (u : PartedUnit) =>
      if u.src == src && u.unit == unit then { u with asserted := false } else u) } }

/-- What restoration does to a unit (R113, R114, R200, R317, R342, R365). -/
def State.restoreEffect (s : State) (src unit : Nat) : State :=
  if src < 24 then
    ((s.clrIn R.FIR_HOTFLAGS_HOT src).onPort src (fun x => { x with resume := s.path.next + 4 })).kick
  else if src = 24 then
    let s := s.put R.SPN_PARTED_PARTED (clrBit (s.get R.SPN_PARTED_PARTED) unit)
    let s := s.setIn R.SPN_POOL_POOL unit
    let s := s.put R.SPN_STAT_SPARES (popcount 34 (s.get R.SPN_POOL_POOL))
    if s.path.armed then s else s.substitute 0
  else if src = 25 then (s.clrIn R.BLT_DEC_PART_PARTED unit).kick
  else if src = 26 then (s.clrIn R.BLT_CMP_PART_PARTED unit).cmpKick
  else if 28 ≤ src ∧ src ≤ 31 then s.camUnpart (src - 28)
  else if 32 ≤ src ∧ src ≤ 35 then s.drcUnpart (src - 32)
  else if 36 ≤ src ∧ src ≤ 41 then s.hicUnpart (src - 36)
  else s

/-- The condition of Table 17.1 under which a quiet unit may be restored. -/
def State.restorable (s : State) (u : PartedUnit) : Bool :=
  !u.asserted && !u.held &&
  (if u.src < 24 then
      (s.get (R.HLK_STAT_STATE u.src) == 5) && s.flag (R.HLK_CTRL_EN u.src) && (!s.primary || (s.port u.src).loaded)
    else if u.src = 24 then bit s.path.katOk u.unit
    else if 32 ≤ u.src ∧ u.src ≤ 35 then s.mode == .idle && s.dramStored (u.src - 32)
    else true)

/-- Restorations of a source within the last 3,600 s (R367). -/
def State.recentRestores (s : State) (src : Nat) : Nat :=
  (s.acct.restored.filter (fun (r : Nat × Nat) => r.1 == src && decide (s.now < r.2 + 5760000000000))).length

/-- A unit that is due is restored, or held (R366, R367). -/
def State.restoreUnit (s : State) (src unit : Nat) : State :=
  match s.acct.parted.find? (fun (u : PartedUnit) => u.src == src && u.unit == unit) with
  | none => s
  | some u =>
    if !s.restorable u then s
    else if s.get R.FLT_QUIET_HOLD_N ≠ 0 ∧ s.get R.FLT_QUIET_HOLD_N ≤ s.recentRestores src then
      let s := { s with acct := { s.acct with parted := s.acct.parted.map (fun (v : PartedUnit) =>
        if v.src == src && v.unit == unit then { v with held := true } else v) } }
      let s := (s.setIn R.FLT_HELD_HELD src).put (R.FLT_SRC_HELD src) 1
      (s.faultNotice src 3).failRecord 3 src unit u.cause
    else
      let s := { s with acct := { s.acct with
        parted := s.acct.parted.filter (fun (v : PartedUnit) => !(v.src == src && v.unit == unit)),
        restored := (src, s.now) :: s.acct.restored } }
      let s := if s.acct.parted.any (fun (v : PartedUnit) => v.src == src) then s else
        (s.clrIn R.FLT_PARTED_PARTED src).put (R.FLT_SRC_PARTED src) 0
      let s := s.bump (R.FLT_SRC_RECOV src)
      (s.restoreEffect src unit).faultNotice src 2

/-- FLT_CLEAR of one source (R368). -/
def State.clearSource (s : State) (src : Nat) : State :=
  if 57 ≤ src then s
  else
    let still := s.acct.parted.any (fun (u : PartedUnit) => u.src == src && u.asserted)
    let s := if still then s else s.clrIn R.FLT_STATUS_STATUS src
    let s := (s.clrIn R.FLT_HELD_HELD src).put (R.FLT_SRC_HELD src) 0
    { s with acct := { s.acct with
        restored := s.acct.restored.filter (fun (r : Nat × Nat) => r.1 != src),
        parted := s.acct.parted.map (fun (u : PartedUnit) => if u.src == src then { u with held := false } else u) } }

/-- FLT_CLEAR of every source of a mask (R368). -/
def State.fltClear (s : State) (mask : Nat) : State := s.forEach (members 57 mask) State.clearSource

/-- Drop totals: accumulator plus counter, per nozzle (R372). -/
def dropTotals (accum drops : Cells) : Cells :=
  drops.foldl (fun a e => Cells.store dfltZero a e.1 ((Cells.look dfltZero a e.1 + e.2) % 2 ^ 64)) accum

/-- The bank a snapshot writes: the one that does not hold the newest complete snapshot (R373). -/
def State.snapBank (s : State) : Nat :=
  if s.acct.bank0.complete || s.acct.bank1.complete then 1 - s.get R.CNT_SNAP_BANK else 0

/-- All counters are frozen and the bank copy begins (R373–R375). -/
def State.freeze (s : State) (takeover : Bool) : State :=
  let gen := (s.acct.snapGen + 1) % 2 ^ 16
  let b : Bank := {
    complete := false, gen := gen, line := s.encLine, time := s.time40, seq := s.get R.HLK_SEQ_SEQ,
    claim := s.get R.HLK_CLAIM_CLAIM, modeWord := s.modeWord, status := s.get R.FLT_STATUS_STATUS,
    drainFlag := s.flag R.CNT_DRAIN_BUSY, takeover := takeover, image := s.regs,
    drops := dropTotals s.acct.accum s.acct.drops,
    sat := s.regs.filter (fun (e : Nat × Nat) => decide (0x40E04000 * 32 ≤ e.1 ∧ e.1 < 0x40E0A000 * 32)) }
  let k := s.snapBank
  let s := { s with acct := { s.acct with
    snapGen := gen, busy := some k, snapAt := none, snapTakeover := false,
    bank0 := (if k = 0 then b else s.acct.bank0), bank1 := (if k = 1 then b else s.acct.bank1) } }
  (s.put R.CNT_SNAP_BUSY 1).put R.CNT_SNAP_PENDING 1

/-- A snapshot is requested: at the next boundary or a named line; with no triggering armed it is taken at once (R288, R373). -/
def State.snapRequest (s : State) (next : Bool) (line : Nat) : State :=
  if s.flag R.CNT_SNAP_PENDING then s
  else if !s.path.armed then (if next then s.freeze false else s)
  else
    let at_ := if next || reached40 line s.encLine then none else some line
    ({ s with acct := { s.acct with snapAt := some at_ } }).put R.CNT_SNAP_PENDING 1

end Sys2Proof.Machine
end

