-- ==== Sys2Proof/Machine/ChuckOps.lean ====
section
/-! DEFINITION. Chuck's shared operations (chapter 18): calibration set, interpolation, codes and LOAD, AVS, die
temperatures, the THERMAL source. -/

namespace Sys2Proof.Machine

/-- A channel's reading as a signed number of quarter degrees. -/
def State.tempOf (s : State) (k : Nat) : Int := signed 16 (s.get (R.CHK_CH_VALUE k))

/-- θ_mean and θ_max as the registers show them (R391). -/
def State.thetaMean (s : State) : Int := signed 11 (s.get R.CHK_DIE_TMEAN)
def State.thetaMax (s : State) : Int := signed 11 (s.get R.CHK_DIE_TMAX)

/-- Points in ascending order of TEMP. -/
def insertPoint (p : CalPoint) : List CalPoint → List CalPoint
  | [] => [p]
  | q :: t => if p.temp ≤ q.temp then p :: q :: t else q :: insertPoint p t

/-- The points of a set in order of TEMP (R399). -/
def CalSet.sorted (c : CalSet) : List CalPoint := (c.points.map (·.2)).foldr insertPoint []

/-- Linear interpolation between ordered points, clamped at the ends, halves rounded away from zero (R399). -/
def interp (g : CalPoint → Nat) (d : Nat) (t : Int) : List CalPoint → Nat
  | [] => d
  | [a] => g a
  | a :: b :: rest =>
    if t ≤ a.temp then g a
    else if t < b.temp then
      (roundDiv ((g a : Int) * (b.temp - a.temp) + ((g b : Int) - (g a : Int)) * (t - a.temp)) (b.temp - a.temp)).toNat
    else interp g d t (b :: rest)

/-- VDD_CORE rounded to 5 mV and clamped (R385). -/
def coreTarget (v : Nat) : Nat := max 750 (min 900 ((2 * v + 5) / 10 * 5))

/-- AVS work starts when the bus is free: a VDD_SP step goes before a VDD_CORE change (R384). -/
def State.avsKick (s : State) : State :=
  match s.chuck.avs with
  | some _ => s
  | none =>
    match s.chuck.spWait with
    | some mv => ({ s with chuck := { s.chuck with avs := some (1, mv), avsTries := 0, spWait := none } }).emit (.avs 1 mv)
    | none =>
      match s.chuck.coreWait with
      | some mv => ({ s with chuck := { s.chuck with avs := some (0, mv), avsTries := 0, coreWait := none } }).emit (.avs 0 mv)
      | none => s

/-- The VDD_CORE target last asked for: the one that waits, the one on the bus, or the one in force (R385). -/
def State.coreAsked (s : State) : Nat :=
  match s.chuck.coreWait, s.chuck.avs with
  | some v, _ => v
  | none, some (0, v) => v
  | none, _ => s.get R.CHK_VCORE_TARGET

/-- A VDD_SP or VDD_CORE target is requested (R385). -/
def State.avsRequest (s : State) (rail mv : Nat) : State :=
  (if rail = 1 then { s with chuck := { s.chuck with spWait := some mv } }
   else { s with chuck := { s.chuck with coreWait := some mv } }).avsKick

/-- The VSTEP floor of the die band in force (Table 18.3, R395). -/
def State.spFloor (s : State) : Nat :=
  min 20 (match s.get R.CHK_STAT_TBAND with
  | 0 => s.get R.CHK_SPFLOOR_F0
  | 1 => s.get R.CHK_SPFLOOR_F1
  | 2 => s.get R.CHK_SPFLOOR_F2
  | _ => s.get R.CHK_SPFLOOR_F3)

/-- Shadow codes as interpolation or the manual fields give them (R387, R399, R400). -/
def State.interpolate (s : State) : State :=
  let t := s.thetaMean
  let pts := s.chuck.cal.sorted
  let trim := (List.range 24).map (fun p =>
    if s.flag R.CHK_CTRL_TRIM_MAN then s.get (R.CHK_TRIM_MAN p) else interp (fun c => c.trim.getD p 2048) 2048 t pts % 4096)
  let sense := (List.range 8).map (fun i =>
    if s.flag R.CHK_CTRL_SENSE_MAN then (if i % 2 = 0 then s.get (R.CHK_SENSE_LO (i / 2)) else s.get (R.CHK_SENSE_HI (i / 2)))
    else interp (fun c => c.sense.getD i (if i % 2 = 0 then 100 else 1000)) (if i % 2 = 0 then 100 else 1000) t pts % 1024)
  let v := coreTarget (interp (·.vcore) 850 t pts)
  let changed := decide (trim ≠ s.chuck.shadowTrim ∨ sense ≠ s.chuck.shadowSense)
  let s := { s with chuck := { s.chuck with
    shadowTrim := trim, shadowSense := sense, lastInterp := t, loadDue := s.chuck.loadDue || changed } }
  if v = s.coreAsked then s else s.avsRequest 0 v

/-- One LOAD strobe copies every shadow code to its output (R388). -/
def State.strobe (s : State) : State :=
  if !s.chuck.loadDue then s
  else
    let s := s.forEach (List.range 24) (fun s p => s.put (R.CHK_TRIM_CODE p) (s.chuck.shadowTrim.getD p 2048))
    let s := { s with chuck := { s.chuck with outSense := s.chuck.shadowSense, loadDue := false } }
    s.emit (.pin .loadStrobe 0 1)

/-- A set comes into force in one step (R398). -/
def State.calInForce (s : State) (c : CalSet) (bank : Option Nat) : State :=
  let s := { s with chuck := { s.chuck with cal := c, calBank := bank } }
  let s := s.forEach (List.range 4096) (fun s t =>
    s.put (R.SPN_DITHER_THRESH t) (match c.dither with | some l => l.getD t 0 | none => ditherDefault t))
  let s := s.forEach (List.range 16) (fun s r =>
    s.put (R.FIR_RANK_RNOM r) (match c.rnom with | some l => l.getD r 0 | none => 0))
  let s := s.forEach (List.range s.nCams) (fun s n => s.forEach (List.range 16384) (fun s i =>
    s.put (wordFld (0x40980000 + 0x10000 * n + 4 * i))
      (match c.flat.getD n none with | some l => l.getD i flatDefault | none => flatDefault)))
  let s := s.forEach (List.range 8) (fun s k =>
    match c.points.find? (fun (e : Nat × CalPoint) => e.1 == k) with
    | some (_, p) => (s.put (R.CHK_CALPT_TEMP k) (unsigned 11 p.temp)).put (R.CHK_CALPT_VALID k) 1
    | none => (s.put (R.CHK_CALPT_TEMP k) 0).put (R.CHK_CALPT_VALID k) 0)
  let s := (s.put R.CHK_CAL_GEN c.gen).put R.CHK_CAL2_BANK (bank.getD 0)
  let s := (s.put R.CHK_CAL2_POINTS c.points.length).put R.CHK_CAL2_DEFAULT (b2n bank.isNone)
  let s := (s.put R.BTJ_STAT_CAL_BANK (bank.getD 0)).put R.BTJ_STAT_CAL_DEFAULT (b2n bank.isNone)
  let s := { s with chuck := { s.chuck with loadDue := true } }
  s.interpolate

/-- Neighbours of sensor i in the 6 × 4 grid (R390, R391). -/
def sensorNeighbours (i : Nat) : List Nat :=
  (if 4 ≤ i then [i - 4] else []) ++ (if i < 20 then [i + 4] else [])
    ++ (if i % 4 ≠ 0 then [i - 1] else []) ++ (if i % 4 ≠ 3 then [i + 1] else [])

/-- CLASS of Table 6.4. -/
def State.classRate (s : State) : Nat :=
  let short := if s.flag R.FIR_CTRL_AUTO_SHORT then s.get R.FIR_TMIN_TMIN_S != 0 else s.flag R.FIR_CTRL_CLASS_SEL
  let loaded := if short then s.get R.FIR_TMIN_TMIN_S != 0 else s.get R.FIR_TMIN_TMIN_N != 0
  if !loaded then 192000 else min 192000 (if short then s.get R.FIR_RATE_S_RATE_S else s.get R.FIR_RATE_RATE_N)

/-- WARN and LIMIT in °C.  LIMIT's reset value of 130 fits no eight signed bits: codes below D8h (−40 °C, the lower end of R5) are read as
they stand, the others as negative (DESIGN CHOICE, log entry 67). -/
def dieDegrees (c : Nat) : Int := if c < 0xD8 then (c : Int) else (c : Int) - 256

/-- WARN, LIMIT in °C and FLOOR_PCT as they act (R394, Table 18.9). -/
def State.dieLimit (s : State) : Int := min 130 (dieDegrees (s.get R.CHK_DIE_CFG_LIMIT))
def State.dieWarn (s : State) : Int := min (min 125 (dieDegrees (s.get R.CHK_DIE_CFG_WARN))) (s.dieLimit - 2)
def State.dieFloor (s : State) : Nat := min 100 (s.get R.CHK_DIE_CFG_FLOOR_PCT)

/-- The die ceiling C_D at a temperature in °C, `none` below WARN (R393). -/
def State.dieCeil (s : State) (th : Rat) : Option Rat :=
  let w : Rat := s.dieWarn
  let l : Rat := s.dieLimit
  let c : Rat := s.classRate
  let f : Rat := (s.dieFloor : Rat) / 100
  if th < w then none
  else if th < l then some (c * (1 - (1 - f) * (th - w) / (l - w)))
  else some (c * f)

/-- A rational rounded down to a natural. -/
def ratFloor (r : Rat) : Nat := r.floor.toNat

/-- Active sources of the speed ceiling with their values, by bit of ENC_CEIL.SRC (Table 6.4, R134). -/
def State.ceilSources (s : State) : List (Nat × Nat) :=
  (if s.get R.ENC_CEIL_HOST_CEIL = 0xFFFFFF then [] else [(0, s.get R.ENC_CEIL_HOST_CEIL)])
  ++ [(1, s.classRate)]
  ++ (if s.line.speeding.isSome then [(2, s.classRate * 95 / 100)] else [])
  ++ (match s.chuck.thermal with | some r => [(3, ratFloor r)] | none => [])
  ++ (if s.flag R.SPN_PACE_CEIL && s.get R.SPN_PACE_TAU != 0 then [(4, 1360000000 / s.get R.SPN_PACE_TAU)] else [])

/-- ENC_CEIL: the least of the active sources, and the sources (R134). -/
def State.ceilNow (s : State) : Nat × Nat :=
  let l := s.ceilSources
  ((l.map (fun (e : Nat × Nat) => e.2)).foldl min 0xFFFFFF, (l.map (fun (e : Nat × Nat) => 2 ^ e.1)).foldl (· + ·) 0)

end Sys2Proof.Machine
end

