-- ==== Sys2Proof/Machine/Chuck.lean ====
section
/-! DEFINITION. Chuck (chapter 18): commands RAIL_POWER_GOOD to ALIVE_SERVICE_TIMEOUT. -/

namespace Sys2Proof.Machine

/-- A rail enable is raised and its power-good awaited (R382). -/
def State.enableRail (s : State) (k : Nat) : State :=
  let s := { s with chuck := { s.chuck with seqRail := k } }
  (s.put R.CHK_RAIL_EN (setBit (s.get R.CHK_RAIL_EN) (k - 1))).emit (.pin .railEn k 1)

/-- The start of boot step 2: AVS start points, then rail 1 (R382). -/
def State.railsBegin (s : State) : State :=
  let s := (s.put R.CHK_VCORE_TARGET 850).emit (.avs 0 850)
  let s := (s.put R.CHK_VSP_TARGET (700 + 10 * s.spFloor)).emit (.avs 1 (700 + 10 * s.spFloor))
  let s := s.put R.SPN_PACE_VSTEP s.spFloor
  s.enableRail 1

/-- RAIL_POWER_GOOD (R382, R383): the rail's monitors arm and the next rail is enabled. -/
def execRailPowerGood (k : Nat) (s : State) : Outc :=
  coreEvent s (fun s =>
    if k = s.chuck.seqRail ∧ 1 ≤ k ∧ k ≤ 7 then
      let s := s.put R.CHK_RAIL_PG (setBit (s.get R.CHK_RAIL_PG) (k - 1))
      if k < 7 then s.enableRail (k + 1) else { s with chuck := { s.chuck with seqRail := 0 } }
    else s)

/-- RAIL_PG_TIMEOUT (R382): step 2 fails and the GY8 enters SAFE with cause RAIL. -/
def execRailPgTimeout (k : Nat) (s : State) : Outc :=
  coreEvent s (fun s => if k = s.chuck.seqRail ∧ k ≠ 0 then ({ s with chuck := { s.chuck with seqRail := 0 } }).report 50 0 1 else s)

/-- UNDERVOLTAGE_TRIP (R383): the comparator of a rail whose power-good has come raises RAIL. -/
def execUndervoltageTrip (k : Nat) (s : State) : Outc :=
  coreEvent s (fun s => if 1 ≤ k ∧ k ≤ 7 ∧ s.bitIn R.CHK_RAIL_PG (k - 1) = true then s.report 50 0 1 else s)

/-- RAIL_RETENTION (R382): in the thermal latch the core rails go to retention and RAILEN_7 to RAILEN_3 fall. -/
def execRailRetention (s : State) : Outc :=
  aonEvent s (fun s =>
    if s.aon.thermLatch && (s.aon.retention == 1) then
      let s := (s.emit (.avs 0 600)).emit (.avs 1 600)
      let s := (s.put R.CHK_VCORE_TARGET 600).put R.CHK_VSP_TARGET 600
      let s := s.forEach [7, 6, 5, 4, 3] (fun s k =>
        ((s.put R.CHK_RAIL_EN (clrBit (s.get R.CHK_RAIL_EN) (k - 1))).put R.CHK_RAIL_PG (clrBit (s.get R.CHK_RAIL_PG) (k - 1))).emit (.pin .railEn k 0))
      { s with aon := { s.aon with retention := 2 } }
    else s)

/-- HOUSEKEEPING_SLOT (R390): the channel's reading is replaced; with the rails at retention only channels 0 to 27 are measured. -/
def execHousekeepingSlot (value : Nat) (valid : Bool) (s : State) : Outc :=
  aonEvent s (fun s =>
    if s.mode = .reset then s
    else
      let k := s.chuck.slot
      let s := { s with chuck := { s.chuck with
        slot := (if s.aon.retention = 2 ∧ 27 ≤ k then 0 else (k + 1) % 64),
        raw := modifyNth s.chuck.raw k (fun _ => value % 2 ^ 16) } }
      let s := if k < 24 && s.bitIn R.CHK_TS_BROKEN_BROKEN k then s
        else (s.put (R.CHK_CH_VALUE k) value).put (R.CHK_CH_VALID k) (b2n valid)
      let s := if k = 28 then s.put R.CHK_VCORE_MEAS value else if k = 29 then s.put R.CHK_VSP_MEAS value else s
      if 24 ≤ k ∧ k ≤ 27 ∧ valid = false ∧ s.aon.thermLatch = false then s.raise R.CHK_STAT_RD_BAD srcCHK else s)

/-- The sensors that count as neighbours: valid and not broken (R391). -/
def State.goodNeighbours (s : State) (i : Nat) : List Nat :=
  (sensorNeighbours i).filter (fun n => s.flag (R.CHK_CH_VALID n) && !s.bitIn R.CHK_TS_BROKEN_BROKEN n)

/-- The cross-check of one sensor in a round (R391). -/
def State.crossCheck (s : State) (i : Nat) : State :=
  let nb := s.goodNeighbours i
  let n : Int := nb.length
  let sum : Int := (nb.map s.tempOf).foldl (· + ·) 0
  let v : Int := signed 16 (s.chuck.raw.getD i 0)
  let d : Int := v * n - sum
  let lim : Int := (max 1 (s.get R.CHK_XCHK_LIMIT) : Nat) * 4 * n
  let broken := s.bitIn R.CHK_TS_BROKEN_BROKEN i
  let beyond := if 2 ≤ nb.length ∧ lim < d.natAbs then s.chuck.sensOver.getD i 0 + 1 else 0
  let within := if 2 ≤ nb.length ∧ 2 * (d.natAbs : Int) ≤ lim then s.chuck.sensIn.getD i 0 + 1 else 0
  let s := { s with chuck := { s.chuck with
    sensOver := modifyNth s.chuck.sensOver i (fun _ => beyond), sensIn := modifyNth s.chuck.sensIn i (fun _ => if broken then within else 0) } }
  let s := if !broken && decide (4 ≤ beyond) then
      (s.setIn R.CHK_TS_BROKEN_BROKEN i).raise R.CHK_STAT_SENS_BROKEN srcCHK
    else if broken && decide (256 ≤ within) then
      ((s.clrIn R.CHK_TS_BROKEN_BROKEN i).put (R.CHK_CH_SUBST i) 0).put (R.CHK_CH_VALUE i) (unsigned 16 v)
    else s
  if s.bitIn R.CHK_TS_BROKEN_BROKEN i then
    let nb := s.goodNeighbours i
    let s := if nb.isEmpty then s else
      s.put (R.CHK_CH_VALUE i) (unsigned 16 (roundDiv ((nb.map s.tempOf).foldl (· + ·) 0) nb.length))
    s.put (R.CHK_CH_SUBST i) 1
  else s

/-- θ_max, θ_mean and the rate of rise of a round (R391, R392). -/
def State.dieTemps (s : State) : State :=
  let ts := (List.range 24).map s.tempOf
  let mx := ts.foldl max (ts.headD 0)
  let mean := roundDiv (ts.foldl (· + ·) 0) 24
  let rate : Int := match s.chuck.hist.getD 15 mx with | old => (mx - old) * 625 / 8
  let s := (s.put R.CHK_DIE_TMAX (unsigned 11 mx)).put R.CHK_DIE_TMEAN (unsigned 11 mean)
  let s := s.put R.CHK_RISE_RATE (unsigned 16 rate)
  let r : Rat := (mx - s.chuck.hist.getD 15 mx : Int) * 125 / 16
  let rmax : Rat := s.get R.CHK_RISE_CFG_RISE_MAX
  let near := decide (4 * (s.dieWarn - (s.get R.CHK_RISE_CFG_RISE_BAND : Int)) ≤ mx)
  let on := if s.get R.CHK_RISE_CFG_RISE_MAX = 0 then false
    else if s.flag R.CHK_STAT_RISE then decide (¬ r < rmax / 2) else decide (rmax < r) && near
  { (s.put R.CHK_STAT_RISE (b2n on)) with chuck := { s.chuck with hist := (mx :: s.chuck.hist).take 16 } }

/-- θ_eff in °C (R392); the rate is over the 16 rounds that end with this one. -/
def State.thetaEff (s : State) (oldMax : Int) : Rat :=
  let mx := s.thetaMax
  let r : Rat := (mx - oldMax : Int) * 125 / 16
  (mx : Rat) / 4 + (if s.flag R.CHK_STAT_RISE then r * (s.get R.CHK_RISE_CFG_HOR : Rat) / 100 else 0)

/-- The THERMAL source at the end of a round (R391, R393). -/
def State.thermalSource (s : State) (th : Rat) : State :=
  let cls : Rat := s.classRate
  let cd := s.dieCeil th
  let c1 : Rat := match cd with | some c => c | none => cls
  let c2 : Rat := if s.get R.FIR_HCEIL_CEIL = 0xFFFFFF then cls else min c1 (s.get R.FIR_HCEIL_CEIL : Rat)
  let c3 : Rat := match s.pairDuty with | some d => (d : Rat) * (s.get R.ENC_CEIL_FS_FS : Rat) / 2500 | none => cls
  let target := min (min c1 c2) (min c3 cls)
  let step : Rat := (max 1 (s.get R.CHK_RISE_CFG_RAMP_PCT) : Nat) * cls / 50000
  let floorV : Rat := cls * (s.dieFloor : Rat) / 100
  let s := s.put R.CHK_CEIL_DIE (match cd with | some c => ratFloor c | none => 0xFFFFFF)
  let next : Option Rat :=
    match s.chuck.thermal with
    | none => if target < cls then some target else none
    | some v =>
      let v' := if target < v then target else min target (v + step)
      if cls ≤ v' ∧ th < (s.dieWarn : Rat) - 2 ∧ s.flag R.FIR_STAT_HOT_WARN = false then none else some v'
  let next := if s.flag R.CHK_STAT_SENS_MANY then some (match next with | some v => min v floorV | none => floorV) else next
  let s := if s.chuck.thermal.isNone && next.isSome then s.bump R.CHK_CNT_THROTTLES else s
  let s := { s with chuck := { s.chuck with thermal := next } }
  let s := s.put R.CHK_STAT_THROTTLE (b2n next.isSome)
  s.put R.CHK_CEIL_T_THERMAL (match next with | some v => ratFloor v | none => 0xFFFFFF)

/-- The die band with its hysteresis; a rise brings VDD_SP up to the new floor at once (R385, R395). -/
def State.dieBand (s : State) : State :=
  let mx := s.thetaMax
  let old := s.get R.CHK_STAT_TBAND
  let up := if 500 ≤ mx then 3 else if 440 ≤ mx then 2 else if 340 ≤ mx then 1 else 0
  let low (b : Nat) : Int := if b = 3 then 500 else if b = 2 then 440 else 340
  let new := if old < up then up
    else if old ≠ 0 ∧ mx ≤ low old - 8 then (if old = 3 ∧ mx ≤ 440 - 8 then (if mx ≤ 340 - 8 then 0 else 1)
      else if old = 2 ∧ mx ≤ 340 - 8 then 0 else old - 1) else old
  let s := s.put R.CHK_STAT_TBAND new
  if old < new ∧ s.get R.CHK_VSP_TARGET < 700 + 10 * s.spFloor then s.avsRequest 1 (700 + 10 * s.spFloor) else s

/-- The window monitor of rail k, 8 for VDD_AON (R383): targets in mV. -/
def State.railBad (s : State) (k : Nat) : Bool :=
  let v := s.get (R.CHK_CH_VALUE (27 + k))
  let t := match k with
    | 1 => s.get R.CHK_VCORE_TARGET | 2 => s.get R.CHK_VSP_TARGET | 3 => 900 | 4 => 1200 | 5 => 2500 | 6 => 1200 | _ => 1800
  let t2 := match s.chuck.avs with | some (r, mv) => if r + 1 = k then mv else t | none => t
  let armed := decide (k = 8) || s.bitIn R.CHK_RAIL_PG (k - 1)
  armed && s.flag (R.CHK_CH_VALID (27 + k)) && decide (100 * v < 95 * min t t2 ∨ 105 * max t t2 < 100 * v)

/-- Two window failures in a row raise RAIL (R383). -/
def State.railWindows (s : State) : State :=
  let bad := (List.range 8).map (fun i => if s.railBad (i + 1) then s.chuck.railBad.getD i 0 + 1 else 0)
  let s := { s with chuck := { s.chuck with railBad := bad } }
  if bad.any (fun n => decide (2 ≤ n)) then s.report 50 0 1 else s

/-- The die limit (R394): θ_max at LIMIT on two rounds, or two adjacent sensors that are not broken in one. -/
def State.dieLimitReached (s : State) : Bool :=
  let lim := 4 * s.dieLimit
  let hot (i : Nat) : Bool := !s.bitIn R.CHK_TS_BROKEN_BROKEN i && decide (lim ≤ s.tempOf i)
  decide (2 ≤ s.chuck.limitRounds) || (List.range 24).any (fun i => hot i && (sensorNeighbours i).any hot)

/-- What Chuck forms at the end of a round (R391–R395, R388, R400). -/
def State.roundForm (s : State) : State :=
  let s := s.forEach (List.range 24) State.crossCheck
  let many := decide (8 < popcount 24 (s.get R.CHK_TS_BROKEN_BROKEN))
  let s := s.put R.CHK_STAT_SENS_MANY (b2n many)
  let oldMax := s.chuck.hist.getD 15 (((List.range 24).map s.tempOf).foldl max (s.tempOf 0))
  let s := s.dieTemps
  let s := s.thermalSource (s.thetaEff oldMax)
  let s := s.dieBand
  let s := s.drcBands
  let s := if 2 ≤ (s.thetaMean - s.chuck.lastInterp).natAbs then s.interpolate else s
  let s := if s.path.armed then s else s.strobe
  { s with chuck := { s.chuck with
    limitRounds := if 4 * s.dieLimit ≤ s.thetaMax then s.chuck.limitRounds + 1 else 0 } }

/-- The end of a round: at the die limit the GY8 shuts down, otherwise the rails are judged (R383, R394). -/
def State.roundEnd (s : State) : State :=
  let t := s.roundForm
  if t.dieLimitReached then t.thermalShutdown else { t.railWindows with aon := s.aon }

/-- HOUSEKEEPING_ROUND_END.  Rounds run from the release of reset; in the latch only readings are kept (R47, R390). -/
def execHousekeepingRoundEnd (s : State) : Outc :=
  aonEvent s (fun s => if s.running then s.roundEnd else s)

/-- One attempt of the AVSBus transaction has failed (R384). -/
def State.avsFail (s : State) : State :=
  match s.chuck.avs with
  | none => s
  | some (rail, mv) =>
    let s := (s.bump R.CHK_CNT_AVS_RETRY).raise R.CHK_STAT_AVS_RETRY srcCHK
    if 2 ≤ s.chuck.avsTries then
      ({ s with chuck := { s.chuck with avs := none, avsTries := 0 } }).report 54 0 1
    else ({ s with chuck := { s.chuck with avsTries := s.chuck.avsTries + 1 } }).emit (.avs rail mv)

/-- The AVSBus transaction is acknowledged (R109, R384, R385). -/
def State.avsDone (s : State) : State :=
  match s.chuck.avs with
  | none => s
  | some (rail, mv) =>
    let s := { s with chuck := { s.chuck with avs := none, avsTries := 0 } }
    let s := if rail = 0 then s.put R.CHK_VCORE_TARGET mv
      else { ((s.put R.CHK_VSP_TARGET mv).put R.SPN_PACE_VSTEP ((mv - 700) / 10)) with path := { s.path with sinceStep := 0 } }
    s.avsKick

/-- AVS_RESPONSE (R384). -/
def execAvsResponse (ok : Bool) (s : State) : Outc := coreEvent s (fun s => if ok then s.avsDone else s.avsFail)

/-- AVS_TIMEOUT (R384). -/
def execAvsTimeout (s : State) : Outc := coreEvent s State.avsFail

/-- HV_PG_FALL (R386): power-good falls while the enable is high. -/
def execHvPgFall (g : Nat) (s : State) : Outc :=
  coreEvent s (fun s => if g < 4 ∧ bit s.chuck.hvOut g = true then
    (s.put R.CHK_HV_PG (clrBit (s.get R.CHK_HV_PG) g)).raise R.CHK_STAT_HV_PG_LOST srcCHK else s)

/-- HV_PG_TIMEOUT (R386): power-good is still low 20 ms after the enable rose. -/
def execHvPgTimeout (g : Nat) (s : State) : Outc :=
  coreEvent s (fun s => if g < 4 ∧ bit s.chuck.hvOut g = true then
    (s.put R.CHK_HV_PG (clrBit (s.get R.CHK_HV_PG) g)).raise R.CHK_STAT_HV_PG_LOST srcCHK else s)

/-- ALIVE_TOGGLE (R35). -/
def execAliveToggle (s : State) : Outc :=
  coreEvent s (fun s => if s.chuck.aliveOn && (s.mode != .safe) then
    ({ s with chuck := { s.chuck with aliveLevel := !s.chuck.aliveLevel } }).emit (.pin .alive 0 (b2n !s.chuck.aliveLevel)) else s)

/-- ALIVE_SERVICE_TIMEOUT (R35): ALIVE stops and is held low. -/
def execAliveServiceTimeout (s : State) : Outc :=
  coreEvent s (fun s => ({ s with chuck := { s.chuck with aliveOn := false, aliveLevel := false } }).emit (.pin .alive 0 0))

end Sys2Proof.Machine
end

