-- ==== Sys2Proof/Machine/Encoder.lean ====
section
/-! DEFINITION. Encoder and line timing (chapter 6): commands ENCODER_COUNT to CMP_PULSE_END. -/

namespace Sys2Proof.Machine

/-- ENCODER_COUNT (R124). -/
def execEncoderCount (n : Nat) (edge : EncEdge) (t : Nat) (s : State) : Outc := coreEvent s (fun s => s.encEdge n edge t)

/-- REFERENCE_MARK (R120): a mark of a quadrature channel; the toothed wheel's come with its counts. -/
def execReferenceMark (n t : Nat) (s : State) : Outc :=
  coreEvent s (fun s => if n < 2 ∧ s.encType n = 1 then s.refMark n t else s)

/-- STANDSTILL (R124, R125): no count for STANDSTILL_T. -/
def execStandstill (n : Nat) (s : State) : Outc :=
  coreEvent s (fun s =>
    if n < 2 ∧ s.encType n ≠ 0 then
      let s := s.onEnc n (fun c => { c with run := 0, ivals := [], held := none })
      ((s.put (R.ENC_CH_STAT_STANDSTILL n) 1).speedOff n).showSpeed n
    else s)

/-- TRIGGER_INSTANT (R127): the instant scheduled inside the present count comes. -/
def execTriggerInstant (s : State) : Outc :=
  coreEvent s (fun s =>
    match s.line.sched with
    | some i => (s.trigger i false).schedule
    | none => s)

/-- The line source switches to ENC1 at positions POS0 and POS1, from line n_s on (R133). -/
def State.sourceSwitch (s : State) (pos0 pos1 ns t : Nat) : State :=
  match s.linePos ns with
  | none => s
  | some l =>
    let ratio : Rat := (s.get R.ENC_XCHK_RATIO_RATIO : Rat) / (2 ^ 24 : Nat)
    let p1 := max (1024 * 65536) (roundAway ((s.pitchReg : Rat) * ratio)).toNat
    let d := roundAway ((sdiff40 l pos0 : Rat) * ratio)
    let o1 := ((pos1 : Int) + d) % (2 ^ 40 : Nat)
    let s := { s with line := { s.line with origin := some o1.toNat, base := ns, pitch := p1, trig := ns, sched := none, counted := 0, hist := [] } }
    let s := (s.put R.ENC_LINE_PITCH_PITCH (p1 / 65536)).put R.ENC_LINE_PFRAC_PFRAC p1
    let s := s.put R.ENC_LINE_CFG_SRC 1
    let s := (s.put R.ENC_LATENCY_LAT s.encLatency).showSpeed 1
    s.lineReach t true

/-- ACTION after a DEV or LOSS (R132, R141): the decision is the primary's. -/
def State.xchkAction (s : State) (points0 : Bool) : State :=
  let a := s.get R.ENC_XCHK_CFG_ACTION
  if !s.primary then s
  else if a = 1 ∧ points0 = true ∧ s.encArmed = true ∧ s.lineSrc = 0 then
    let ns := s.line.trig
    let s := s.logDecide none 6 3 ns (s.posOf 1 % 2 ^ 32 + s.posOf 0 % 2 ^ 32 * 2 ^ 32)
    s.sourceSwitch (s.posOf 0) (s.posOf 1) ns s.now
  else if a = 2 ∧ s.mode = Mode.print then
    let s := s.stopRequest 0 mcXCHK_STOP
    s.logMode none 6 2 s.curJob (s.path.stop.getD 0)
  else s

/-- A status bit of the cross-check sets (R131). -/
def State.xchkSet (s : State) (f : Fld) : State := (s.raise f srcENC).bump R.ENC_XCHK_CNT_COUNT

/-- XCHK_WINDOW_END (R131): the window that has ended is judged.  With no net count of ENC0, or RATIO = 0, the deviation is
not stated: it is a free value. -/
def State.xchkEnd (s : State) : State :=
  match s.line.wdone with
  | none => s
  | some (d0, d1, bad) =>
    let s := { s with line := { s.line with wdone := none } }
    let ratio : Rat := (s.get R.ENC_XCHK_RATIO_RATIO : Rat) / (2 ^ 24 : Nat)
    let open_ := decide (d0 = 0) || decide (ratio = 0)
    let dev : Rat := if open_ then (signed 32 (s.freeVal 32) : Rat) else ((d1 : Rat) / ratio - (d0 : Rat)) / (d0 : Rat) * 10000
    let s := if open_ then s.took else s
    let s := s.put R.ENC_XCHK_ERR_DEV (unsigned 32 (roundAway dev))
    let tol : Rat := (max 1 (min 10000 (s.get R.ENC_XCHK_CFG_TOL)) : Nat)
    if tol < absR dev then (s.xchkSet R.ENC_XCHK_STAT_DEV).xchkAction bad else s

/-- XCHK_WINDOW_END (R131). -/
def execXchkWindowEnd (s : State) : Outc := coreEvent s State.xchkEnd

/-- XCHK_LOSS (R131): ENC1 has moved 64 counts while ENC0 showed none. -/
def execXchkLoss (s : State) : Outc :=
  coreEvent s (fun s =>
    if s.flag R.ENC_XCHK_CFG_EN && decide (64 ≤ s.line.silent) then
      let s := { s with line := { s.line with silent := 0 } }
      (s.xchkSet R.ENC_XCHK_STAT_LOSS).xchkAction true
    else s)

/-- A write of ENCn_POS_SET: POS40 is loaded in IDLE only (R123). -/
def State.posSet (s : State) (n v : Nat) : State := if n < 2 ∧ s.mode = Mode.idle then s.encLoad n v else s

/-- ENC_POS_SET (R123). -/
def execEncPosSet (n v : Nat) (s : State) : Outc :=
  coreEvent s (fun s => s.sealedWrite [(0x40600010 + 0x100 * n, v % 2 ^ 32), (0x40600014 + 0x100 * n, v / 2 ^ 32 % 2 ^ 8)]
    (fun s => s.posSet n v))

/-- SPEED_CEIL follows ENC_CEIL in the modes Table 2.4 gives the state Job, on the member that drives it (R34, R135). -/
def State.ceilJob (s : State) : Bool :=
  s.primary && (s.mode == .idle || s.mode == .calibrate || s.mode == .print || s.mode == .maintain)

/-- A speed-ceiling event is due (R136). -/
def State.ceilEvent (s : State) : State :=
  let c := s.ceilNow
  let fs := max 1 (s.get R.ENC_CEIL_FS_FS)
  let old := s.line.posted
  let fell := decide (fs ≤ 100 * (old.2 - c.1)) && decide (c.1 < old.2)
  let rose := decide (fs ≤ 100 * (c.1 - old.2)) && decide (old.2 < c.1)
    && (match s.line.riseT with | some t => decide (t + 16000000 ≤ s.now) | none => true)
  if s.mode == .boot then s
  else if old.1 != c.2 || fell || rose then
    let s := { s with line := { s.line with posted := (c.2, c.1), riseT := if rose then some s.now else s.line.riseT } }
    s.postEvent 0x8002 (c.1 + c.2 * 2 ^ 24) (s.encLine)
  else s

/-- CEIL_PWM_PERIOD (R135, R136). -/
def execCeilPwmPeriod (s : State) : Outc :=
  coreEvent s (fun s =>
    let fs := max 1 (s.get R.ENC_CEIL_FS_FS)
    let d := 2500 * min s.ceilNow.1 fs / fs
    let s := if s.ceilJob then s.emit (.pin .speedCeil 0 d)
      else if s.primary && (s.mode == .boot || s.mode == .safe) then s.emit (.pin .speedCeil 0 0) else s
    s.ceilEvent)

/-- OVERSPEED_RELEASE (Table 6.4): 65,536 lines without an over-speed blank, or 100 ms without a count of the line source. -/
def execOverspeedRelease (s : State) : Outc :=
  coreEvent s (fun s => { s with line := { s.line with speeding := none } })

/-- The lists of the compare outputs advance in this mode (R139, Table 2.4). -/
def State.cmpRuns (s : State) : Bool := s.mode != .boot && s.mode != .reset

/-- The level of CMPk is driven on the member that drives it; in SAFE it holds the inactive level (R34, Table 2.4). -/
def State.cmpDrive (s : State) (k : Nat) (active : Bool) : State :=
  let s := s.put (R.CMP_STAT_LEVEL k) (b2n active)
  if s.primary && s.mode != .shadow then s.emit (.pin .cmpOut k (b2n ((active && s.mode != .safe) == s.flag (R.CMP_CTRL_POL k)))) else s

/-- The armed entry is passed: in cyclic mode it moves on by CYCLE; the next entry is armed, or the list waits (R137). -/
def State.cmpStep (s : State) (k : Nat) : State :=
  let e := s.get (R.CMP_INDEX_INDEX k)
  let cyc := s.flag (R.CMP_CTRL_CYCLIC k)
  let s := if cyc then s.put (cmpEntry k e) (s.get (cmpEntry k e) + s.get (R.CMP_CYCLE_ADD k)) else s
  let s := s.onCmp k (fun o => { o with reach := none, hard := false, late := false, counted := false })
  if e = s.get (R.CMP_END_END k) then
    if cyc then s.put (R.CMP_INDEX_INDEX k) (s.get (R.CMP_START_START k))
    else (s.put (R.CMP_INDEX_WAIT k) 1).onCmp k (fun o => { o with armed := false })
  else s.put (R.CMP_INDEX_INDEX k) (e + 1)

/-- The armed entry is checked; missed entries are passed over (R138). -/
def State.cmpCheck : Nat → Nat → State → State
  | 0, _, s => s
  | fuel + 1, k, s =>
    if !(s.cmpOut k).armed then s
    else if s.cmpAhead k ≤ 0 then
      if s.flag (R.CMP_CTRL_LATE_FIRE k) then s.onCmp k (fun o => { o with late := true })
      else State.cmpCheck fuel k (((s.raise (R.CMP_STAT_MISS k) srcCMP).bump (R.CMP_MISSED_COUNT k)).cmpStep k)
    else s.cmpReach k (s.ench (s.get (R.CMP_CTRL_SRC k))).tRun

/-- An entry is armed (R137, R138): a whole turn of the list at the most is passed over. -/
def State.cmpArm (s : State) (k : Nat) : State := State.cmpCheck 1024 k s

/-- ENABLE of output k is written (R137, Table 6.7). -/
def State.cmpEnable (s : State) (k v : Nat) : State :=
  if 8 ≤ k then s
  else if bit v 0 then
    if s.flag (R.CMP_CTRL_ENABLE k) then s
    else
      let s := ((s.put (R.CMP_CTRL_ENABLE k) 1).put (R.CMP_INDEX_INDEX k) (s.get (R.CMP_START_START k))).put (R.CMP_INDEX_WAIT k) 0
      (s.onCmp k (fun o => { o with armed := true, reach := none, hard := false, late := false, counted := false })).cmpArm k
  else
    let s := (s.put (R.CMP_CTRL_ENABLE k) 0).onCmp k (fun _ => {})
    s.cmpDrive k false

/-- CMP_ENABLE (R137): the word written to CMP_CTRL_k, its other fields first. -/
def State.cmpCtrl (s : State) (k v : Nat) : State :=
  if 8 ≤ k then s
  else
    let s := if s.flag (R.CMP_CTRL_ENABLE k) then s else
      ((s.put (R.CMP_CTRL_SRC k) (v / 2)).put (R.CMP_CTRL_DIR k) (v / 4)).put (R.CMP_CTRL_POL k) (v / 8)
    let s := ((s.put (R.CMP_CTRL_LATE_FIRE k) (v / 16)).put (R.CMP_CTRL_CYCLIC k) (v / 32)).put (R.CMP_CTRL_WIDTH k) (v / 65536)
    s.cmpEnable k v
def execCmpEnable (k v : Nat) (s : State) : Outc :=
  coreEvent s (fun s => s.sealedWrite [(0x40680000 + 0x100 * k, v)] (fun s => s.cmpCtrl k v))

/-- CMP_END is written: a waiting list resumes when END moves forward (R137). -/
def State.cmpEnd (s : State) (k v : Nat) : State :=
  if 8 ≤ k then s
  else
    let s := s.put (R.CMP_END_END k) v
    if s.flag (R.CMP_INDEX_WAIT k) && s.flag (R.CMP_CTRL_ENABLE k) && decide (s.get (R.CMP_INDEX_INDEX k) < s.get (R.CMP_END_END k)) then
      let s := (s.put (R.CMP_INDEX_WAIT k) 0).put (R.CMP_INDEX_INDEX k) (s.get (R.CMP_INDEX_INDEX k) + 1)
      (s.onCmp k (fun o => { o with armed := true, reach := none, hard := false, late := false, counted := false })).cmpArm k
    else s

/-- CMP_END_WRITE (R137). -/
def execCmpEndWrite (k v : Nat) (s : State) : Outc :=
  coreEvent s (fun s => s.sealedWrite [(0x40680008 + 0x100 * k, v)] (fun s => s.cmpEnd k v))

/-- The armed entry fires: one pulse, then the list advances (R138, R139). -/
def State.cmpFire (s : State) (k : Nat) : State :=
  let o := s.cmpOut k
  match (if o.late then some s.now else o.reach.map (· + (64 + 4 * max 1 (s.get (R.ENC_CH_CFG_FILT (s.get (R.CMP_CTRL_SRC k))))))) with
  | none => s
  | some t =>
    let s := if o.late then s.raise (R.CMP_STAT_LATE k) srcCMP else s
    let s := s.count (R.CMP_FIRED_COUNT k)
    let s := (s.put (R.CMP_LASTT_T k) (s.timeAt t)).put (R.CMP_LASTI_INDEX k) (s.get (R.CMP_INDEX_INDEX k))
    let s := if 0 < o.pulses then s.put (R.CMP_STAT_MERGED k) 1 else s
    let s := (s.onCmp k (fun o => { o with pulses := o.pulses + 1 })).cmpDrive k true
    (s.cmpStep k).cmpArm k

/-- CMP_ENTRY_FIRE (R138). -/
def execCmpEntryFire (k : Nat) (s : State) : Outc :=
  coreEvent s (fun s => if k < 8 ∧ (s.cmpOut k).armed = true ∧ s.cmpRuns = true then s.cmpFire k else s)

/-- CMP_PULSE_END (R139): with merged pulses the output stays active until the last one ends. -/
def execCmpPulseEnd (k : Nat) (s : State) : Outc :=
  coreEvent s (fun s =>
    if k < 8 ∧ 0 < (s.cmpOut k).pulses then
      let s := s.onCmp k (fun o => { o with pulses := o.pulses - 1 })
      if (s.cmpOut k).pulses = 0 then s.cmpDrive k false else s
    else s)

end Sys2Proof.Machine
end

