-- ==== Sys2Proof/Machine/PairOps.lean ====
section
/-! DEFINITION. Pair operation (chapter 10): heartbeat, the claim at the end of boot, takeover, fencing, switchover. -/

namespace Sys2Proof.Machine

/-- The highest epoch the heads of trained ports report (R232, R240). -/
def State.headEpoch (s : State) : Nat :=
  (((List.range s.nPorts).filter s.linkUp).map (fun (p : Nat) => s.get (R.HLK_HCLAIM_CLAIM p) / 2)).foldl max 0

/-- EPOCH of an IDENT frame (R218). -/
def State.identEpoch (s : State) : Nat := max (s.get R.HLK_CLAIM_CLAIM / 2) s.headEpoch

/-- The body of an IDENT frame (R218). -/
def State.identBody (s : State) : List Nat :=
  toBytes 4 s.ident ++ toBytes 4 (s.get R.BTJ_FWVER_VERSION)
    ++ (List.range 4).flatMap (fun (c : Nat) => toBytes 4 (s.get (R.DRC_CH_SIZE_MB c)))
    ++ [s.get R.TSL_STAT_SIDE, s.mode.code, b2n s.primary, 0] ++ toBytes 4 s.identEpoch

/-- An IDENT frame leaves. -/
def State.sendIdent (s : State) : State := s.pairFrame 0x26 0 s.identBody

/-- The pair link is UP. -/
def State.pairUp (s : State) : Bool := decide (s.pair.state = 4 ∧ s.pair.lanes ≠ 0)

/-- HLK_CLAIM changes: headers and frames that wait for it go out (R233). -/
def State.setClaim (s : State) (v : Nat) : State := (s.put R.HLK_CLAIM_CLAIM v).linkPumpAll

/-- The claim and the role at boot step 14 (R240). -/
def State.pairBoot (s : State) : State :=
  let standby (s : State) : State := ({ s with primary := false } : State).put R.HLK_CLAIM_CLAIM 0
  let primary (s : State) (e : Nat) : State := ({ s with primary := true } : State).setClaim (2 * e + 1)
  let s := if s.pairUp then s.sendIdent else s
  match (if s.flag R.TSL_CFG_PAIR_EN && s.pairUp then s.pair.ident else none) with
  | none => primary s (s.headEpoch + 1)
  | some b =>
    if field b 26 1 = 1 ∧ field b 25 1 ≠ Mode.boot.code then standby s
    else if field b 25 1 = Mode.boot.code then
      if s.get R.TSL_STAT_SIDE = 0 then primary s (1 + max s.identEpoch (field b 28 4)) else standby s
    else primary s (s.headEpoch + 1)

/-- The detection time D (R231). -/
def State.detectTime (s : State) : Nat := max 6400 (min 19200 (2 * s.get R.ENC_LINE_T_T))

/-- The duty D of SPEED_CEIL (R135). -/
def State.ceilDuty (s : State) : Nat :=
  let fs := max 1 (s.get R.ENC_CEIL_FS_FS)
  2500 * min s.ceilNow.1 fs / fs

/-- The body of a STATE frame (R230). -/
def State.stateBody (s : State) : List Nat :=
  toBytes 5 s.time40 ++ toBytes 5 s.encLine ++ toBytes 5 s.pair.posB ++ [0]
    ++ (List.range 8).flatMap (fun (k : Nat) => toBytes 2 (s.get (R.CMP_INDEX_INDEX k)) ++ toBytes 2 (s.get (R.CMP_FIRED_COUNT k)))
    ++ (List.range 8).flatMap (fun (n : Nat) => toBytes 4 (s.get (R.MOT_AX_POS_POS n)))
    ++ toBytes 2 s.ceilDuty ++ List.replicate 14 0

/-- An HB block and its STATE frame leave; PAIR_LIVE_O inverts (R230). -/
def State.hbSend (s : State) : State :=
  if !s.pairUp || s.mode == .boot then s
  else
    let n := (s.pair.hbCnt + 1) % 2 ^ 16
    let m := s.mode.code + 2 ^ 4 * b2n s.primary + 2 ^ 5 * b2n s.synced + 2 ^ 6 * b2n s.trans
    let s := { s with pair := { s.pair with hbCnt := n, liveO := !s.pair.liveO } }
    let s := s.pairBlock 0x3C (toBytes 2 n ++ [m] ++ toBytes 3 s.encLine)
    let s := s.emit (.pin .pairLiveO 0 (b2n s.pair.liveO))
    s.pairFrame 0x23 n s.stateBody

/-- A new claim 1 epoch above every claim known (R232 step 1). -/
def State.raiseClaim (s : State) : State :=
  s.setClaim (2 * (1 + max (s.get R.TSL_PEER_CLAIM_CLAIM / 2) s.headEpoch) + 1)

/-- Entries of compare list k passed between index `hb` and the present one, oldest first (R140). -/
def State.cmpPassed (s : State) (k hb : Nat) : List Nat :=
  let st := s.get (R.CMP_START_START k)
  let en := s.get (R.CMP_END_END k)
  let cur := s.get (R.CMP_INDEX_INDEX k)
  if s.flag (R.CMP_CTRL_CYCLIC k) then
    let len := en + 1 - st
    if len = 0 then [] else (List.range ((cur + len - hb) % len)).map (fun (i : Nat) => st + (hb - st + i) % len)
  else (List.range (cur + b2n (s.flag (R.CMP_INDEX_WAIT k)) - hb)).map (fun (i : Nat) => hb + i)

/-- Compare entries reached since the last heartbeat are as if just armed (R140). -/
def State.cmpTakeover (s : State) (k hbIndex hbFired : Nat) : State :=
  let l := s.cmpPassed k hbIndex
  if !s.flag (R.CMP_CTRL_ENABLE k) || l.isEmpty then s
  else
    let fired := (s.get (R.CMP_FIRED_COUNT k) + 2 ^ 16 - hbFired) % 2 ^ 16
    let s := s.put (R.CMP_FIRED_COUNT k) (s.get (R.CMP_FIRED_COUNT k) + 2 ^ 40 - fired)
    let s := if s.flag (R.CMP_CTRL_CYCLIC k) then
        s.forEach l (fun s e => s.put (cmpEntry k e) (s.get (cmpEntry k e) + 2 ^ 40 - s.get (R.CMP_CYCLE_ADD k)))
      else s
    let s := (s.put (R.CMP_INDEX_INDEX k) hbIndex).put (R.CMP_INDEX_WAIT k) 0
    (s.onCmp k (fun o => { o with armed := true, reach := none, hard := false, late := false, counted := false })).cmpArm k

/-- Commands in the head-link queues at takeover (R237): reads and class commands go again, class loads fail, the rest is
dropped; every usage head is read (R193). -/
def State.hcmdTakeover (s : State) : State :=
  let classes := ([0, 1]).filter (fun (c : Nat) =>
    s.links.any (fun (l : Link) => l.queue.any (fun (f : LinkFrame) => f.ftype == 3 && f.body.headD 0 == c)))
  let s := { s with links := s.links.map (fun (l : Link) => { l with queue := l.queue.filter (fun (f : LinkFrame) =>
    f.ftype == 4 && decide (2 ≤ f.op ∧ f.op ≤ 4)) }) }
  let up := (List.range s.nPorts).filter s.linkUp
  let s := s.forEach classes (fun s c => (s.linkCmd up 4 0 [c]).logClose)
  s.forEach (up.filter (fun (p : Nat) => s.flag (R.HLK_USTAT_GY5 p))) (fun s p => s.usageSend p 5 false)

/-- Long commands whose final completion the old primary can no longer post (R272). -/
def State.tagTakeover (s : State) : State :=
  { s with mbx := { s.mbx with tags := s.mbx.tags.map (fun (t : TagRec) =>
    if t.status = stIN_PROGRESS ∧ cmdLogged t.op = true then { t with status := stTAKEOVER } else t) } }

/-- The mode the new primary enters (R43). -/
def State.takeoverMode (s : State) : State :=
  match s.follow with
  | .calibrate =>
    let s := ({ s with calRun := none } : State).put R.BTJ_STAT_CAL_INTERRUPTED 1
    (s.journal 0x06 0 3 0 (s.get R.CHK_CAL_GEN + 1)).modeChange .idle
  | .maintain => s.modeChange .maintain
  | .print =>
    if s.path.armed then
      let stop := s.path.stop.isSome
      { s.modeChange .print with trans := stop }
    else s.modeChange .idle
  | _ => s.modeChange .idle

/-- What is due at the new primary's next boundary, or at once where none is armed (R232 step 5). -/
def State.takeNotice (s : State) : State :=
  let s := { s with pair := { s.pair with takeDue := false } }
  ((if s.flag R.CNT_SNAP_PENDING then s else s.freeze true)).modeEvent mcTAKEOVER

/-- The old primary's last STATE values: CMP index and count of output k, position of axis n (R230). -/
def State.hbCmp (s : State) (k : Nat) : Option (Nat × Nat) :=
  s.pair.peerState.map (fun (b : List Nat) => (field b (16 + 4 * k) 2, field b (18 + 4 * k) 2))
def State.hbAxis (s : State) (n : Nat) : Int :=
  match s.pair.peerState with | some b => signed 32 (field b (48 + 4 * n) 4) | none => s.axPos n

/-- A synchronised standby takes over (R232). -/
def State.takeover (s : State) : State :=
  let s := (s.put R.TSL_TAKE_SEQ_SEQ (s.get R.HLK_SEQ_SEQ))
  let s := s.raiseClaim
  let s := { s with
    primary := true, synced := false
    pair := { s.pair with rx := [], group := [], steps := [], switchAt := none, syncDue := false, quiet := false, takeDue := true } }
  let s := (s.logShut false).takeoverMode
  let s := s.forEach (List.range 8) (fun s k => match s.hbCmp k with | some (i, f) => s.cmpTakeover k i f | none => s)
  let s := (s.axTakeover s.hbAxis).hcmdTakeover.tagTakeover.linkPumpAll
  let s := (s.raise R.TSL_STAT_TAKEOVER srcTSL).bump R.TSL_EVTCNT_TAKEOVERS
  let s := s.pairEvent 1 0 (s.get R.TSL_TAKE_SEQ_SEQ)
  if s.path.armed then s else s.takeNotice

/-- A standby that is not synchronised loses its partner (R44). -/
def State.pairAlone (s : State) : State :=
  let s := s.joinDrop.joinShow
  let s := (s.joinPhase 0).discardAll.dropSkew
  let s := { s with primary := true, synced := false, pair := { s.pair with quiet := false, syncDue := false, due := [] } }
  let s := (s.setMode .idle mcPAIR_LOST).raiseClaim
  s.finishLong opPAIR_JOIN 0x0170 pcABORTED

/-- Loss of the primary as a standby detects it (R231, R232, R44).  A member of IDLE with PRIMARY = 0 follows nobody. -/
def State.primaryLost (s : State) : State :=
  if s.mode = .shadow then (if s.synced then s.takeover else s.pairAlone) else s

/-- The primary runs unpaired: the log is closed (R231). -/
def State.unpair (s : State) : State :=
  let s := s.linkLost.logShut false
  ({ s with pair := { s.pair with join := 0 } } : State).appendKick

/-- Work of the mode in progress ends as by an abort, with no frame sent (R41, R234). -/
def State.quietAbort (s : State) : State :=
  let s := s.discardAll.dropSkew
  (s.abortLong).setMode .idle mcFAULT

/-- A primary that sees a higher epoch is fenced (R234). -/
def State.fence (s : State) : State :=
  let s := (s.raise R.TSL_STAT_FENCED srcTSL).pairEvent 3 0 s.encLine
  let s := (({ s with primary := false } : State).releaseGated).pairFault 4 0xFF
  let s := (s.logShut false).appendKick
  if s.mode = .print ∨ s.mode = .calibrate ∨ s.mode = .maintain then s.quietAbort else s

/-- The old primary's side of a planned switchover (R45, R245): the log stream goes on at the same offset, the other way. -/
def State.switchOld (s : State) : State :=
  let e := s.get R.HLK_CLAIM_CLAIM / 2
  let m := s.mode
  let s := { s with
    primary := false, synced := true, follow := m
    pair := { s.pair with logOpen := false, buf := [], part := [], steps := [], hold := false, switchAt := none, rx := [], group := [] } }
  let s := (s.put R.TSL_LOG_RX_OFF (s.get R.TSL_LOG_TX_OFF)).releaseGated
  (s.setMode .shadow mcSWITCHOVER).setClaim (2 * (e + 1))

/-- The standby's side of a planned switchover (R45, R245). -/
def State.switchNew (s : State) : State :=
  let e := s.get R.TSL_PEER_CLAIM_CLAIM / 2
  let m := s.follow
  let s := { s with
    primary := true, synced := false
    pair := { s.pair with logOpen := true, buf := [], part := [], gseq := 0, switchAt := none, rx := [], group := [] } }
  let s := (s.put R.TSL_LOG_TX_OFF (s.get R.TSL_LOG_RX_OFF)).put R.TSL_LOG_ACK_OFF (s.get R.TSL_LOG_RX_OFF)
  (s.setMode m mcSWITCHOVER).setClaim (2 * (e + 1) + 1)

/-- The switchover named for a boundary happens (R45). -/
def State.switchNow (s : State) : State := if s.primary then s.switchOld else if s.mode = .shadow then s.switchNew else s

end Sys2Proof.Machine
end

