-- ==== Sys2Proof/Machine/BootOps.lean ====
section
/-! DEFINITION. Reset and the boot sequence's parts (chapter 13): flash records, image checks, the plan. -/

namespace Sys2Proof.Machine

/-- Bytes of the flash regions programmed from outside. -/
def State.flashBytes (s : State) (off n : Nat) : List Nat :=
  (List.range n).map (fun i => Cells.look dfltFlash s.flash.bytes (off + i))

/-- The bit of BTJ_RSTCAUSE of each source (Table 13.11). -/
def rcPOR : Nat := 1
def rcPIN : Nat := 2
def rcSOFT : Nat := 4
def rcWDOG : Nat := 8
def rcCLEAN : Nat := 16

/-- The chip goes to RESET (R296, R297): everything but the always-on domain, fuses and flash is discarded.  The queue,
the model's clock, its free-value counter and its output record are not the chip's, and neither are the heads. -/
def State.resetChip (s : State) (aon : Aon) : State :=
  let t : State := { State.reset with
    fuse := s.fuse, flash := s.flash, now := s.now, pending := s.pending, freeCtr := s.freeCtr, out := s.out,
    aon := aon, mode := .reset, heads := s.heads }
  let t := { t with mbx := { t.mbx with perst := s.mbx.perst }, acct := { t.acct with failSeq := s.acct.failSeq } }
  let c := aon.cause
  let t := ((t.put R.BTJ_RSTCAUSE_POR c).put R.BTJ_RSTCAUSE_PIN (c / 2)).put R.BTJ_RSTCAUSE_SOFT (c / 4)
  let t := (t.put R.BTJ_RSTCAUSE_WDOG (c / 8)).put R.BTJ_RSTCAUSE_CLEAN (c / 16)
  (t.emit (.pin .alive 0 0)).emit (.pin .claimGate 0 0)

/-- The majority of three samples, bit by bit (R426). -/
def majority3 (a b c : Nat) : Nat := Nat.lor (Nat.lor (Nat.land a b) (Nat.land a c)) (Nat.land b c)

/-- Entries of the journal that belong to a boot. -/
def bootEntries (j : List JEntry) (n : Nat) : List JEntry := j.filter (fun (e : JEntry) => e.bootNo == n && e.type != 0x0A)

/-- Steps of a boot that have a STEP_BEGIN and no later STEP_END, with their WAY and DATA (R301). -/
def cutOff (l : List JEntry) : List JEntry :=
  (l.filter (fun (e : JEntry) => e.type == 0x02)).filter (fun (e : JEntry) =>
    !l.any (fun (f : JEntry) => f.type == 0x03 && f.step == e.step && decide (e.tus ≤ f.tus)))

/-- The firmware slot a boot used, from its step 7 (R301). -/
def bootSlot (l : List JEntry) : Option Nat :=
  ((l.filter (fun (e : JEntry) => e.type == 0x03 && e.step == 7)).getLast?).map (fun (e : JEntry) => e.data % 256)

/-- A boot reached DONE. -/
def bootDone (l : List JEntry) : Bool := l.any (fun (e : JEntry) => e.type == 0x04)

/-- The number of the newest boot in the journal, 0 when there is none. -/
def lastBootNo (j : List JEntry) : Option Nat :=
  ((j.filter (fun (e : JEntry) => e.type == 0x01)).getLast?).map (fun (e : JEntry) => e.bootNo)

/-- Step 5: number, FAILRUN, plan and BOOT_OPEN (R301, R310). -/
def State.planBoot (s : State) : State :=
  let j := s.flash.journal
  let prev := lastBootNo j
  let l := match prev with | some n => bootEntries j n | none => []
  let l2 := match prev with | some n => bootEntries j ((n + 2 ^ 32 - 1) % 2 ^ 32) | none => []
  let failed := prev.isSome && !bootDone l
  let oldRun := match l.find? (fun (e : JEntry) => e.type == 0x01) with | some e => e.data / 256 % 256 | none => 0
  let clean := bit s.aon.cause 4
  let run := if s.aon.failRunClear || clean then 0 else if failed then min 8 (oldRun + 1) else 0
  let cut := if clean then [] else cutOff l
  let dr := cut.find? (fun (e : JEntry) => e.step == 10)
  let other := match bootSlot l, bootSlot l2 with
    | some a, some b => if a = b ∧ bootDone l = false ∧ bootDone l2 = false ∧ clean = false then some (1 - a) else none
    | _, _ => none
  let s := s.put R.BTJ_BOOTNO_BOOTNO (match prev with | some n => n + 1 | none => 0)
  let s := s.put R.BTJ_FAILRUN_RUN run
  let s := { s with
    aon := { s.aon with failRunClear := false },
    boot := { s.boot with
      planAlt := (cut.filter (fun (e : JEntry) => e.way == 0 && e.step != 10)).map (fun (e : JEntry) => e.step),
      planFinal := (cut.filter (fun (e : JEntry) => e.way == 1 && e.step != 10)).map (fun (e : JEntry) => e.step),
      dramAlt := (match dr with | some e => e.data % 256 | none => 0),
      dramPart := (match dr with | some e => e.data / 256 % 256 | none => 0),
      otherSlot := other,
      calOpen := ((j.filter (fun (e : JEntry) => e.type == 0x05 || e.type == 0x06)).getLast?).bind
        (fun (e : JEntry) => if e.type == 0x05 then some e.data else none) } }
  s.journal 0x01 0 0 0 (s.aon.cause % 32 + run * 256)

/-- A configuration copy is valid (R304). -/
def cfgValid (b : List Nat) : Bool :=
  (field b 0 2 == 0x4643) && (field b 2 1 == 1) && (field b 0xFC 4 == crc32c (b.take 0xFC))

/-- The copy step 6 uses: the valid one with the higher GEN, copy 0 where equal; in the alternative way the other (R299, R304). -/
def State.cfgChoice (s : State) : Option (Nat × List Nat) :=
  let b0 := s.flashBytes 0 256
  let b1 := s.flashBytes 0x1000 256
  let c0 := cfgValid b0
  let c1 := cfgValid b1
  let second := c1 && (!c0 || decide (0 < sdiff 32 (field b1 4 4) (field b0 4 4)))
  let first := if second then some (1, b1) else if c0 then some (0, b0) else none
  if s.boot.way = 0 then first
  else match first with
    | some (1, _) => if c0 then some (0, b0) else none
    | some (_, _) => if c1 then some (1, b1) else none
    | none => none

/-- A MAC address that leaves its port off: zero, or the group bit set (R304). -/
def macOff (m : List Nat) : Bool := decide (ofBytes m = 0) || bit (m.headD 0) 0

/-- Step 6: the registers of Table 13.4, and OTP programming on request (R304, R305). -/
def State.loadConfig (s : State) (c : Option (Nat × List Nat)) : State :=
  match c with
  | none => s.put R.BTJ_STAT_CFG_DEFAULT 1
  | some (copy, b) =>
    let fl := field b 3 1
    let s := s.put R.BTJ_STAT_CFG_COPY copy
    let s := ((s.put R.TSL_CFG_PAIR_EN fl).put R.MBX_UDP_CFG_EN (fl / 2)).put R.MBX_UDP_CFG_INGEST (fl / 4)
    let s := (s.put (R.MBX_UDP_IP_ADDR 0) (field b 0x10 4)).put (R.MBX_UDP_IP_ADDR 1) (field b 0x14 4)
    let port := field b 0x18 2
    let s := (s.put R.MBX_UDP_CFG_UDPPORT (if port = 0 then 0xA5D8 else port)).put R.MBX_UDP_CFG_TIMEOUT (field b 0x1A 1)
    let on (e : Nat) (m : List Nat) : Bool := decide (e % 4 = 1 ∨ e % 4 = 2) && !macOff m
    let e0 := on (field b 0x0D 1) ((b.drop 0x1C).take 6)
    let e1 := on (field b 0x0E 1) ((b.drop 0x22).take 6)
    let s := { s with boot := { s.boot with
      ssvid := field b 8 2, ssid := field b 0x0A 2, ocEn := bit fl 3, eth := b2n e0 + 2 * b2n e1 } }
    let key := field b 0x30 32
    if !bit fl 4 then s
    else match s.fuse.otpKeyHash with
      | none => if key = 0 then s else ({ s with fuse := { s.fuse with otpKeyHash := some key } }).journal 0x08 6 0 s.boot.way 0
      | some h => if h = key then s else s.put R.BTJ_STAT_OTP_MISMATCH 1

/-- Offset and size of an image slot (Table 13.3): kind 1 firmware, 2 open-core; slot 0 A, 1 B. -/
def slotOff (kind slot : Nat) : Nat :=
  if kind = 1 then (if slot = 0 then 0x400000 else 0x800000) else (if slot = 0 then 0xC00000 else 0xE00000)

/-- Image checks 1 to 6, in order: the cause of the first that fails, 0xF when all pass (R307, Table 13.6). -/
def State.headerCause (s : State) (kind slot : Nat) : Nat :=
  let h := s.flashBytes (slotOff kind slot) 256
  let len := field h 0x10 4
  let svn := field h 0x0C 1
  let zero (o n : Nat) : Bool := field h o n == 0
  if kind = 2 ∧ s.fuse.otpKeyHash = none then 8
  else if !((field h 0 4 == 0x46575947) && (field h 4 1 == 1) && (field h 5 1 == kind) && decide (field h 6 1 < 2)
      && zero 0x0D 3 && zero 0x18 8 && zero 0xC0 64 && decide (svn ≤ (if kind = 1 then 64 else 32))) then 1
  else if !((field h 7 1 == 0) || (field h 7 1 == s.ident % 256)) then 2
  else if !(decide (len % 64 = 0 ∧ 64 ≤ len ∧ len ≤ (if kind = 1 then 0x200000 else 0x100000))
      && decide (field h 0x14 4 % 4 = 0 ∧ field h 0x14 4 < len)) then 3
  else if Config.sha256 ((h.drop 0x40).take 64) ≠ (if kind = 1 then s.fuse.vendorKeyHash else s.fuse.otpKeyHash.getD 0) then 4
  else if !Config.ecdsaVerify ((h.drop 0x40).take 64) ((h.drop 0x80).take 64) (Config.sha256 (h.take 0x80)) then 5
  else if svn < (if kind = 1 then s.fuse.svnVendor else s.fuse.svnCust) then 6
  else 0xF

/-- Check 7: the digest of the body as read (R307). -/
def State.digestOk (s : State) (kind slot : Nat) : Bool :=
  let h := s.flashBytes (slotOff kind slot) 256
  Config.sha256 (s.flashBytes (slotOff kind slot + 0x100) (field h 0x10 4)) == field h 0x20 32

/-- The causes of both slots of a kind are shown (BTJ_IMGCAUSE). -/
def State.showCause (s : State) (kind slot cause : Nat) : State :=
  if kind = 1 then (if slot = 0 then s.put R.BTJ_IMGCAUSE_FW_A cause else s.put R.BTJ_IMGCAUSE_FW_B cause)
  else (if slot = 0 then s.put R.BTJ_IMGCAUSE_OC_A cause else s.put R.BTJ_IMGCAUSE_OC_B cause)

/-- The slot R307 chooses: the higher VERSION among those that pass checks 1 to 6, A where equal, unless one is named;
then the digest, turning to the other slot when it fails.  Answers the state with the causes shown, and the slot. -/
def State.chooseSlot (s : State) (kind : Nat) (named : Option Nat) (avoid : Option Nat) : State × Option Nat :=
  let ca := s.headerCause kind 0
  let cb := s.headerCause kind 1
  let ver (k : Nat) := field (s.flashBytes (slotOff kind k) 256) 8 4
  let s := (s.showCause kind 0 ca).showCause kind 1 cb
  let okA := decide (ca = 0xF) && (avoid != some 0)
  let okB := decide (cb = 0xF) && (avoid != some 1)
  let first : Option Nat :=
    match named with
    | some 0 => if okA then some 0 else if okB then some 1 else none
    | some _ => if okB then some 1 else if okA then some 0 else none
    | none => if okA && okB then (if ver 0 < ver 1 then some 1 else some 0) else if okA then some 0 else if okB then some 1 else none
  match first with
  | none => (s, none)
  | some k =>
    if s.digestOk kind k then (s, some k)
    else
      let s := s.showCause kind k 7
      let o := 1 - k
      if (if o = 0 then okA else okB) then (if s.digestOk kind o then (s, some o) else (s.showCause kind o 7, none))
      else (s, none)

/-- The bank in force at step 11: the valid one, the higher generation where both are (R312, R397). -/
def State.calChoice (s : State) : Option (Nat × CalSet) :=
  match s.flash.bank0, s.flash.bank1 with
  | some a, some b => if 0 < sdiff 32 b.gen a.gen then some (1, b) else some (0, a)
  | some a, none => some (0, a)
  | none, some b => some (1, b)
  | none, none => none

/-- Step 11: the calibration set, and the outcome of an interrupted CAL_START (R312, Table 13.9). -/
def State.calStep (s : State) : State :=
  let s := match s.calChoice with
    | some (k, c) => s.calInForce c (some k)
    | none => s.calInForce {} none
  match s.boot.calOpen with
  | none => s
  | some d =>
    if s.chuck.calBank.isSome ∧ s.chuck.cal.gen % 2 ^ 24 = d then s.journal 0x06 11 0 0 d
    else (s.put R.BTJ_STAT_CAL_INTERRUPTED 1).journal 0x06 11 3 0 d

/-- SVN fuses are raised at step 15 (R308). -/
def State.raiseSvn (s : State) : State :=
  let s := match s.boot.fwSvn with
    | some n => if s.fuse.svnVendor < n then
        ({ s with fuse := { s.fuse with svnVendor := n } }).journal 0x07 15 0 0 (1 + n * 256) else s
    | none => s
  let s := match s.boot.ocSvn with
    | some n => if s.fuse.svnCust < n then
        ({ s with fuse := { s.fuse with svnCust := n } }).journal 0x07 15 0 0 (2 + n * 256) else s
    | none => s
  (s.put R.BTJ_SVN_VENDOR s.fuse.svnVendor).put R.BTJ_SVN_CUST s.fuse.svnCust

/-- The 40-bit counters that step 15 sets to 0 (R299): every 40-bit counter of the register tables. -/
def counters40 : List Fld :=
  [R.BLT_CONSUMED_COUNT, R.BLT_EVICTED_COUNT, R.ING_ACCEPTED_COUNT, R.ING_RETURNED_COUNT, R.BLT_DEC_TILES_COUNT,
   R.BLT_CMP_BILLETS_COUNT, R.BLT_CMP_NOSHRINK_COUNT, R.SPN_RENDERS_COUNT, R.SPN_HANDED_COUNT, R.SPN_SHAVINGS_COUNT,
   R.SPN_UNCOVERED_COUNT, R.SPN_SUBST_LOST_COUNT, R.FIR_OVERSPEED_LINES_COUNT, R.FIR_LAG_BLANK_COUNT, R.FIR_RES_READS_COUNT,
   R.TSL_WITHHELD_COUNT, R.CNT_CSHAV_COUNT, R.CNT_MBX_LOCK_COUNT, R.CNT_MBX_FINAL_COUNT]
  ++ (List.range 24).flatMap (fun p => [R.BLT_LATE_COUNT p, R.BLT_POISONL_COUNT p, R.HLK_MISSING_COUNT p, R.CNT_LINES_COUNT p,
      R.CNT_FIRED_COUNT p, R.CNT_BL_PARTED_COUNT p, R.CNT_BL_PARTHO_COUNT p, R.CNT_BL_OUT_COUNT p, R.CNT_BL_RENDER_COUNT p,
      R.CNT_BL_WITHHELD_COUNT p, R.CNT_BL_TX_COUNT p, R.CNT_BL_SPACE_COUNT p])
  ++ (List.range 4).flatMap (fun n => [R.CAM_PIPE_SCORES_COUNT n, R.CAM_PIPE_MASKMISS_COUNT n])
  ++ (List.range 8).map R.CMP_FIRED_COUNT

end Sys2Proof.Machine
end

