-- ==== Sys2Proof/Machine/Boot.lean ====
section
/-! DEFINITION. Reset sources and boot steps (chapter 13): commands POWER_ON_RESET to BOOT_STEP_END. -/

namespace Sys2Proof.Machine

/-- POWER_ON_RESET (R296, R47, R433): the only event that ends the thermal latch. -/
def execPowerOnReset (s : State) : Outc :=
  .next (s.resetChip { thermLatch := false, cause := rcPOR, lowNs := 0, failRunClear := true, retention := 0 })

/-- RESET_N_ASSERT (R296, R298): 1 µs resets, 1 s is a clean reset; below 200 ns nothing happens, and between the two the
outcome is a free value. -/
def execResetNAssert (lowNs : Nat) (s : State) : Outc :=
  if s.aon.thermLatch then .next s
  else
    let go := decide (1000 ≤ lowNs) || (decide (200 ≤ lowNs) && (s.freeVal 1 == 1))
    let s := if 200 ≤ lowNs ∧ lowNs < 1000 then s.took else s
    if go then .next (s.resetChip { s.aon with cause := if 1000000000 ≤ lowNs then rcPIN + rcCLEAN else rcPIN, lowNs := lowNs })
    else .next s

/-- RESET_RELEASE (R426, R349, R38): straps by majority of three samples, TIME40 from 0, BOOT step 1. -/
def execResetRelease (s0 s1 s2 : Nat) (s : State) : Outc :=
  if s.mode = .reset ∧ s.aon.thermLatch = false then
    let v := majority3 s0 s1 s2
    let s := { s with mode := .boot, time40 := 0, subNs := 0, modeT := 0, boot := { s.boot with t0 := s.now } }
    let s := ((s.put R.BTJ_STRAP_PAIR_SIDE v).put R.BTJ_STRAP_SMB_ADDR (v / 2)).put R.BTJ_STRAP_FTEST (v / 8)
    let s := s.put R.BTJ_STRAP_UNSTABLE (b2n (decide (s0 % 16 ≠ s1 % 16 ∨ s1 % 16 ≠ s2 % 16)))
    .next (s.put R.TSL_STAT_SIDE v)
  else .next s

/-- BOOT_WATCHDOG (R296, R298): a step ran past twice its limit; its STEP_BEGIN stays without STEP_END. -/
def execBootWatchdog (s : State) : Outc :=
  if s.aon.thermLatch = false ∧ s.mode = .boot then
    .next (s.resetChip { s.aon with cause := rcWDOG, failRunClear := false })
  else .next s

/-- A STEP_END entry of the step in progress (Table 13.8). -/
def State.stepEnd (s : State) (k result data : Nat) : State :=
  if 6 ≤ k then s.journal 0x03 k result s.boot.way data else s

/-- Step k begins (R299, R301): STEP shows it, the journal records it, and what the step does by itself starts. -/
def State.stepBegin (s : State) (k way : Nat) : State :=
  let s := (s.put R.BTJ_STAT_STEP k).put R.BTJ_IMGCAUSE_FW_A (s.get R.BTJ_IMGCAUSE_FW_A)
  let s := { s with boot := { s.boot with way := way } }
  let present := 2 ^ s.nChans - 1
  let data := if k = 10 then
      (if way = 0 then Nat.land (present - Nat.land present (Nat.lor s.boot.dramAlt s.boot.dramPart)) (2 ^ 8 - 1) else 0)
        + 256 * Nat.land (present - Nat.land present s.boot.dramDone) s.boot.dramAlt
    else if k = 8 then s.get R.BTJ_STAT_SLOT else if k = 9 then s.get R.BTJ_STAT_OC_SLOT else 0
  let s := if 6 ≤ k then s.journal 0x02 k 0 way data else s
  if k = 2 then s.railsBegin else if k = 13 then s.hlkBootStart else s

/-- The way the plan gives a step (R301). -/
def State.wayOf (s : State) (k : Nat) : Nat := if s.boot.planAlt.contains k then 1 else 0

/-- SAFE as a boot step's final action (R299). -/
def State.bootSafe (s : State) (src : Nat) : State := s.safeEntry src 0 1 mcFAULT

/-- Step k ends with `result` and step k + 1 begins; a step whose plan is its final action "boot continues" is skipped (R301). -/
def State.nextStep (s : State) (k result data : Nat) : State := (s.stepEnd k result data).stepBegin (k + 1) (s.wayOf (k + 1))

/-- Firmware chosen at step 7 (R307, R308). -/
def State.imageStep (s : State) (avoid : Option Nat) : State :=
  let (s, c) := s.chooseSlot 1 s.boot.otherSlot avoid
  match c with
  | none => (s.stepEnd 7 1 0).bootSafe 53
  | some k =>
    let h := s.flashBytes (slotOff 1 k) 256
    let s := (s.put R.BTJ_STAT_SLOT k).put R.BTJ_FWVER_VERSION (field h 8 4)
    let s := { s with boot := { s.boot with fwSvn := if bit (field h 6 1) 0 then some (field h 0x0C 1) else none } }
    s.nextStep 7 0 (k + 0xF * 256)

/-- Open cores at step 9 (R309). -/
def State.openStep (s : State) : State :=
  if !s.boot.ocEn then (s.put R.BTJ_STAT_OC_STATE 0).nextStep 9 2 0
  else if s.fuse.otpKeyHash.isNone then
    let s := (s.showCause 2 0 8).showCause 2 1 8
    (s.put R.BTJ_STAT_OC_STATE 3).nextStep 9 1 0
  else
    let (s, c) := s.chooseSlot 2 none none
    match c with
    | none => (s.put R.BTJ_STAT_OC_STATE 2).nextStep 9 1 0
    | some k =>
      let h := s.flashBytes (slotOff 2 k) 256
      let s := ((s.put R.BTJ_STAT_OC_STATE 1).put R.BTJ_STAT_OC_SLOT k).put R.BTJ_OCVER_VERSION (field h 8 4)
      let s := { s with boot := { s.boot with
        ocLen := field h 0x10 4, ocSvn := if bit (field h 6 1) 0 then some (field h 0x0C 1) else none } }
      ((s.hicUnpart 4).hicUnpart 5).nextStep 9 0 (k + 0xF * 256)

/-- DRAM channels at step 10 (R299, R335, R336): `mask` names the channels whose training of this attempt has ended well;
none does under a description that is not valid. -/
def State.dramStep (s : State) (mask : Nat) : State :=
  let present := 2 ^ s.nChans - 1
  let good := descGood s.dramDesc
  let s := s.put R.DRC_STAT_DESC_BAD (b2n !good)
  let ok := if good then Nat.land mask present else 0
  let up (s : State) (m : Nat) (stored : Bool) : State := s.forEach (members 4 m) (fun s c => s.dramUp c stored)
  let gone (s : State) (m : Nat) : State := s.forEach (members 4 m) (fun s c => s.report (32 + c) c 3)
  let ends (s : State) (done : Nat) : State :=
    if done = 0 then (s.stepEnd 10 1 0).bootSafe 53
    else s.relayoutNow.nextStep 10 (if done = present then 0 else 3) (present - done)
  if s.boot.way = 0 then
    let planned := Nat.land s.boot.dramPart present
    let alt := Nat.land s.boot.dramAlt (present - planned)
    let normal := present - Nat.lor alt planned
    let altOk := (members 4 (Nat.land alt ok)).foldl (fun (m : Nat) (c : Nat) => if s.dramStored c then setBit m c else m) 0
    let normOk := Nat.land normal ok
    let s := up (up (s.dramSave normOk) normOk false) altOk true
    let s := (s.put R.BTJ_STAT_DRAM_STORED altOk)
    let s := gone s (Nat.lor planned (alt - altOk))
    let failed := normal - normOk
    let s := { s with boot := { s.boot with dramDone := Nat.lor normOk altOk, dramAlt := failed } }
    if failed = 0 then ends s (Nat.lor normOk altOk) else s.stepBegin 10 1
  else
    let tried := s.boot.dramAlt
    let won := (members 4 (Nat.land tried ok)).foldl (fun (m : Nat) (c : Nat) => if s.dramStored c then setBit m c else m) 0
    let done := Nat.lor s.boot.dramDone won
    let s := up { s with boot := { s.boot with dramDone := done } } won true
    let s := s.put R.BTJ_STAT_DRAM_STORED (Nat.lor (s.get R.BTJ_STAT_DRAM_STORED) won)
    ends (gone s (tried - won)) done

/-- Step 15: counters to 0, SVN fuses, BOOT_DONE, IDLE (R299, R301, R308). -/
def State.bootDoneStep (s : State) : State :=
  let s := (s.put R.HLK_SEQ_SEQ 0).relayoutNow
  let s := counters40.foldl (fun s f => s.put f 0) s
  let s := s.raiseSvn
  let s := s.put R.BTJ_BOOTTIME_US ((s.now - s.boot.t0) / 1600)
  let s := (s.stepEnd 15 0 0).journal 0x04 15 0 0 ((s.now - s.boot.t0) / 1600000)
  let s := (s.put R.BTJ_FAILRUN_RUN 0).put R.BTJ_STAT_STEP 0
  if s.mode = .boot then s.setMode .idle mcBOOT_DONE else s

/-- The end of boot step k (R299): `ok` is what the hardware of the step reports, `mask` the DRAM channels trained or the
Ethernet ports started. -/
def State.bootStep (s : State) (k : Nat) (ok : Bool) (mask : Nat) : State :=
  match k with
  | 1 => if ok then
        (((s.put R.BTJ_SVN_VENDOR s.fuse.svnVendor).put R.BTJ_SVN_CUST s.fuse.svnCust).put R.BTJ_SVN_OTP_BLANK
          (b2n s.fuse.otpKeyHash.isNone)).stepBegin 2 0
      else s.bootSafe 53
  | 2 => if ok && (s.get R.CHK_RAIL_PG == 0x7F) then s.stepBegin 3 0 else s.report 50 0 1
  | 3 => if ok then
        (({ s with boot := { s.boot with pcieUp := true } }).put R.BTJ_STAT_PCIE_CAPPED s.boot.way).stepBegin 4 0
      else if s.boot.way = 0 then s.stepBegin 3 1 else s.stepBegin 4 0
  | 4 => if ok then
        (({ s with boot := { s.boot with flashOk := true } }).put R.BTJ_STAT_FLASH_SLOW s.boot.way).stepBegin 5 0
      else if s.boot.way = 0 then s.stepBegin 4 1 else s.bootSafe 53
  | 5 => if ok then
        let s := ({ s with boot := { s.boot with journalOk := true } }).planBoot
        if 8 ≤ s.get R.BTJ_FAILRUN_RUN then s.report 53 0 1 else s.stepBegin 6 (s.wayOf 6)
      else (s.put R.BTJ_STAT_NO_JOURNAL 1).stepBegin 6 0
  | 6 =>
      if s.boot.planFinal.contains 6 then (s.loadConfig none).nextStep 6 1 0
      else if ok then (s.loadConfig s.cfgChoice).nextStep 6 0 (s.get R.BTJ_STAT_CFG_COPY)
      else if s.boot.way = 0 then (s.stepEnd 6 1 0).stepBegin 6 1 else (s.loadConfig none).nextStep 6 1 0
  | 7 =>
      if s.boot.planFinal.contains 7 then s.bootSafe 53
      else if ok then s.imageStep (if s.boot.way = 1 then some (s.get R.BTJ_STAT_SLOT) else none)
      else if s.boot.way = 0 then (s.stepEnd 7 1 0).stepBegin 7 1 else (s.stepEnd 7 1 0).bootSafe 53
  | 8 =>
      if s.boot.planFinal.contains 8 then s.bootSafe 53
      else if ok then
        let s := s.forEach [0, 1, 2, 3] State.hicUnpart
        let s := { s with boot := { s.boot with coresUp := true }, chuck := { s.chuck with aliveOn := true } }
        (s.nextStep 8 0 (s.get R.BTJ_STAT_SLOT)).openDoors
      else if s.boot.way = 0 then (s.stepEnd 8 1 (s.get R.BTJ_STAT_SLOT)).stepBegin 7 1
      else (s.stepEnd 8 1 (s.get R.BTJ_STAT_SLOT)).bootSafe 53
  | 9 =>
      if s.boot.planFinal.contains 9 then (s.put R.BTJ_STAT_OC_STATE 2).nextStep 9 2 0
      else if ok then s.openStep
      else if s.boot.way = 0 then (s.stepEnd 9 1 0).stepBegin 9 1 else (s.put R.BTJ_STAT_OC_STATE 2).nextStep 9 1 0
  | 10 => s.dramStep mask
  | 11 => if ok && !s.boot.planAlt.contains 11 then s.calStep.nextStep 11 0 (s.chuck.calBank.getD 0)
      else (s.calInForce {} none).nextStep 11 1 0
  | 12 =>
      let up := Nat.land mask s.boot.eth
      let part := up != s.boot.eth
      ({ s with boot := { s.boot with eth := up } }).nextStep 12 (if part then 3 else 0) 0
  | 13 => s.nextStep 13 (if ok then 0 else 1) 0
  | 14 => s.pairBoot.nextStep 14 (if ok then 0 else 1) 0
  | 15 => s.bootDoneStep
  | _ => s

/-- BOOT_STEP_END (R299).  Step 5 reads and clears the power-on mark of BTJ_FAILRUN, which the always-on domain holds. -/
def execBootStepEnd (ok : Bool) (mask : Nat) (s : State) : Outc :=
  if s.running && (s.mode == .boot) then
    let t := s.bootStep (s.get R.BTJ_STAT_STEP) ok mask
    .next { t with aon := { s.aon with failRunClear := t.aon.failRunClear }, pending := s.pending }
  else .next s

end Sys2Proof.Machine
end

