-- ==== Sys2Proof/Machine/Faults.lean ====
section
/-! DEFINITION. Faults and accounting (chapter 17): commands ERROR_REPORT to DRAIN_DONE. -/

namespace Sys2Proof.Machine

/-- ERROR_REPORT (R364).  A report can take the GY8 into the thermal latch, so it is an event of the always-on domain;
outside the latch and RESET it acts as every other. -/
def execErrorReport (src unit cause : Nat) (s : State) : Outc :=
  if s.running then
    let t := s.report src unit cause
    .next { t with aon := if src = 51 then t.aon else s.aon, pending := s.pending }
  else .next s

/-- UNIT_RESTORE (R366). -/
def execUnitRestore (src unit : Nat) (s : State) : Outc := coreEvent s (fun s => s.restoreUnit src unit)

/-- FLT_CLEAR (R368). -/
def execFltClear (mask : Nat) (s : State) : Outc := coreEvent s (fun s => s.fltClear mask)

/-- A write of CNT_SNAP (R373, Table 17.9). -/
def State.snapWrite (s : State) (v : Nat) : State :=
  let s := s.put R.CNT_SNAP_NEXT (v / 2)
  if bit v 0 then s.snapRequest (s.flag R.CNT_SNAP_NEXT) (s.get R.CNT_SNAP_AT_LINE) else s

/-- CNT_SNAP_REQ (R373). -/
def execCntSnapReq (v : Nat) (s : State) : Outc := coreEvent s (fun s => s.snapWrite v)

/-- SNAPSHOT_COMPLETE (R373, R375): the bank is whole; the SNAPSHOT event follows. -/
def execSnapshotComplete (s : State) : Outc :=
  coreEvent s (fun s =>
    match s.acct.busy with
    | none => s
    | some k =>
      let b := if k = 0 then s.acct.bank0 else s.acct.bank1
      let b' := { b with complete := true, drainFlag := b.drainFlag || s.flag R.CNT_DRAIN_BUSY }
      let s := { s with acct := { s.acct with
        busy := none,
        bank0 := (if k = 0 then b' else s.acct.bank0), bank1 := (if k = 1 then b' else s.acct.bank1) } }
      let s := ((s.put R.CNT_SNAP_BUSY 0).put R.CNT_SNAP_PENDING (b2n s.acct.snapAt.isSome)).put R.CNT_SNAP_BANK k
      let s := s.put R.CNT_SNAP_GEN b.gen
      s.postEvent 0x8004 (k + b.gen * 2 ^ 16) b.line)

/-- A drain starts (R372). -/
def State.drainStart (s : State) (v : Nat) : State :=
  if bit v 0 && !s.flag R.CNT_DRAIN_BUSY then
    let s := s.put R.CNT_DRAIN_BUSY 1
    { s with acct := { s.acct with
        bank0 := (if s.acct.busy = some 0 then { s.acct.bank0 with drainFlag := true } else s.acct.bank0),
        bank1 := (if s.acct.busy = some 1 then { s.acct.bank1 with drainFlag := true } else s.acct.bank1) } }
  else s

/-- DRAIN_REQ (R372). -/
def execDrainReq (s : State) : Outc := coreEvent s (fun s => s.drainStart 1)

/-- DRAIN_DONE (R372): every counter has been added into its accumulator and set to 0; the totals are unchanged. -/
def execDrainDone (s : State) : Outc :=
  coreEvent s (fun s =>
    if s.flag R.CNT_DRAIN_BUSY then
      let s := { s with acct := { s.acct with accum := dropTotals s.acct.accum s.acct.drops, drops := [] } }
      let s := (s.put R.CNT_DRAIN_BUSY 0).bump R.CNT_DRAINS_COUNT
      s.put R.CNT_DRAIN_T_T s.time40
    else s)

end Sys2Proof.Machine
end

