-- ==== Sys2Proof/Machine/Camera.lean ====
section
/-! DEFINITION. Cameras (chapter 9): commands FRAME_START to CAPTURE_NO_FRAME. -/

namespace Sys2Proof.Machine

/-- A frame opens (R196, R199): it is numbered, served by its own pipeline, by the partner's whole, or dropped. -/
def State.frameStart (s : State) (n : Nat) : State :=
  let s := s.closeFrame n true
  if !s.flag (R.CAM_CFG_EN n) then s
  else
    let s := s.put (R.CAM_FRAMENO_FRAMENO n) (s.get (R.CAM_FRAMENO_FRAMENO n) + 1)
    let m := partnerPipe n
    let lent := s.pipeParted n && s.pipeServes n
    let stay := !s.pipeParted n && (s.slotsOf n).any (fun (e : Nat × CamFrame) => e.1 == n && bit e.2.flags 5) && s.pipeServes n
    let away := lent || stay
    let whole := away || !(s.slotsOf n).isEmpty || (decide (m < s.nCams) && s.pipeParted m && !s.pipeParted n && s.flag R.CAM_GCFG_SHARE_EN)
    let s := (s.put (R.CAM_STAT_SHARED n) (b2n away)).put (R.CAM_PIPE_STAT_SERVING m) (b2n away)
    let w := s.camWidth n
    let h := s.camHeight n
    let lost := (s.pipeParted n && !lent)
      || (whole && (decide (983040 < w * h) || decide (2 ≤ ((s.slotsOf n).filter (fun (e : Nat × CamFrame) => !e.2.dropped)).length)))
    let mark := s.flag (R.CAM_CAP_BUSY n) && (s.cport n).cap.isNone && !(s.cport n).wanted
    let pos := s.camPos n
    let f : CamFrame := {
      num := s.get (R.CAM_FRAMENO_FRAMENO n), time := s.time40, pos := pos, width := w, height := h, base := pos, rows := []
      flags := (if away then 32 else 0) + (if mark then 2 ^ 15 else 0), scores := 0, low := 0, verds := 0, dens := []
      shared := whole, ended := false, dropped := lost }
    let s := s.onCam n (fun c => { c with frame := some f, wanted := c.wanted || mark })
    if whole then State.serveSlots 8 { s with cam := { s.cam with slots := s.cam.slots ++ [(n, f)] } } n
    else if lost then s.camDrop n f else s

/-- FRAME_START (R196): the number the sensor sends is ignored. -/
def execFrameStart (n _num : Nat) (s : State) : Outc := coreEvent s (fun s => if s.camOn n then s.frameStart n else s)

/-- A flag of the frame in progress. -/
def State.frameFlag (s : State) (n i : Nat) (f : Fld) : State :=
  (s.onCam n (fun c => { c with frame := c.frame.map (fun (x : CamFrame) => { x with flags := setBit x.flags i }) })).raise f srcCAM

/-- A long packet of the selected type and channel is an image line (R195–R198). -/
def State.imageLine (s : State) (n : Nat) (pixels : List Nat) (crc full : Bool) : State :=
  match (s.cport n).frame with
  | none => s
  | some f0 =>
    let s := if crc then (s.bump (R.CAM_ERRCNT_CRC n)).frameFlag n 7 (R.CAM_STAT_CRC_ERR n) else s
    if f0.dropped then s
    else if f0.height ≤ f0.rows.length then s.frameFlag n 3 (R.CAM_STAT_LONG_FRAME n)
    else
      let short := decide (pixels.length < f0.width)
      let long := decide (f0.width < pixels.length)
      let s := if short then s.frameFlag n 0 (R.CAM_STAT_SHORT_LINE n) else s
      let s := if long then s.frameFlag n 1 (R.CAM_STAT_LONG_LINE n) else s
      let s := if full then s.frameFlag n 4 (R.CAM_STAT_OVERRUN n) else s
      match (s.cport n).frame with
      | none => s
      | some f =>
        let row := if full then s.mkRow n f f.rows.length [] 1
          else s.mkRow n f f.rows.length pixels (2 * b2n crc + 4 * b2n short + 8 * b2n long)
        let f := if f.rows.isEmpty && !s.flag (R.CAM_CFG_SCAN n) then { f with pos := s.camPos n } else f
        let f := { f with rows := f.rows ++ [row] }
        if f.shared then s.onCam n (fun c => { c with frame := some f })
        else
          let (s, f) := s.camScan n f row
          s.onCam n (fun c => { c with frame := some f })

/-- IMAGE_LINE (R195, R197).  Bits of `flags`: 0 payload CRC failed, 1 unsupported type or channel, 2 header beyond
correction, 3 the line ring is full. -/
def execImageLine (n : Nat) (pixels : List Nat) (flags : Nat) (s : State) : Outc :=
  coreEvent s (fun s =>
    if !s.camOn n then s
    else if bit flags 2 then (s.raise (R.CAM_STAT_HDR_ERR n) srcCAM).bump (R.CAM_ERRCNT_HDR n)
    else if bit flags 1 then s.raise (R.CAM_STAT_DT_DROP n) srcCAM
    else s.imageLine n pixels (bit flags 0) (bit flags 3))

/-- FRAME_END (R196). -/
def execFrameEnd (n : Nat) (s : State) : Outc := coreEvent s (fun s => if s.camOn n then s.closeFrame n false else s)

/-- A write of CAM_n_CAP (R212, Table 9.5). -/
def State.capWrite (s : State) (n v : Nat) : State :=
  if s.nCams ≤ n then s
  else
    let s := s.put (R.CAM_CAP_RAWMODE n) (v / 2)
    let s := if bit v 3 then s.put (R.CAM_CAP_DONE n) 0 else s
    let s := if bit v 4 then s.put (R.CAM_CAP_TRUNC n) 0 else s
    let s := if bit v 5 then s.put (R.CAM_CAP_REFUSED n) 0 else s
    if !bit v 0 then s
    else if s.flag (R.CAM_CAP_BUSY n) || !s.flag R.BLT_ENG_CFG_CAP_ENABLE then s.raise (R.CAM_CAP_REFUSED n) srcCAM
    else (s.put (R.CAM_CAP_BUSY n) 1).onCam n (fun c => { c with capRaw := s.flag (R.CAM_CAP_RAWMODE n), wanted := false })

/-- CAPTURE_REQ (R212). -/
def execCaptureReq (n v : Nat) (s : State) : Outc := coreEvent s (fun s => s.capWrite n v)

/-- A byte list filled with zeros to a multiple of 64. -/
def pad64 (b : List Nat) : List Nat := b ++ List.replicate (ceilDiv b.length 64 * 64 - b.length) 0

/-- Pieces in order while they fit into a number of bytes. -/
def fitting : Nat → List (List Nat) → List (List Nat)
  | _, [] => []
  | room, p :: t => if p.length ≤ room then p :: fitting (room - p.length) t else []

/-- The capture record is written to host memory (R212). -/
def State.capDeliver (s : State) (n : Nat) (c : CamCap) : State :=
  let stored := c.pieces.map (fun (p : List Nat × Option (List Nat)) => pad64 (p.2.getD []))
  let size := s.get (R.CAM_CAPSIZE_SIZE n)
  let lines := pad64 c.lines
  let sent := fitting (size - (64 + lines.length)) stored
  let rec_ := (c.head ++ toBytes 2 sent.length ++ List.replicate 32 0 ++ lines ++ sent.flatMap (fun (p : List Nat) => p)).take size
  let trunc := decide (sent.length < stored.length) || decide (size < 64 + lines.length)
  let s := s.emit (.hostWrite (s.get (R.CAM_CAPADDR_ADDR n) / 64 * 64) rec_)
  let s := (s.put (R.CAM_CAPLEN_LEN n) rec_.length).put (R.CAM_CAP_BUSY n) 0
  let s := if trunc then s.raise (R.CAM_CAP_TRUNC n) srcCAM else s
  let s := (s.raise (R.CAM_CAP_DONE n) srcCAM).onCam n (fun c => { c with cap := none })
  s.postEvent 0x8011 (n + (if trunc then 2 else 1) * 2 ^ 8) (field c.head 4 4 + rec_.length * 2 ^ 32)

/-- CAPTURE_DONE (R212): every piece has its stored form. -/
def execCaptureDone (n : Nat) (s : State) : Outc :=
  coreEvent s (fun s =>
    match (s.cport n).cap with
    | some c => if c.pieces.all (fun (p : List Nat × Option (List Nat)) => p.2.isSome) then s.capDeliver n c else s
    | none => s)

/-- CAPTURE_NO_FRAME (R286): no frame was processed within 2 s; the request is withdrawn. -/
def execCaptureNoFrame (n : Nat) (s : State) : Outc :=
  coreEvent s (fun s =>
    if s.flag (R.CAM_CAP_BUSY n) && (s.cport n).cap.isNone then
      let unmark (f : CamFrame) : CamFrame := { f with flags := clrBit f.flags 15 }
      let s := (s.put (R.CAM_CAP_BUSY n) 0).onCam n (fun c => { c with wanted := false, frame := c.frame.map unmark })
      let s := { s with cam := { s.cam with slots := s.cam.slots.map (fun (e : Nat × CamFrame) => if e.1 = n then (e.1, unmark e.2) else e) } }
      s.postEvent 0x8011 (n + 3 * 2 ^ 8) (s.get (R.CAM_FRAMENO_FRAMENO n) + s.get (R.CAM_CAPLEN_LEN n) * 2 ^ 32)
    else s)

end Sys2Proof.Machine
end

