-- ==== Sys2Proof/Machine/LineOps.lean ====
section
/-! DEFINITION. A line at its boundaries: hand-off with what it consumes, requests and sends, and the firing of a line with
its markers, counts and masks (R18–R20, R58, R148, R151–R155, R158, R175, R204, R226–R229, R372, R376, R377). -/

namespace Sys2Proof.Machine

/-- The page line of a port's fire line, before the wrap of a continuous job (R15, R50). -/
def State.rawLine (s : State) (p n : Nat) : Option Nat :=
  (s.pageLine p n).map (fun (_ : Nat) => 64 * s.path.startBand + n - s.offsetAt p n)

/-- TMIN of a class (R147). -/
def State.tmin (s : State) (cls : Nat) : Nat := if cls = 0 then s.get R.FIR_TMIN_TMIN_N else s.get R.FIR_TMIN_TMIN_S

/-- The sub-line delay of a port at the present boundary (R148). -/
def State.subDelay (s : State) (p : Nat) : Nat :=
  match s.linePeriod with
  | some t => (roundUp ((s.get (R.BLT_SKEW_SUBLINE p) : Rat) * t / 64)).toNat % 2 ^ 24
  | none => 0

/-! ## Hand-off -/

/-- Tiles of bands hand-off has gone past are released (R16). -/
def State.releaseTiles (s : State) (p raw : Nat) : State :=
  s.onPort p (fun x => { x with tiles := x.tiles.filter (fun (t : Tile) =>
    let d := sdiff 32 (wrapBand (raw / 64)) t.band
    !(decide (0 < d) || (decide (d = 0) && raw % 64 == 63))) })

/-- A band hand-off passes: its billets are consumed, or evicted unused where every line of it was skipped (R58, R64). -/
def State.passBand (s : State) (p b : Nat) (skipped : Bool) : State :=
  if skipped then s.evictWhere (fun (x : Billet) => x.job == s.curJob && x.col / 8 == p && x.band == wrapBand b && !x.consumed)
  else s.forEach (List.range 8) (fun s k => s.consume (8 * p + k) (wrapBand b))

/-- The hand-off band of the least-advanced enabled port (R58). -/
def State.leastBand (s : State) : Nat :=
  match s.enabledPorts.map (fun (p : Nat) => ((s.port p).handPl.getD (64 * s.path.startBand)) / 64) with
  | [] => s.path.startBand
  | a :: t => t.foldl min a

/-- Hand-off of a port moves on to a page line. -/
def State.passLine (s : State) (p raw : Nat) : State :=
  let x := s.port p
  let bands := (List.range ((raw + 1) / 64 - x.passed / 64)).map (fun (i : Nat) => x.passed / 64 + i)
  let gone (b : Nat) : Bool := (match x.handPl with | some h => decide (h < 64 * b) | none => false) && decide (64 * b + 63 < raw)
  let s := s.forEach bands (fun s b => s.passBand p b (gone b))
  let s := s.onPort p (fun x => { x with passed := max x.passed (raw + 1), handPl := some raw })
  let s := s.releaseTiles p raw
  if bands.isEmpty then s else s.trimReplay (wrapBand s.leastBand)

/-- A port's started line that is not complete at its hand-off counts as shavings (R19). -/
def State.shaveOne (s : State) (p n : Nat) : State :=
  match s.qline p n with
  | none => s
  | some _ =>
    let s := s.onPort p (fun x => { x with queue := x.queue.filter (fun (q : QLine) => q.line != n) })
    let s := (s.count R.SPN_SHAVINGS_COUNT).put R.SPN_QUEUED_COUNT (s.get R.SPN_QUEUED_COUNT - 1)
    { s with path := { s.path with lanes := s.path.lanes.map (fun (o : Option LaneItem) =>
        match o with
        | some i => if i.line = n ∧ i.ports.contains p = true then
            (if (i.ports.filter (· != p)).isEmpty then none else some { i with ports := i.ports.filter (· != p) })
          else some i
        | none => none) } }

/-- A nozzle may be measured at this hand-off (R158). -/
def State.resEligible (s : State) (p : Nat) (codes : List Nat) (i : Nat) : Bool :=
  let x := s.port p
  let last := Cells.look dfltZero x.nonzero i
  s.fires (8192 * p + i) && (codes.getD i 0 == 0)
    && (last == 0 || decide (max 16 (s.get R.FIR_RES_CFG_IDLE_LINES) < x.handNo + 1 - last))

/-- The cursor passes over nozzles: those selected and the cursor's end. -/
def State.resPass (s : State) (p : Nat) (codes : List Nat) : Nat → Nat → Nat → List Nat × Nat
  | 0, c, _ => ([], c)
  | _, c, 0 => ([], c)
  | fuel + 1, c, want + 1 =>
    if s.resEligible p codes c then
      let r := State.resPass s p codes fuel ((c + 1) % 8192) want
      (c :: r.1, r.2)
    else State.resPass s p codes fuel ((c + 1) % 8192) (want + 1)

/-- Resistance requests of a port-line, with the cursor moved on (R157, R158). -/
def State.resSelect (s : State) (p pl : Nat) (codes : List Nat) : State × List Nat :=
  if !s.flag R.FIR_RES_CFG_EN then (s, [])
  else if s.get (R.FIR_RANK_RNOM (s.link p).rank) = 0 then (s.raise R.FIR_STAT_NO_RANK srcFIR, [])
  else
    let want := if s.gapBand (wrapBand (pl / 64)) then max 1 (min 64 (s.get R.FIR_RES_CFG_GAP_PER_LINE))
      else max 1 (min 8 (s.get R.FIR_RES_CFG_PER_LINE))
    let r := s.resPass p codes 256 (s.port p).cursor want
    (s.onPort p (fun x => { x with cursor := r.2 }), r.1)

/-- The codes of a line handed off enter the record of idle nozzles (R158). -/
def State.noteCodes (s : State) (p : Nat) (codes : List Nat) : State :=
  let no := (s.port p).handNo + 1
  let busy := (codes.zipIdx.filter (fun (e : Nat × Nat) => e.1 != 0)).map (fun (e : Nat × Nat) => e.2)
  s.onPort p (fun x => { x with handNo := no, nonzero := busy.foldl (fun (m : Cells) (i : Nat) => Cells.store dfltZero m i no) x.nonzero })

/-- A word of a tile in use for a port-line prints code 0 (Table 1.8). -/
def State.badWord (s : State) (p pl : Nat) : Bool :=
  (s.port p).tiles.any (fun (t : Tile) => t.band == wrapBand (pl / 64) && t.bad.any (fun (w : Nat) => w / 16 == pl % 64))

/-- This member rendered or sends a port-line differently from the logged state (R228). -/
def State.divLine (s : State) (p n : Nat) : Bool :=
  let x := s.port p
  x.late.any (fun (e : Nat × Nat) => e.1 == n) || x.poisCnt.contains n || x.lateCnt.contains n
    || (match s.qline p n with | some q => q.uncovered | none => false)
    || (match s.pageLine p n with | some pl => s.badWord p pl | none => false)

/-- A band change that has reached its first line comes into force (R155). -/
def State.bandTake (s : State) (p n : Nat) : State :=
  match (s.port p).bandPend with
  | some (l, b) => if l ≤ n then (s.put (R.FIR_HTEMP_BAND p) b).onPort p (fun x => { x with bandPend := none }) else s
  | none => s

/-- The LINE frame of a committed line leaves (R170, R229). -/
def State.frameOut (s : State) (p : Nat) (c : CLine) : State :=
  if s.linkUp p && s.linkSender && !s.hushed p then
    s.sendLine p (c.seq % 2 ^ 32) c.cls c.band (s.port p).mapTag c.codes c.res
  else s

/-- A committed line of a port changed. -/
def State.onC (s : State) (p n : Nat) (f : CLine → CLine) : State :=
  s.onPort p (fun x => { x with committed := x.committed.map (fun (c : CLine) => if c.line == n then f c else c) })

/-- The committed line of a port. -/
def State.cline (s : State) (p n : Nat) : Option CLine := (s.port p).committed.find? (fun (c : CLine) => c.line == n)

/-- The partner's OCRC of a line. -/
def State.theirOcrc (s : State) (n : Nat) : Option Ocrc := s.pair.theirs.find? (fun (o : Ocrc) => o.line == n)

/-- The DIV mask this member gave a line. -/
def State.divAt (s : State) (n : Nat) : Nat :=
  match s.pair.div.find? (fun (e : Nat × Nat) => e.1 == n) with | some e => e.2 | none => 0

/-- A held-back port-line is withheld, or its own copy goes out (R228). -/
def State.heldEnd (s : State) (n p : Nat) : State :=
  if !s.pair.held.contains (n, p) then s
  else
    let s := { s with pair := { s.pair with held := s.pair.held.filter (fun (e : Nat × Nat) => e != (n, p)) } }
    let clean := match s.theirOcrc n with | some o => !bit o.div p && !bit o.parted p | none => false
    match s.cline p n with
    | none => s
    | some c =>
      if clean then (s.onC p n (fun c => { c with withheld := true })).count R.TSL_WITHHELD_COUNT
      else s.frameOut p c

/-- A port takes line n at its hand-off (R15, R18, R19, R25). -/
def State.handPort (s : State) (p n : Nat) : State :=
  let s := s.bandTake p n
  let seq := s.get R.HLK_SEQ_SEQ
  let blank (s : State) (k : Nat) : State :=
    s.onPort p (fun x => { x with committed := x.committed ++ [⟨n, seq, s.classOf n, s.get (R.FIR_HTEMP_BAND p), [], k, false, []⟩] })
  let parted := s.portParted p || decide (n < (s.port p).resume)
  match s.rawLine p n, s.pageLine p n with
  | some raw, some pl =>
    if parted then (blank s 1).passLine p raw
    else
      match s.qline p n with
      | some q =>
        if q.complete then
          let (s, res) := s.resSelect p pl q.codes
          let s := s.noteCodes p q.codes
          let c : CLine := ⟨n, seq, q.cls, s.get (R.FIR_HTEMP_BAND p), q.codes, 0, false, res⟩
          let hold := s.divLine p n && s.flag R.TSL_CFG_WITHHOLD && s.pairSynced
          let s := s.onPort p (fun x => { x with
            queue := x.queue.filter (fun (q : QLine) => q.line != n), committed := x.committed ++ [c] })
          let s := (s.count R.SPN_HANDED_COUNT).put R.SPN_QUEUED_COUNT (s.get R.SPN_QUEUED_COUNT - 1)
          let s := s.put R.CNT_COMMITTED_COUNT (s.get R.CNT_COMMITTED_COUNT + 1)
          let s := if hold then
              let s := { s with pair := { s.pair with held := s.pair.held ++ [(n, p)] } }
              if (s.theirOcrc n).isSome then s.heldEnd n p else s
            else s.frameOut p c
          s.passLine p raw
        else (((blank s 4).countLateLine p n).shaveOne p n).passLine p raw
      | none => ((blank s 4).countLateLine p n).passLine p raw
  | _, _ => blank s (if parted then 1 else 3)

/-- Compared port-lines of a line both members have reported (R226, R227). -/
def ocrcPorts (enabled : List Nat) (a b : Ocrc) : List Nat :=
  enabled.filter (fun (p : Nat) => !bit a.div p && !bit a.parted p && !bit b.div p && !bit b.parted p)

/-- All physical lanes present. -/
def State.allLanes (s : State) : Nat := ((List.range 34).filter s.lanePresent).foldl setBit 0

/-- Both OCRC frames of a line are compared (R227, R241). -/
def State.ocrcCompare (s : State) (n : Nat) : State :=
  match s.pair.mine.find? (fun (o : Ocrc) => o.line == n), s.theirOcrc n with
  | some a, some b =>
    let ps := ocrcPorts s.enabledPorts a b
    let bad := ps.filter (fun (p : Nat) => a.crcs.getD p 0 != b.crcs.getD p 0)
    let s := if s.pair.join = 5 then
        { s with pair := { s.pair with verified := if bad.isEmpty && ps.length == s.enabledPorts.length && (a.div == 0) then s.pair.verified + 1 else 0 } }
      else s
    if bad.isEmpty then s
    else
      let s := (s.bump R.TSL_OCRC_CNT_MISMATCH bad.length).raise R.TSL_STAT_MISMATCH srcTSL
      { s with path := { s.path with katDue := s.allLanes }, pair := { s.pair with judging := true } }
  | _, _ => s

/-- The CRC of a port-line at its hand-off (R226): a line with no packet counts as code 0 throughout. -/
def State.portCrc (s : State) (p n : Nat) : Nat :=
  if !s.portEnabled p then 0
  else
    match s.cline p n with
    | some c =>
      let codes := if c.codes.isEmpty then List.replicate 8192 0 else c.codes
      crc32c (packCodes codes ++ toBytes 2 (s.port p).mapTag ++ toBytes 2 (s.get R.BLT_SKEW_GEN_GEN) ++ [c.cls])
    | none => 0

/-- The OCRC frame of a line leaves (R226). -/
def State.sendOcrc (s : State) (n div : Nat) : State :=
  let parted := ((List.range 24).filter s.portParted).foldl setBit 0
  let o : Ocrc := ⟨n, div, parted, (List.range 24).map (fun (p : Nat) => s.portCrc p n)⟩
  let s := { s with pair := { s.pair with mine := (o :: s.pair.mine).take 32, div := ((n, div) :: s.pair.div).take 32 } }
  let s := s.pairFrame 0x22 (n % 2 ^ 32) (toBytes 5 n ++ toBytes 3 div ++ toBytes 3 parted ++ List.replicate 5 0
    ++ o.crcs.flatMap (fun (c : Nat) => toBytes 4 c))
  s.ocrcCompare n

/-- Line n is handed off on every enabled port (R18, R22, R174). -/
def State.handOff (s : State) (n : Nat) : State :=
  let s := s.count R.HLK_SEQ_SEQ
  let div := if s.pairUp then ((s.enabledPorts.filter (fun (p : Nat) => s.divLine p n
      || (s.renders p n && !(match s.qline p n with | some q => q.complete | none => false)))).foldl setBit 0) else 0
  let s := s.forEach s.enabledPorts (fun s p => s.handPort p n)
  let s := { s with path := { s.path with handed := n + 1 } }
  let s := if s.pairUp && decide (s.mode = .print ∨ s.mode = .shadow) then s.sendOcrc n div else s
  s.forEach (List.range 24) (fun s p => s.pruneLine p n)

/-- After the hand-off of the last line every uncommitted line is discarded and no render starts (R40). -/
def State.closeRun (s : State) (n : Nat) : State :=
  match s.lastLine with
  | some l => if l ≤ n ∧ s.path.closed = false then
      let s := s.forEach (List.range 24) State.shaveAll
      { s with path := { s.path with closed := true } }
    else s
  | none => s

/-! ## Firing -/

/-- Ascending keys each add 1, up to the greatest 40-bit value (R372). -/
def bumpKeys : Nat → Cells → List Nat → Cells
  | 0, m, _ => m
  | _ + 1, m, [] => m
  | n + 1, [], k :: ks => (k, 1) :: bumpKeys n [] ks
  | n + 1, (a, v) :: t, k :: ks =>
    if a < k then (a, v) :: bumpKeys n t (k :: ks)
    else if a = k then (a, min (v + 1) (2 ^ 40 - 1)) :: bumpKeys n t ks
    else (k, 1) :: bumpKeys n ((a, v) :: t) ks

/-- The nozzles of a line that fire a drop count it; a counter already at its maximum is saturated (R371, R372). -/
def State.countDrops (s : State) (p : Nat) (nz : List Nat) : State :=
  let keys := nz.map (fun (i : Nat) => 8192 * p + i)
  let full := keys.filter (fun (g : Nat) => Cells.look dfltZero s.acct.drops g == 2 ^ 40 - 1)
  let s := { s with acct := { s.acct with drops := bumpKeys (keys.length + s.acct.drops.length) s.acct.drops keys } }
  if full.isEmpty then s
  else (s.forEach full (fun s g => s.setIn (R.CNT_SATMAP_SAT (g / 32)) (g % 32))).raise R.CNT_DRAIN_SAT srcCNT

/-- HLK_UACC_p of a GY5-class head adds the drops of a line (R193); past its 21 bits the value is free. -/
def State.addUsage (s : State) (p k : Nat) : State :=
  if s.primary && s.flag (R.HLK_USTAT_GY5 p) && decide (s.mode = .print ∨ s.mode = .calibrate ∨ s.mode = .maintain) then
    let v := s.get (R.HLK_UACC_ACC p) + k
    if v < 2 ^ 21 then s.put (R.HLK_UACC_ACC p) v else s.took.put (R.HLK_UACC_ACC p) (s.freeVal 21)
  else s

/-- What a boundary gives the firing of its line: line, instant, gap to the boundary before, backlog, frames not complete. -/
structure FireAt where
  line : Nat
  t : Nat
  gap : Option Nat
  backlog : Bool
  txLate : Nat

/-- The spacing test (R151). -/
def State.spaced (s : State) (a : FireAt) (p cls : Nat) : Bool :=
  (match a.gap with | some g => decide (s.tmin cls ≤ g) | none => true)
    && (match (s.port p).fired with | some (t0, c0) => decide (t0 + s.tmin c0 ≤ a.t + 512 + s.subDelay p) | none => true)

/-- The blank cause of R377, 0 when the line fires with data. -/
def State.blankCause (s : State) (a : FireAt) (p : Nat) (c : CLine) : Nat :=
  if c.blank = 1 ∨ c.blank = 2 ∨ c.blank = 3 ∨ c.blank = 4 then c.blank
  else if c.withheld then 5
  else if bit a.txLate p then 6
  else if !s.spaced a p c.cls then 7
  else 0

/-- The counter of a blank cause (Table 17.9). -/
def blankFld (k p : Nat) : Fld :=
  match k with
  | 0 => R.CNT_FIRED_COUNT p
  | 1 => R.CNT_BL_PARTED_COUNT p
  | 2 => R.CNT_BL_PARTHO_COUNT p
  | 3 => R.CNT_BL_OUT_COUNT p
  | 4 => R.CNT_BL_RENDER_COUNT p
  | 5 => R.CNT_BL_WITHHELD_COUNT p
  | 6 => R.CNT_BL_TX_COUNT p
  | _ => R.CNT_BL_SPACE_COUNT p

/-- A spacing blank's counter and flags (R152). -/
def State.spaceBlank (s : State) (backlog : Bool) : State :=
  if backlog then (s.count R.FIR_LAG_BLANK_COUNT).raise R.FIR_STAT_LAG_BLANK srcFIR
  else
    let s := (s.count R.FIR_OVERSPEED_LINES_COUNT).raise R.FIR_STAT_OVERSPEED srcFIR
    { s with line := { s.line with speeding := some 0 } }

/-- The marker of a port-line leaves (R175, R176, R229): FINE depends on where the slots lie and is a free value. -/
def State.marker (s : State) (p seq k : Nat) : State :=
  if s.linkUp p && s.linkSender && !s.hushed p then
    s.took.sendMark p (s.freeVal 16 % 27) (s.subDelay p) seq (decide (k = 1 ∨ k = 2 ∨ k = 6 ∨ k = 7))
      |>.trimFired p seq
  else s.trimFired p seq

/-- A port fires its line: marker, cause, counters, drops; answers the state and the mask of drops (R20, R204, R376, R377). -/
def State.firePort (s : State) (a : FireAt) (p : Nat) : State × List Nat :=
  let c := (s.cline p a.line).getD ({ line := a.line, seq := s.get R.HLK_SEQ_SEQ, cls := s.classOf a.line, band := 0, codes := [], blank := if s.portParted p then 1 else 4, withheld := false, res := [] } : CLine)
  let k := s.blankCause a p c
  let s := s.marker p (c.seq % 2 ^ 32) k
  let s := (s.count (R.CNT_LINES_COUNT p)).count (blankFld k p)
  let s := if c.handed then s.put R.CNT_COMMITTED_COUNT (s.get R.CNT_COMMITTED_COUNT - 1) else s
  let s := if k = 6 then (s.raise (R.HLK_STAT_TX_LATE p) srcHLK).bump (R.HLK_EVTCNT_TX_LATE p) else s
  let s := if k = 7 then s.spaceBlank a.backlog else s
  let s := s.onPort p (fun x => { x with
    committed := x.committed.filter (fun (d : CLine) => d.line != a.line)
    resDue := if c.res.isEmpty || s.portParted p then x.resDue else (x.resDue ++ [(a.line, c.res)]) })
  if k = 0 then
    let nz := (c.codes.zipIdx.filter (fun (e : Nat × Nat) => e.1 != 0)).map (fun (e : Nat × Nat) => e.2)
    let start := a.t + 512 + s.subDelay p
    let s := s.onPort p (fun x => { x with fired := some (start, c.cls) })
    ((s.countDrops p nz).addUsage p nz.length, nz)
  else (s, [])

/-- The line of a boundary fires on every enabled port, and its mask enters the ring (R20, R204). -/
def State.fireLine (s : State) (a : FireAt) : State :=
  let r := s.enabledPorts.foldl (fun (r : State × List (Nat × Nat)) (p : Nat) =>
    let o := r.1.firePort a p
    (o.1, if o.2.isEmpty then r.2 else r.2 ++ [(p, (o.2.map (fun (i : Nat) => 2 ^ i)).foldl (· + ·) 0)])) (s, [])
  let s := r.1
  let s := { s with cam := { s.cam with masks := ((⟨a.line, r.2⟩ : MaskLine) :: s.cam.masks).take (s.get R.CAM_GCFG_MASK_DEPTH * 1024) } }
  { s with path := { s.path with lastFired := some a.line } }

/-! ## Decisions at a boundary -/

/-- LEAD, UP_PCT and DOWN_PCT as they act (Table 7.5). -/
def State.lead (s : State) : Nat := max 8 (s.get R.FIR_CLASS_CFG_LEAD)
def State.upPct (s : State) : Nat := max 1 (min 20 (s.get R.FIR_CLASS_CFG_UP_PCT))
def State.downPct (s : State) : Nat := let d := s.get R.FIR_CLASS_CFG_DOWN_PCT; if d ≤ s.upPct then s.upPct + 2 else d

/-- The first line a decision taken after boundary j names (R153, R221). -/
def State.leadLine (s : State) (j : Nat) : Nat := max (j + s.lead) (if s.logOpen then s.firstLine else 0)

/-- The heading class (R153). -/
def State.heading (s : State) : Nat := match s.path.decision with | some (c, _, _) => c | none => s.get R.FIR_CTRL_CLASS_SEL

/-- A class decision is put on its way (R153, R154): one that is not in force is replaced without a trace. -/
def State.classChange (s : State) (c line : Nat) : State :=
  let s := { s with path := { s.path with
    decision := some (c, line, false), normRun := 0
    changes := s.path.changes.filter (fun (x : Change) => match x.kind with | .cls _ => false | _ => true) } }
  (s.addChange line (.cls c)).put R.FIR_CTRL_PEND 1

/-- The primary takes a class decision and logs it. -/
def State.classDecide (s : State) (c j : Nat) : State :=
  let line := s.leadLine j
  (s.logDecide (some (line - 5)) 7 1 line c).classChange c line

/-- A boundary at which the class is evaluated (R153): `none` where no decision may be taken for a class. -/
def State.mayDecide (s : State) (c : Nat) : Bool :=
  s.primary && s.mode == .print && s.flag R.FIR_CTRL_AUTO_SHORT && s.linePeriod.isSome && s.load.isNone && s.tmin c != 0

/-- The class rules of one boundary (R153). -/
def State.classRule (s : State) (j : Nat) : State :=
  let tp := s.get R.ENC_LINE_TP_T
  if s.heading = 0 then
    let s := { s with path := { s.path with normRun := 0 } }
    if s.mayDecide 1 && decide (tp ≤ s.tmin 0 * (100 + s.upPct) / 100) then s.classDecide 1 j else s
  else
    let ok := s.mayDecide 0 && !s.flag R.FIR_CTRL_PEND && decide (s.tmin 0 * (100 + s.downPct) / 100 ≤ tp)
    { s with path := { s.path with normRun := if ok then s.path.normRun + 1 else 0 } }

/-- The band of a head temperature, from the band in force (R155). -/
def State.headBand (s : State) (cur : Nat) (th : Int) : Nat :=
  let tb (b : Nat) : Int := 4 * signed 8 (match b with | 1 => s.get R.FIR_BAND_CFG_TB1 | 2 => s.get R.FIR_BAND_CFG_TB2 | _ => s.get R.FIR_BAND_CFG_TB3)
  let up := ([1, 2, 3]).foldl (fun (m : Nat) (b : Nat) => if tb b ≤ th then b else m) 0
  let down := ([3, 2, 1]).foldl (fun (m : Nat) (b : Nat) =>
    if m = b ∧ th ≤ tb b - 4 * (s.get R.FIR_BAND_CFG_HYST : Int) then b - 1 else m) cur
  if cur < up then up else down

/-- The band a port is heading for. -/
def State.bandGoal (s : State) (p : Nat) : Nat :=
  if !s.flag R.FIR_CTRL_BAND_AUTO then s.get R.FIR_CTRL_BAND_FIX
  else if !s.flag (R.FIR_HTEMP_VALID p) then 0
  else s.headBand (s.get (R.FIR_HTEMP_BAND p)) (signed 10 (s.get (R.FIR_HTEMP_TEMP p)))

/-- The 24 bands of a BAND decision, those pending included. -/
def State.bandWord (s : State) : Nat :=
  ((List.range 24).map (fun (p : Nat) =>
    (match (s.port p).bandPend with | some (_, b) => b | none => s.get (R.FIR_HTEMP_BAND p)) * 4 ^ p)).foldl (· + ·) 0

/-- Band decisions of one boundary (R155), on the member that decides. -/
def State.bandRule (s : State) (j : Nat) : State :=
  if !s.primary then s
  else
    let ps := (List.range s.nPorts).filter (fun (p : Nat) => (s.port p).bandPend.isNone && s.bandGoal p != s.get (R.FIR_HTEMP_BAND p))
    if ps.isEmpty then s
    else
      let line := s.leadLine j
      let s := s.forEach ps (fun s p => s.onPort p (fun x => { x with bandPend := some (line, s.bandGoal p) }))
      s.logDecide (some (line - 5)) 7 2 line s.bandWord

/-- A decision whose first line fires is done (R154). -/
def State.classFires (s : State) (j cls : Nat) : State :=
  let s := s.put R.FIR_CTRL_CLASS cls
  match s.path.decision with
  | some (c, line, _) =>
    if line ≤ j ∧ s.flag R.FIR_CTRL_PEND = true then
      let s := ((s.put R.FIR_CTRL_PEND 0).bump R.FIR_CLASS_SW_COUNT).raise R.FIR_STAT_SWITCHED srcFIR
      { s with path := { s.path with decision := some (c, line, true) } }
    else s
  | none => s

/-- Skew changes for lines up to `line` come into force: offsets, ARM, GEN (R62–R64).  Answers the ports. -/
def State.skewDue (s : State) (line : Nat) : State × List Nat :=
  let l := s.path.changes.filterMap (fun (c : Change) => match c.kind with
    | .skew p o => if c.line ≤ line then some (p, c.line, o) else none
    | _ => none)
  if l.isEmpty then (s, [])
  else
    let s := { s with path := { s.path with
      endFloor := max s.path.endFloor (s.path.handed - 1)
      changes := s.path.changes.filter (fun (c : Change) => match c.kind with | .skew _ _ => decide (line < c.line) | _ => true) } }
    let s := l.foldl (fun (s : State) (e : Nat × Nat × Nat) =>
      let s := s.onPort e.1 (fun x => { x with offs := e.2 :: (if x.offs.isEmpty then [(0, s.get (R.BLT_SKEW_OFFSET e.1))] else x.offs) })
      (s.put (R.BLT_SKEW_OFFSET e.1) e.2.2).put (R.BLT_SKEW_PEND_ARM e.1) 0) s
    (s.count R.BLT_SKEW_GEN_GEN, l.map (fun (e : Nat × Nat × Nat) => e.1))

/-- A class decision for lines up to `line` comes into force (R153). -/
def State.clsDue (s : State) (line : Nat) : State × Bool :=
  match s.path.changes.findSome? (fun (c : Change) => match c.kind with
    | .cls k => if c.line ≤ line then some (c.line, k) else none
    | _ => none) with
  | none => (s, false)
  | some (l, k) =>
    ({ s with path := { s.path with
      clsAt := (l, k) :: s.path.clsAt
      decision := s.path.decision.map (fun (d : Nat × Nat × Bool) => (d.1, d.2.1, true))
      changes := s.path.changes.filter (fun (c : Change) => match c.kind with | .cls _ => false | _ => true) } }, true)

/-- Step 3 of R22: the changes due at boundary j, with one discard per affected port (R21, R106, Table 5.5). -/
def State.changesDue (s : State) (j : Nat) : State :=
  let tags := (List.range 24).map (fun (p : Nat) => (s.port p).mapTag)
  let (s, skews) := s.skewDue (j + 5)
  let (s, cls) := s.clsDue (j + 5)
  let s := s.grainDue (j + 5)
  s.forEach s.enabledPorts (fun s p =>
    let named := skews.contains p || (s.port p).mapTag != tags.getD p 0
    let lines := (s.port p).queue.filterMap (fun (q : QLine) =>
      if j + 5 ≤ q.line ∧ (named = true ∨ (cls = true ∧ q.cls ≠ s.classOf q.line)) then some q.line else none)
    match lines with
    | [] => s
    | a :: t => s.shaveFrom p (t.foldl min a))

end Sys2Proof.Machine
end

