-- ==== Sys2Proof/Machine/LinkOps.lean ====
section
/-! DEFINITION. What the upstream side of Holza-H and the health rules of chapter 7 share: link faults, when a parted port is
quiet, head temperature, resistance readings, class tables and their reloads, usage answers (R145–R150, R155, R157–R162,
R172, R187–R193). -/

namespace Sys2Proof.Machine

/-! ## Parting and quiet of a head port -/

/-- A head's report is hot: HOTFLAGS is set and no report below WARN has come (R161). -/
def State.hotStill (s : State) (p : Nat) : Bool :=
  s.bitIn R.FIR_HOTFLAGS_HOT p
    && !(s.flag (R.FIR_HTEMP_VALID p) && decide (signed 10 (s.get (R.FIR_HTEMP_TEMP p)) < 4 * signed 8 (s.get R.FIR_HTEMP_CFG_WARN)))

/-- A parted port whose conditions of Table 17.1 hold: its error line falls; with cause DISABLED or RETRAIN it is restored
without a quiet period (R188). -/
def State.portQuiet (s : State) (p : Nat) : State :=
  match s.acct.parted.find? (fun (u : PartedUnit) => u.src == p && u.unit == p) with
  | none => s
  | some u =>
    if !s.linkUp p || !s.flag (R.HLK_CTRL_EN p) || (s.primary && !(s.port p).loaded) || s.hotStill p then s
    else
      let s := s.lineFalls p p
      if u.cause = 3 ∨ u.cause = 5 then s.restoreUnit p p else s

/-- Reloads in progress on links that are UP (R150). -/
def State.reloading (s : State) : Bool := (List.range s.nPorts).any (fun (p : Nat) => s.linkUp p && (s.link p).stage != 0)

/-- Ports with EN = 1 whose link is UP (R150). -/
def State.loadPorts (s : State) : List Nat := (List.range s.nPorts).filter (fun (p : Nat) => s.linkUp p && s.flag (R.HLK_CTRL_EN p))

/-- Span of a class (R147). -/
def ClassTab.span (t : ClassTab) : Nat :=
  let adj := (t.trim.map (signed 7)).foldl max (-64)
  let one (i : Nat) : Nat :=
    let used := ((t.wf.drop (4 * i)).take 4).filter (fun (w : Pulse) => w.width != 0)
    match used.reverse with
    | [] => 0
    | w :: _ => w.start + w.width + used.length * (max 0 adj).toNat
  ((List.range 12).map one).foldl max 0

/-- TMIN of a class's tables (R147). -/
def ClassTab.tmin (t : ClassTab) : Nat := t.span + 3 * t.off + 320

/-- The greatest line rate of a class's tables (R147). -/
def ClassTab.rate (t : ClassTab) : Nat := min 192000 (1600000000 / t.tmin)

/-- A waveform keeps R145: pulse 0 used, used pulses contiguous, widths and gaps, widths with every trim. -/
def waveOk (adjMin : Int) (l : List Pulse) : Bool :=
  let used := l.map (fun (w : Pulse) => w.width != 0)
  let n := (used.takeWhile id).length
  let pair (i : Nat) : Bool := match l[i]?, l[i + 1]? with
    | some a, some b => decide (a.start + a.width + 16 ≤ b.start)
    | _, _ => true
  decide (0 < n) && (used.drop n).all (fun (u : Bool) => !u)
    && (l.take n).all (fun (w : Pulse) => decide (16 ≤ w.width ∧ w.width ≤ 4095 ∧ 16 ≤ (w.width : Int) + adjMin))
    && (List.range (n - 1)).all pair

/-- A class's tables keep R145. -/
def ClassTab.ok (t : ClassTab) (cls : Nat) : Bool :=
  let adjMin := (t.trim.map (signed 7)).foldl min 63
  (List.range 12).all (fun (i : Nat) => waveOk adjMin ((t.wf.drop (4 * i)).take 4))
    && decide (t.span ≤ (if cls = 0 then 6400 else 3840)) && decide (1280 ≤ t.off ∧ t.off ≤ 3200)

/-- The staging registers of a class as they stand (R149, R164). -/
def State.staged (s : State) (cls : Nat) : ClassTab :=
  { off := if cls = 0 then s.get R.FIR_PHASE_OFF_N else s.get R.FIR_PHASE_OFF_S
    trim := (List.range 32).map (fun (t : Nat) => s.get (R.FIR_TRIM_ADJ cls t))
    wf := (List.range 48).map (fun (i : Nat) =>
      (⟨s.get (R.FIR_WF_START cls (i / 12) (i / 4 % 3) (i % 4)), s.get (R.FIR_WF_WIDTH cls (i / 12) (i / 4 % 3) (i % 4))⟩ : Pulse)) }

/-- A class comes into force on this member: its copy, TMIN and greatest rate (R147, R150). -/
def State.classInForce (s : State) (cls : Nat) (t : ClassTab) : State :=
  let s := { s with path := { s.path with tab := modifyNth s.path.tab cls (fun _ => some t) } }
  if cls = 0 then (s.put R.FIR_TMIN_TMIN_N t.tmin).put R.FIR_RATE_RATE_N t.rate
  else (s.put R.FIR_TMIN_TMIN_S t.tmin).put R.FIR_RATE_S_RATE_S t.rate

/-- Frames of an owner leave every command queue: their procedure has ended (R185). -/
def State.dropOwner (s : State) (owner : Nat) : State :=
  { s with links := s.links.map (fun (l : Link) => { l with queue := l.queue.filter (fun (f : LinkFrame) => f.owner != owner) }) }

/-- A reload is to be made on a port for one class more (R150, R172). -/
def State.reloadAdd (s : State) (p cls : Nat) (now : Bool) : State :=
  let idle := (s.link p).stage == 0
  let s := s.onLink p (fun l => { l with reload := if l.reload.contains cls then l.reload else l.reload ++ [cls] })
  let s := s.onPort p (fun x => { x with loaded := false })
  if now && idle then s.reloadNext p else s

/-- A load completes (R150, R172, R280): the class is in force; silent ports are parted with cause WAVE and loaded again, as
are ports that came UP meanwhile. -/
def State.loadDone (s : State) (w : WaveLoad) : State :=
  let s := { s with load := none }
  let s := (s.dropOwner 1).classInForce w.cls w.tab
  let silent := (members 24 w.sent).filter (fun (p : Nat) => !bit w.done p)
  let late := s.loadPorts.filter (fun (p : Nat) => !bit w.sent p)
  let s := s.forEach silent (fun s p => (s.reloadAdd p w.cls false).report p p 4)
  let s := s.forEach late (fun s p => s.reloadAdd p w.cls true)
  s.finishLong opWAVE_LOAD stOK (silent.foldl setBit 0) (toBytes 2 w.tab.tmin ++ [0, 0] ++ toBytes 4 w.tab.rate)

/-- WAVE_COMMIT goes to every port of the load (R172 step 3); with no port the load is complete. -/
def State.loadCommit (s : State) (w : WaveLoad) : State :=
  let s := { s with load := some { w with committing := true } }
  let s := (s.linkCmd (members 24 w.sent) 3 1 [w.cls]).logClose
  if w.sent % 2 ^ 24 = 0 then s.loadDone w else s

/-- A load that waits starts once no reload is in progress: its WAVE frames go out, PROGRESS is 500 (R150, R172, R280). -/
def State.loadKick (s : State) : State :=
  match s.load with
  | none => s
  | some w =>
    if w.sent ≠ 0 ∨ w.committing = true ∨ s.reloading = true then s
    else
      let ports := s.loadPorts
      let w := { w with sent := ports.foldl setBit 0 }
      let s := (s.linkWave ports w.cls 1 w.tab).logClose
      let s := ({ s with load := some w } : State).setProgress opWAVE_LOAD 500
      if ports.isEmpty then s.loadCommit w else s

/-- A load fails (R172, R280): WAVE_DISCARD to its ports, every head keeps what it held. -/
def State.loadFail (s : State) (w : WaveLoad) : State :=
  let s := (({ s with load := none } : State).linkCmd (members 24 w.sent) 4 1 [w.cls]).logClose
  let silent := ((members 24 w.sent).filter (fun (p : Nat) => !bit w.ok p && !bit w.refused p)).foldl setBit 0
  let r := toBytes 3 w.refused ++ [0] ++ toBytes 3 silent ++ [0]
  if w.refused ≠ 0 then s.finishLong opWAVE_LOAD stHEAD_REFUSED w.refused r
  else s.finishLong opWAVE_LOAD stHEAD_TIMEOUT silent r

/-- Every port of a load has answered its WAVE frame (R172): commit or discard. -/
def State.loadJudge (s : State) (w : WaveLoad) : State :=
  if (members 24 w.sent).any (fun (p : Nat) => !bit w.ok p && !bit w.refused p) then { s with load := some w }
  else if w.refused ≠ 0 then s.loadFail w else s.loadCommit w

/-- A reload fails: the port is parted with cause WAVE, and the reload is tried again every 100 ms (R150). -/
def State.reloadFail (s : State) (p : Nat) : State :=
  let s := s.onLink p (fun l => { l with stage := 0, queue := l.queue.filter (fun (f : LinkFrame) => f.owner != 2) })
  (s.report p p 4).loadKick

/-- A port trains anew: its reload is off, and a load that waited for it may go on. -/
def State.retrain (s : State) (p : Nat) : State := (s.trainStart p).loadKick

/-- A link fault (R190): the port is parted with cause LINK and retrains. -/
def State.linkFault (s : State) (p : Nat) : State := if s.linkUp p then (s.report p p 1).retrain p else s

/-- A training step fails (R188). -/
def State.trainFail (s : State) (p cause : Nat) : State :=
  (s.put (R.HLK_STAT_STATE p) 6).put (R.HLK_STAT_FAILCAUSE p) cause

/-! ## The head identity block -/

/-- The identity block keeps the rules of Table 8.7 (R189). -/
def headIdOk (b : List Nat) : Bool :=
  (b.length == 128) && (field b 0 2 == 0x4D48) && (field b 2 1 == 1) && decide (field b 3 1 ≤ 1) && (field b 0x10 2 == 8192)
    && decide (1 ≤ field b 0x12 1 ∧ field b 0x12 1 ≤ 8) && decide (field b 0x13 1 ≤ 15) && decide (field b 0x14 1 ≤ 15)
    && decide (field b 0x15 1 ≤ 96) && decide (8 ≤ field b 0x1C 1 ∧ field b 0x1C 1 ≤ 32) && (field b 0x1E 2 == 0)
    && ((b.drop 0x20).take 8).all (fun (d : Nat) => decide (d ≤ 15)) && (((b.drop 0x28).take 84).all (· == 0))
    && (field b 0x7C 4 == crc32c (b.take 0x7C))

/-- SERIAL of the head on a port (R189). -/
def State.headSerial (s : State) (p : Nat) : Nat := s.get (R.HLK_HMEM_DATA p 2) + 2 ^ 32 * s.get (R.HLK_HMEM_DATA p 3)

/-- The key installed for a serial (R192). -/
def State.usageKeyOf (s : State) (serial : Nat) : Option Nat :=
  (s.flash.usageKeys.find? (fun (e : Nat × Nat) => e.1 == serial)).map (fun (e : Nat × Nat) => e.2)

/-- HLK_USTAT_p.KEY follows the key table. -/
def State.keyShow (s : State) (p : Nat) : State := s.put (R.HLK_USTAT_KEY p) (b2n (s.usageKeyOf (s.headSerial p)).isSome)

/-- The identity block is taken over (R189). -/
def State.headId (s : State) (p : Nat) (b : List Nat) : State :=
  let s := s.forEach (List.range 32) (fun s w => s.put (R.HLK_HMEM_DATA p w) (field b (4 * w) 4))
  let s := s.onLink p (fun l => { l with rank := field b 0x13 1 })
  ((s.put (R.HLK_LAT_RXLAT p) (field b 0x15 1)).put (R.HLK_USTAT_GY5 p) (field b 3 1)).keyShow p

/-! ## Head temperature -/

/-- WARN and LIMIT of the heads in quarter degrees, as they act (R160). -/
def State.headWarn (s : State) : Int := 4 * signed 8 (s.get R.FIR_HTEMP_CFG_WARN)
def State.headLimit (s : State) : Int := max (4 * signed 8 (s.get R.FIR_HTEMP_CFG_LIMIT)) (s.headWarn + 8)

/-- A port between WARN and LIMIT: its ceiling C_p (R160). -/
def State.portCeil (s : State) (p : Nat) : Option Nat :=
  let th := signed 10 (s.get (R.FIR_HTEMP_TEMP p))
  if !s.portEnabled p || s.portParted p || !s.flag (R.FIR_HTEMP_VALID p) || decide (th < s.headWarn) || decide (s.headLimit ≤ th) then none
  else
    let f : Rat := (min 100 (s.get R.FIR_HTEMP_CFG_FLOOR_PCT) : Nat) / 100
    some (ratFloor ((s.classRate : Rat) * (1 - (1 - f) * ((th - s.headWarn : Int) : Rat) / ((s.headLimit - s.headWarn : Int) : Rat))))

/-- FIR_HCEIL and HOT_WARN (R160). -/
def State.headCeil (s : State) : State :=
  let l := (List.range s.nPorts).filterMap s.portCeil
  (s.put R.FIR_HCEIL_CEIL (l.foldl min 0xFFFFFF)).put R.FIR_STAT_HOT_WARN (b2n !l.isEmpty)

/-- A port is parted as hot (R161); a port already flagged stays so. -/
def State.hotPart (s : State) (p : Nat) : State :=
  if s.bitIn R.FIR_HOTFLAGS_HOT p then s
  else
    let s := ((s.setIn R.FIR_HOTFLAGS_HOT p).raise R.FIR_STAT_HOT_PART srcFIR).bump R.FIR_HOT_PARTS_COUNT
    s.report p p 2

/-- While nothing is armed a port's band follows its temperature at once; the primary logs it on arrival (R155). -/
def State.bandFollow (s : State) (p : Nat) : State :=
  if s.path.armed || !s.primary || s.bandGoal p == s.get (R.FIR_HTEMP_BAND p) then s
  else
    let s := s.put (R.FIR_HTEMP_BAND p) (s.bandGoal p)
    s.logDecide none 7 2 0 s.bandWord

/-- Every port's band after a write of FIR_CTRL or FIR_BAND_CFG, which count in IDLE only (R155). -/
def State.bandsFollow (s : State) : State :=
  if s.path.armed || !s.primary then s
  else
    let t := s.forEach (List.range s.nPorts) (fun (t : State) p => t.put (R.FIR_HTEMP_BAND p) (s.bandGoal p))
    if t.bandWord = s.bandWord then s else t.logDecide none 7 2 0 t.bandWord

/-- A valid temperature report (R155, R160–R162). -/
def State.headTemp (s : State) (p t : Nat) : State :=
  let s := (s.put (R.FIR_HTEMP_TEMP p) t).put (R.FIR_HTEMP_VALID p) 1
  let s := s.onPort p (fun x => { x with noTemp := 0 })
  let s := if s.headLimit ≤ signed 10 t then s.hotPart p else s.portQuiet p
  (s.bandFollow p).headCeil

/-! ## Upstream headers -/

/-- The header word of an upstream frame: HCLAIM is shown; an epoch above this member's fences it (R194, R234). -/
def State.upHeader (s : State) (p : Nat) (body : List Nat) : State :=
  let c := field body 4 4
  let s := s.put (R.HLK_HCLAIM_CLAIM p) c
  let own := if s.mode = .shadow then s.get R.TSL_PEER_CLAIM_CLAIM else s.get R.HLK_CLAIM_CLAIM
  if own ≠ 0 ∧ own / 2 < c / 2 then
    let s := s.raise (R.HLK_STAT_CLAIM_LOW p) srcHLK
    if s.primary then s.fence else s
  else s

/-- The payload of a received frame as its code words give it: corrections and uncorrectable words are counted, and a frame
with an uncorrectable word is lost (R30, Table 1.9; DEDUCED, log entry 66). -/
def State.payloadIn (s : State) (k : Nat) (body : List Nat) : State × Option (List Nat) :=
  let ws := codeWords body
  let bad := (ws.filter wordBad).length
  let s := (s.bump (R.FLT_ECC_CE k) (ws.filter wordFixed).length).bump (R.FLT_ECC_UE k) bad
  (s, if bad = 0 then some (wordData ws) else none)

/-- An upstream frame of a port that is UP: its header and data bytes go to a meaning. -/
def State.upstream (s : State) (p : Nat) (body : List Nat) (k : State → List Nat → State) : State :=
  if !s.linkUp p then s
  else match s.payloadIn 7 body with
    | (s, some b) => k s b
    | (s, none) => s

/-- The data bytes of an upstream frame. -/
def upData (body : List Nat) : List Nat := body.drop 16

/-- The tables a WAVE frame carries (R172). -/
def tabOf (b : List Nat) : ClassTab := {
  off := field b 2 2
  trim := ((b.drop 4).take 32).map (· % 128)
  wf := (List.range 48).map (fun (i : Nat) => ⟨field b (36 + 4 * i) 2, field b (38 + 4 * i) 2⟩) }

/-! ## Lanes and errors of a STAT -/

/-- LANESEL names the lanes the stream uses (R167, R190, R191). -/
def State.laneSel (s : State) (p mask : Nat) : State :=
  let s := s.onLink p (fun l => { l with mask := mask, both := 0 })
  let b := [mask, 0, 0, 0, 0, 0]
  (s.put (R.HLK_STAT_LANES p) (popcount 2 mask)).emit (.down p 0xE8 (b ++ [crc8 b]))

/-- The lane locks of a STAT (R190, R191). -/
def State.laneLocks (s : State) (p lock : Nat) : State :=
  let l := s.link p
  if l.mask = 3 then
    if lock = 3 then s
    else if lock = 0 ∨ s.flag (R.HLK_CTRL_ONE_LANE_OK p) = false then s.linkFault p
    else
      let again := match l.backT with | some t => decide (s.now < t + 1600000000) | none => false
      ((s.laneSel p lock).onLink p (fun l => { l with sticky := again })).raise (R.HLK_STAT_LANE_DOWN p) srcHLK
  else if Nat.land lock l.mask = 0 then s.linkFault p
  else s.onLink p (fun l => { l with both := if lock = 3 then l.both + 1 else 0 })

/-- ERR bits of a STAT (R187): counts, flags, and the LINK fault of one-lane mode or of four in 1 ms. -/
def State.statErr (s : State) (p err : Nat) : State :=
  let n := popcount 2 err
  let s := if n = 0 then s else (s.bump (R.HLK_ERRCNT_FRAME p) n).raise (R.HLK_STAT_FRAME_ERR p) srcHLK
  let s := if bit err 2 then (s.bump (R.HLK_ERRCNT_TRIM_LATE p)).raise (R.HLK_STAT_TRIM_LATE p) srcHLK else s
  if n = 0 then s
  else
    let ts := List.replicate n s.now ++ (s.link p).errT.filter (fun (t : Nat) => decide (s.now < t + 1600000))
    let s := s.onLink p (fun l => { l with errT := ts })
    if (s.link p).mask ≠ 3 ∨ 4 ≤ ts.length then s.linkFault p else s

/-- A STAT frame on a link that is UP (R155, R160–R162, R185–R187, R190, R191). -/
def State.statIn (s : State) (p : Nat) (body : List Nat) : State :=
  let s := s.upHeader p body
  let d := upData body
  let s := (s.onLink p (fun l => { l with creturn := field d 4 2 })).showCredits p
  let s := if field d 0 1 = 2 ∨ field d 0 1 = 3 then (s.count (R.HLK_MISSING_COUNT p)).raise (R.HLK_STAT_MISSING p) srcHLK else s
  let s := if field d 7 1 = 0 then s else s.raise (R.HLK_STAT_SKIPPED p) srcHLK
  let s := s.laneLocks p (field d 1 1 % 4)
  let s := if s.linkUp p then s.statErr p (field d 6 1) else s
  let s := if bit (field d 2 2) 15 && s.linkUp p then s.headTemp p (field d 2 2 % 1024) else s
  s.linkPump p

/-! ## Resistance readings -/

/-- A reading is in the window of a rank (R157). -/
def State.inWindow (s : State) (r v : Nat) : Bool :=
  let rnom := s.get (R.FIR_RANK_RNOM r)
  v != 0 && v != 0xFFFF
    && decide (rnom * (100 - min 99 (s.get R.FIR_RES_WIN_LO_PCT)) ≤ 100 * v ∧ 100 * v ≤ rnom * (100 + s.get R.FIR_RES_WIN_HI_PCT))

/-- The line a reading was requested in: the oldest request that names the nozzle; the request is then met. -/
def State.resLine (s : State) (p n : Nat) : State × Nat :=
  match (s.port p).resDue.find? (fun (e : Nat × List Nat) => e.2.contains n) with
  | none => (s, s.path.lastFired.getD 0)
  | some e =>
    (s.onPort p (fun x => { x with resDue := (x.resDue.map (fun (f : Nat × List Nat) =>
      if f.1 = e.1 then (f.1, f.2.filter (· != n)) else f)).filter (fun (f : Nat × List Nat) => !f.2.isEmpty) }), e.1)

/-- One reading (R158, R159, R401). -/
def State.resIn (s : State) (p n v : Nat) : State :=
  let s := s.count R.FIR_RES_READS_COUNT
  match s.calRun.bind (fun (r : CalRun) => if r.bit_ = 3 then some r else none) with
  | some r =>
    if v = 0 ∨ v = 0xFFFF then s
    else { s with calRun := some { r with reads := ((s.link p).rank, v) :: r.reads } }
  | none =>
  let (s, line) := s.resLine p n
  let held := Cells.look dfltZero (s.port p).resHeld n
  let hold (s : State) (k : Nat) : State := s.onPort p (fun x => { x with resHeld := Cells.store dfltZero x.resHeld n k })
  if s.inWindow (s.link p).rank v then hold s 0
  else
    let s := (s.bump R.FIR_RES_OUT_COUNT).raise R.FIR_STAT_RES_OUT srcFIR
    let s := ((s.put R.FIR_RES_LAST_OHMS v).put R.FIR_RES_LAST_PORT p).put R.FIR_RES_LASTN_NOZ n
    let s := hold s (line + 1)
    if held ≠ 0 ∧ held - 1 + 1024 ≤ line ∧ s.primary = true then (s.verdictIn (8192 * p + n) 2 4).bump R.FIR_RES_DEAD_COUNT else s

/-! ## Answers -/

/-- The WAVE or CMD frame a CSEQ names. -/
def State.answered (s : State) (p cseq : Nat) : Option LinkFrame := (s.link p).queue.find? (fun (f : LinkFrame) => f.sent && f.cseq == cseq)

/-- A frame leaves a port's command queue. -/
def State.linkTake (s : State) (p cseq : Nat) : State :=
  s.onLink p (fun l => { l with queue := l.queue.filter (fun (f : LinkFrame) => f.cseq != cseq) })

/-- A usage operation is over. -/
def State.usageDone (s : State) (p : Nat) : State :=
  let s := s.onLink p (fun l => { l with usage := none, queue := l.queue.filter (fun (f : LinkFrame) => f.owner != 5) })
  s.put (R.HLK_USTAT_PENDING p) 0

/-- The answer to a usage operation (R192, R193).  After a lost increment the count is read; it stands where the count has
risen, and is sent once more where it has not. -/
def State.usageAnswer (s : State) (p op nonce : Nat) (again : Bool) (count mac : Nat) : State :=
  let prev := s.get (R.HLK_USAGE_COUNT p)
  let serial := s.headSerial p
  let s := s.usageDone p
  match s.usageKeyOf serial with
  | none =>
    let s := (s.put (R.HLK_USAGE_COUNT p) count).put (R.HLK_USTAT_VERIFIED p) 0
    if op = 5 ∧ again = true ∧ count ≤ prev then s.usageSend p 6 true else s
  | some k =>
    let m := Config.hmacSha256 k ([op] ++ toBytes 16 nonce ++ toBytes 8 serial ++ toBytes 4 count) % 2 ^ 256 / 2 ^ 128
    let step := op ≠ 6 ∨ count = prev + 1 ∨ (count = 0xFFFFFFFF ∧ prev = 0xFFFFFFFF)
    if mac ≠ m ∨ ¬ step then s.raise (R.HLK_USTAT_AUTH_FAIL p) srcHLK
    else
      let s := (s.put (R.HLK_USAGE_COUNT p) count).put (R.HLK_USTAT_VERIFIED p) 1
      if op = 5 ∧ again = true ∧ count ≤ prev then s.usageSend p 6 true else s

/-- An ACK to a frame of a load (R172). -/
def State.loadAck (s : State) (p : Nat) (f : LinkFrame) (status : Nat) : State :=
  match s.load with
  | none => s
  | some w =>
    if f.ftype = 3 ∧ w.committing = false then
      if status = 0 then s.loadJudge { w with ok := setBit w.ok p }
      else if status = 2 then s.loadJudge { w with refused := setBit w.refused p }
      else s
    else if f.op = 3 ∧ w.committing = true ∧ status = 0 then
      let w := { w with done := setBit w.done p }
      if (members 24 w.sent).all (bit w.done) then s.loadDone w else { s with load := some w }
    else s

/-- An ACK to a frame of a reload (R150). -/
def State.reloadAck (s : State) (p : Nat) (f : LinkFrame) (status : Nat) : State :=
  let l := s.link p
  if f.ftype = 3 ∧ l.stage = 1 then
    if status = 0 then
      let s := s.onLink p (fun l => { l with stage := 2 })
      (s.linkCmd [p] 3 2 [l.reload.headD 0]).logClose
    else if status = 2 then s.reloadFail p else s
  else if f.op = 3 ∧ l.stage = 2 ∧ status = 0 then
    let s := s.onLink p (fun l => { l with stage := 0, reload := l.reload.drop 1 })
    ((s.reloadNext p).portQuiet p).loadKick
  else s

/-- An ACK frame (R186). -/
def State.ackIn (s : State) (p : Nat) (body : List Nat) : State :=
  let s := s.upHeader p body
  let d := upData body
  match s.answered p (field body 0 4) with
  | none => s
  | some f =>
    let s := s.linkTake p f.cseq
    match f.owner with
    | 1 => s.loadAck p f (field d 1 1)
    | 2 => s.reloadAck p f (field d 1 1)
    | 5 =>
      match (s.link p).usage with
      | some (op, nonce, again) =>
        if field d 1 1 = 0 then s.usageAnswer p op nonce again (field d 4 4) (((d.drop 8).take 16).foldl (fun (a b : Nat) => 256 * a + b) 0) else s
      | none => s
    | _ => s

/-- The HEAD_MEM_READ that waits for the MEM frame of a port (R291): its PROGRESS holds 1 + CSEQ. -/
def State.memCmd (s : State) (p : Nat) : Option Cmd :=
  s.mbx.cmds.find? (fun (c : Cmd) => c.op == opHEAD_MEM_READ && c.progress != 0 && s.arg c 0 1 == p)

/-- A MEM frame (R186, R291). -/
def State.memIn (s : State) (p : Nat) (body : List Nat) : State :=
  let s := s.upHeader p body
  match s.answered p (field body 0 4), s.memCmd p with
  | some f, some c =>
    if f.owner = 4 ∧ c.progress = 1 + f.cseq then
      (s.linkTake p f.cseq).finish c stOK 0 ((upData body ++ List.replicate 240 0).take (s.arg c 4 2))
    else s
  | _, _ => s

end Sys2Proof.Machine
end

