-- ==== Sys2Proof/Machine/HostCmds.lean ====
section
/-! DEFINITION. Mailbox commands of the groups Session, Inspection, Counters, Time and Diagnostics without register access, and
the end of a UDP session (R265, R273, R286, R288, R290, R291). -/

namespace Sys2Proof.Machine

/-! ## Session -/

/-- IDENTIFY (R273): values at the take. -/
def execIdentify (r : SlotRef) (s : State) : Outc := withCmd s r opIDENTIFY (fun s c => s.finish c stOK 0 c.atTake)

/-- A UDP session ends (R265): outstanding commands run on, their completions are discarded. -/
def State.udpEnd (s : State) : State :=
  let s := ((s.put R.MBX_UDP_SESS_OPEN 0).put R.MBX_UDP_SESS_SESSION 0).put R.MBX_UDP_HOST_ADDR 0
  { s with mbx := { s.mbx with
    udpLast := []
    cmds := s.mbx.cmds.map (fun (c : Cmd) => if c.ref.transport = .udp then { c with discard := true } else c) } }

/-- UDP_OPEN (R265, R273).  The number of a new session is not stated: a free value other than 0. -/
def State.cmdUdpOpen (s : State) (c : Cmd) : State :=
  let host := field c.atTake 0 4
  if c.ref.transport = .bar then s.finish c stNOT_UDP
  else if s.flag R.MBX_UDP_SESS_OPEN && s.get R.MBX_UDP_HOST_ADDR != host then s.finish c stBUSY
  else
    let n := 1 + s.freeVal 64 % 65535
    let s := ((s.took.put R.MBX_UDP_SESS_SESSION n).put R.MBX_UDP_SESS_OPEN 1).put R.MBX_UDP_SESS_PORT (field c.atTake 4 1)
    (s.put R.MBX_UDP_HOST_ADDR host).finish c stOK n
def execUdpOpen (r : SlotRef) (s : State) : Outc := withCmd s r opUDP_OPEN State.cmdUdpOpen

/-- UDP_CLOSE (R273): after the completion is sent. -/
def State.cmdUdpClose (s : State) (c : Cmd) : State :=
  if c.ref.transport = .bar then s.finish c stNOT_UDP else (s.finish c stOK).udpEnd
def execUdpClose (r : SlotRef) (s : State) : Outc := withCmd s r opUDP_CLOSE State.cmdUdpClose

/-- UDP_SESSION_TIMEOUT (R265). -/
def execUdpSessionTimeout (s : State) : Outc := coreEvent s (fun s => if s.flag R.MBX_UDP_SESS_OPEN then s.udpEnd else s)

/-- ECHO (R273). -/
def State.cmdEcho (s : State) (c : Cmd) : State := s.finish c stOK 0 ((s.payloadOf c).take (field (s.slotBytes c.ref) 4 2))
def execEcho (r : SlotRef) (s : State) : Outc := withCmd s r opECHO State.cmdEcho

/-! ## Inspection -/

/-- CAPTURE (R286). -/
def State.cmdCapture (s : State) (c : Cmd) : State :=
  let p := s.payloadOf c
  let n := field p 0 1
  if 4 ≤ n ∨ 2 ≤ field p 1 1 ∨ resv p [(2, 2)] = true ∨ field p 4 4 % 64 ≠ 0 ∨ field p 8 8 % 64 ≠ 0 then s.finish c stBAD_PARAM
  else if s.nCams ≤ n then s.finish c stABSENT
  else if s.flag (R.CAM_CAP_BUSY n) || !s.flag R.BLT_ENG_CFG_CAP_ENABLE then s.finish c stCAPTURE_REFUSED
  else if !s.flag (R.CAM_CFG_EN n) then s.finish c stPORT_OFF
  else
    let s := (s.put (R.CAM_CAPADDR_ADDR n) (field p 8 8)).put (R.CAM_CAPSIZE_SIZE n) (field p 4 4)
    (s.capWrite n (1 + 2 * field p 1 1)).finish c stOK
def execCapture (r : SlotRef) (s : State) : Outc := withCmd s r opCAPTURE State.cmdCapture

/-- STATS_RING (R286). -/
def State.cmdStatsRing (s : State) (c : Cmd) : State :=
  let p := s.payloadOf c
  if 5 ≤ field p 8 1 ∨ 2 ≤ field p 9 1 ∨ resv p [(10, 2)] = true ∨ field p 0 8 % 1024 ≠ 0 then s.finish c stBAD_PARAM
  else
    let s := s.put R.CAM_SRING_CFG_EN 0
    let s := (s.put R.CAM_SRING_LO_ADDR_LO (field p 0 4)).put R.CAM_SRING_HI_ADDR_HI (field p 4 4)
    let s := ((s.put R.CAM_SRING_CFG_SIZE (field p 8 1)).put R.CAM_SRING_HEAD_HEAD 0).put R.CAM_SRING_DONE_DONE 0
    let s := { s with cam := { s.cam with phase := true } }
    (s.put R.CAM_SRING_CFG_EN (field p 9 1)).finish c stOK
def execStatsRing (r : SlotRef) (s : State) : Outc := withCmd s r opSTATS_RING State.cmdStatsRing

/-! ## Counters and snapshot -/

/-- SNAPSHOT (R288). -/
def State.cmdSnapshot (s : State) (c : Cmd) : State :=
  let p := s.payloadOf c
  let next := bit (field p 0 1) 0
  if 2 ≤ field p 0 1 ∨ resv p [(1, 2)] = true ∨ (next = true ∧ field p 3 5 ≠ 0) then s.finish c stBAD_PARAM
  else if s.flag R.CNT_SNAP_PENDING then s.finish c stSNAP_PENDING
  else if !s.path.armed && !next then s.finish c stNO_LINES
  else
    let r := [s.snapBank, 0] ++ toBytes 2 (s.acct.snapGen + 1) ++ [0, 0, 0, 0]
    (s.snapRequest next (field p 3 5)).finish c stOK 0 r
def execSnapshot (r : SlotRef) (s : State) : Outc := withCmd s r opSNAPSHOT State.cmdSnapshot

/-- A snapshot bank. -/
def State.bankOf (s : State) (k : Nat) : Bank := if k = 0 then s.acct.bank0 else s.acct.bank1

/-- DROP_READ (R288).  The read is one step, so no newer snapshot reuses the bank during it. -/
def State.cmdDropRead (s : State) (c : Cmd) : State :=
  let p := s.payloadOf c
  let first := field p 4 4
  let n := field p 8 4
  let b := s.bankOf (field p 0 1)
  if 2 ≤ field p 0 1 ∨ resv p [(1, 3), (12, 4)] = true ∨ n = 0 ∨ 196608 < first + n ∨ field p 16 8 % 64 ≠ 0 then s.finish c stBAD_PARAM
  else if !b.complete then s.finish c stBAD_PARAM
  else
    let r := s.dmaOut (field p 16 8) ((List.range n).flatMap (fun (i : Nat) => toBytes 8 (Cells.look dfltZero b.drops (first + i))))
    r.1.finish c (if r.2 then stOK else stDMA_ERROR)
def execDropRead (r : SlotRef) (s : State) : Outc := withCmd s r opDROP_READ State.cmdDropRead

/-! ## Time -/

/-- PTP_CONFIG (R290, R352). -/
def State.cmdPtpConfig (s : State) (c : Cmd) : State :=
  let p := s.payloadOf c
  if 16 ≤ field p 0 1 ∨ resv p [(3, 1), (20, 4)] = true then s.finish c stBAD_PARAM
  else if 4 ≤ field p 1 1 then s.finish c stPROFILE
  else
    let s := s.forEach [0, 1] (fun s n =>
      (s.put (R.TMB_ASYM_IN_ASYM n) (field p (4 + 8 * n) 4)).put (R.TMB_ASYM_EG_ASYM n) (field p (8 + 8 * n) 4))
    let s := (s.put R.TMB_CFG_BOUNDARY (field p 0 1 / 4)).put R.TMB_CFG_TWO_STEP (field p 0 1 / 8)
    let w := field p 0 1 + field p 1 1 * 2 ^ 4 + field p 2 1 * 2 ^ 8 + s.get R.TMB_CFG_LOCK_NS * 2 ^ 16
    (s.tmbCfg w).finish c stOK
def execPtpConfig (r : SlotRef) (s : State) : Outc := withCmd s r opPTP_CONFIG State.cmdPtpConfig

/-! ## Diagnostics -/

/-- FAULT_CLEAR (R291, R368). -/
def execFaultClear (r : SlotRef) (s : State) : Outc :=
  withCmd s r opFAULT_CLEAR (fun s c => (s.fltClear (field (s.payloadOf c) 0 8)).finish c stOK)

/-- SOFT_RESET (R231, R291, R296): the completion is posted, FAULT is sent in a pair, the chip resets. -/
def State.cmdSoftReset (s : State) (c : Cmd) : State :=
  if field (s.payloadOf c) 0 4 ≠ 0x5AA5 then s.finish c stBAD_PARAM
  else
    let s := s.finish c stOK
    let s := if s.pairUp then s.pairFault 3 0xFF else s
    s.resetChip { s.aon with cause := rcSOFT }
def execSoftReset (r : SlotRef) (s : State) : Outc :=
  if s.running then
    let t := s.runCmd r opSOFT_RESET State.cmdSoftReset
    .next { t with aon := { s.aon with cause := t.aon.cause }, pending := s.pending }
  else .next s

/-- A journal entry as bytes (Table 13.7). -/
def JEntry.bytes (e : JEntry) : List Nat :=
  let b := [e.type, e.step, e.result, e.way] ++ toBytes 4 e.bootNo ++ toBytes 4 e.tus ++ toBytes 3 e.data
  b ++ [crc8 b]

/-- JOURNAL_READ (R291). -/
def State.cmdJournalRead (s : State) (c : Cmd) : State :=
  let p := s.payloadOf c
  if resv p [(12, 4)] = true ∨ field p 0 8 % 64 ≠ 0 then s.finish c stBAD_PARAM
  else
    let b := (s.flash.journal.flatMap JEntry.bytes).take (field p 8 4)
    let r := s.dmaOut (field p 0 8) b
    if r.2 then r.1.finish c stOK 0 (toBytes 4 b.length ++ [0, 0, 0, 0]) else r.1.finish c stDMA_ERROR
def execJournalRead (r : SlotRef) (s : State) : Outc := withCmd s r opJOURNAL_READ State.cmdJournalRead

/-- USAGE_KEY (R192, R291). -/
def State.cmdUsageKey (s : State) (c : Cmd) : State :=
  let p := s.payloadOf c
  let serial := field p 0 8
  let key := field p 16 32
  let del := bit (field p 8 1) 0
  let rest := s.flash.usageKeys.filter (fun (e : Nat × Nat) => e.1 != serial)
  if 2 ≤ field p 8 1 ∨ resv p [(9, 7)] = true ∨ (del = true ∧ key ≠ 0) then s.finish c stBAD_PARAM
  else if !del && decide (64 ≤ rest.length) then s.finish c stKEY_TABLE_FULL
  else
    let s := { s with flash := { s.flash with usageKeys := if del then rest else rest ++ [(serial, key)] } }
    (s.forEach (List.range s.nPorts) State.keyShow).finish c stOK
def execUsageKey (r : SlotRef) (s : State) : Outc := withCmd s r opUSAGE_KEY State.cmdUsageKey

end Sys2Proof.Machine
end

