-- ==== Sys2Proof/Machine/Ingest.lean ====
section
/-! DEFINITION. Ingest (chapters 3 and 4): commands ING_RING_DOORBELL to CQDONE_WRITE, COMPRESS_DONE and HOST_RESET, and the
BIL datagrams of UDP ingest (R266). -/

namespace Sys2Proof.Machine

/-- ING_RING_DOORBELL (R57, R266): TAIL moves; ring 3 is deaf to BAR0 while UDP feeds it. -/
def State.ingDoorbell (s : State) (n tail : Nat) : State :=
  if 4 ≤ n ∨ (n = 3 ∧ s.flag R.MBX_UDP_CFG_INGEST = true) then s
  else (s.put (R.ING_RING_TAIL_TAIL n) tail).put (R.MBX_INGDB_TAIL n) tail
def execIngRingDoorbell (n tail : Nat) (s : State) : Outc := coreEvent s (fun s => s.ingDoorbell n tail)

/-- A write of ING_RINGn_CFG.ENABLE (R57). -/
def State.ringEnable (s : State) (n : Nat) (en : Bool) : State :=
  if 4 ≤ n then s else s.put (R.ING_RING_CFG_ENABLE n) (b2n en)
def execRingEnable (n : Nat) (en : Bool) (s : State) : Outc :=
  coreEvent s (fun s => s.sealedWrite [(0x40200000 + 0x40 * n,
    b2n en + s.get (R.ING_RING_CFG_SIZE n) * 2 + s.get (R.ING_RING_CFG_VEC n) * 2 ^ 8)] (fun s => s.ringEnable n en))

/-- CQDONE_WRITE (R55, R57): completions are released; a paused ring may go on. -/
def State.cqDone (s : State) (n v : Nat) : State :=
  if 4 ≤ n then s else (s.put (R.ING_RING_CQDONE_DONE n) v).recordsOut
def execCqdoneWrite (n v : Nat) (s : State) : Outc :=
  coreEvent s (fun s => s.sealedWrite [(0x40200018 + 0x40 * n, v)] (fun s => s.cqDone n v))

/-- Descriptors that wait in ring n. -/
def State.ringWaits (s : State) (n : Nat) : Nat :=
  (s.get (R.ING_RING_TAIL_TAIL n) + s.ringSize n - s.get (R.ING_RING_HEAD_HEAD n) % s.ringSize n) % s.ringSize n

/-- The descriptor `i` places after the head of ring n (R52). -/
def State.ringDesc (s : State) (n i : Nat) : List Nat :=
  s.bytesAt (0x40180000 + 0x8000 * n + 32 * ((s.get (R.ING_RING_HEAD_HEAD n) + i) % s.ringSize n)) 32

/-- A descriptor as a flight (Table 3.1). -/
def mkFlight (id ring : Nat) (udp : Bool) (b : List Nat) : Flight := {
  id := id, ring := ring, udp := udp, addr := field b 0 8, len := field b 8 2, flags := field b 10 2, col := field b 12 1
  job := field b 13 1, band := field b 16 4, cookie := field b 20 4, phase := 0, logEnd := 0, bytes := [], status := 0
  store := 0, slen := 0, noJob := false, quiet := false }

/-- A flight joins the list. -/
def State.addFlight (s : State) (f : Flight) : State :=
  { s with store := { s.store with flights := s.store.flights ++ [f], flightNo := s.store.flightNo + 1 } }

/-- RING_FLUSH (R57, R68): every waiting descriptor returns FLUSHED and counts nowhere. -/
def State.ringFlush (s : State) (n : Nat) : State :=
  if 4 ≤ n ∨ s.flag (R.ING_RING_CFG_ENABLE n) = true then s
  else
    let l := (List.range (s.ringWaits n)).map (s.ringDesc n)
    let s := l.foldl (fun (s : State) (b : List Nat) =>
      s.addFlight { mkFlight s.store.flightNo n false b with phase := 3, status := 0x1F }) s
    (s.put (R.ING_RING_HEAD_HEAD n) (s.get (R.ING_RING_TAIL_TAIL n))).recordsOut
def execRingFlush (n : Nat) (s : State) : Outc :=
  coreEvent s (fun s => s.sealedWrite [(0x40200000 + 0x40 * n,
    2 ^ 31 + s.get (R.ING_RING_CFG_SIZE n) * 2 + s.get (R.ING_RING_CFG_VEC n) * 2 ^ 8)] (fun s => s.ringFlush n))

/-- The job a descriptor names, current or declared next (check 3); an aborted job takes none (R60). -/
def State.jobOf (s : State) (n : Nat) : Option Job :=
  match s.store.cur with
  | some j => if j.d.num = n then (if j.closed then none else some j) else (s.store.next.filter (fun (k : Job) => k.d.num == n))
  | none => s.store.next.filter (fun (k : Job) => k.d.num == n)

/-- The render deadline of the last line of a band has passed (R65). -/
def State.tooLate (s : State) (f : Flight) : Bool :=
  let p := f.col / 8
  let ahead := sdiff 32 f.band (wrapBand s.path.startBand)
  let n : Int := 64 * ahead + 63 + s.get (R.BLT_SKEW_OFFSET p)
  s.encArmed && f.job == s.curJob && (decide (n < 0) || (decide (0 < s.path.next) && decide (n ≤ (s.path.next : Int) + 4)))

/-- Checks 1 to 7 of Table 3.2: 0, or the status of the first that fails. -/
def State.checksTaken (s : State) (f : Flight) (b : List Nat) : Nat :=
  let zero := bit f.flags 0
  if 8 ≤ f.flags ∨ field b 14 2 ≠ 0 ∨ field b 24 8 ≠ 0 ∨ (if zero then f.len ≠ 0 else f.len < 16 ∨ 16400 < f.len) then 0x10
  else if 192 ≤ f.col ∨ s.nPorts ≤ f.col / 8 then 0x11
  else
    match s.jobOf f.job with
    | none => 0x12
    | some j =>
      if !s.portEnabled (f.col / 8) then 0x13
      else if !j.d.continuous && decide (j.d.lastBand < f.band) then 0x14
      else if j.d.gap f.band then 0x15
      else if s.tooLate f then 0x16
      else 0

/-- R59 holds the descriptor in its ring: its band is too far ahead of its job's reference band, or the store is full. -/
def State.held (s : State) (f : Flight) : Bool :=
  s.storeFull || (match s.jobOf f.job with
    | some j => decide (sdiff 32 f.band j.refBand > (s.get R.BLT_STORE_CFG_RUNAHEAD_BANDS : Int))
    | none => false)

/-- Bytes 0 to LEN − 1 of an assembly are held: the parts reach from 0 on without a gap (R266). -/
def BilAsm.reach (a : BilAsm) : Nat → Nat → Nat
  | 0, at_ => at_
  | fuel + 1, at_ =>
    match a.parts.find? (fun (p : Nat × List Nat) => decide (p.1 ≤ at_ ∧ at_ < p.1 + p.2.length)) with
    | some p => BilAsm.reach a fuel (p.1 + p.2.length)
    | none => at_
def BilAsm.whole (a : BilAsm) : Bool := decide (a.len ≤ a.reach (a.parts.length + 1) 0)

/-- The assembled billet that is next on the UDP path (R266). -/
def State.bilReady (s : State) : Option BilAsm := s.store.bils.find? BilAsm.whole

/-- The descriptor a ring offers, and its billet's bytes where UDP brought them. -/
def State.offered (s : State) (n : Nat) : Option (List Nat × Option BilAsm) :=
  if !s.flag (R.ING_RING_CFG_ENABLE n) then none
  else if n = 3 ∧ s.flag R.MBX_UDP_CFG_INGEST = true then s.bilReady.map (fun (a : BilAsm) => (a.desc, some a))
  else if s.ringWaits n = 0 ∨ s.cqRingFull n = true then none
  else some (s.ringDesc n 0, none)

/-- The ring the next descriptor is taken from, round-robin (R53, R55, R56, R59). -/
def State.nextRing (s : State) : Option Nat :=
  ((List.range 4).map (fun (i : Nat) => (s.store.lastRing + 1 + i) % 4)).find? (fun (n : Nat) =>
    match s.offered n with
    | some (b, _) => !s.held (mkFlight 0 n false b)
    | none => false)

/-- Bytes of an assembly in order. -/
def BilAsm.bytes (a : BilAsm) : List Nat :=
  (List.range a.len).map (fun (i : Nat) =>
    match a.parts.find? (fun (p : Nat × List Nat) => decide (p.1 ≤ i ∧ i < p.1 + p.2.length)) with
    | some p => p.2.getD (i - p.1) 0
    | none => 0)

/-- The billet's bytes are here: check 9, then the compressors or the store (R54, R73, R83, R85). -/
def State.billetRead (s : State) (f : Flight) (bytes : List Nat) : State :=
  if f.noJob then s.flightEnd f.id 0x12 0 0
  else if !headerOk bytes f.len f.col f.band then s.flightEnd f.id 0x19 0 0
  else
    let s := s.onFlight f.id (fun g => { g with bytes := bytes })
    if hdrFlags bytes % 2 = 1 then
      let s := s.onFlight f.id (fun g => { g with phase := 1 })
      ({ s with store := { s.store with cmpWait := s.store.cmpWait ++ [CmpJob.flight f.id 0] } } : State).cmpKick
    else s.flightStored f.id

/-- DESCRIPTOR_TAKE (R53–R56, R59, R68): one descriptor is taken and checked. -/
def State.descTake (s : State) : State :=
  if !(decide (s.mode = .idle ∨ s.mode = .print)) || s.flag R.BLT_STORE_STAT_HOT_HOLD
      || s.acct.parted.any (fun (u : PartedUnit) => u.src == 27) then s
  else
    let s := if (List.range 4).any (fun (n : Nat) => (s.offered n).isSome) then State.reclaim s.store.billets.length s else s
    let s := s.showFull
    match s.nextRing with
    | none => s
    | some n =>
      match s.offered n with
      | none => s
      | some (b, asm) =>
        let f := mkFlight s.store.flightNo n asm.isSome b
        let s := s.addFlight f
        let s := { s with store := { s.store with
          lastRing := n
          bils := match asm with | some a => s.store.bils.erase a | none => s.store.bils
          cur := s.store.cur.map (fun (j : Job) => if j.d.num = f.job then { j with accepted := true } else j)
          next := s.store.next.map (fun (j : Job) => if j.d.num = f.job then { j with accepted := true } else j) } }
        let s := if asm.isSome then s
          else s.put (R.ING_RING_HEAD_HEAD n) ((s.get (R.ING_RING_HEAD_HEAD n) + 1) % s.ringSize n)
        let s := (s.count R.ING_ACCEPTED_COUNT).put R.ING_INFLIGHT_COUNT (s.get R.ING_INFLIGHT_COUNT + 1)
        let st := s.checksTaken f b
        if st ≠ 0 then s.flightEnd f.id st 0 0
        else if bit f.flags 0 then s.flightStored f.id
        else
          match asm with
          | some a => s.billetRead f a.bytes
          | none => s.emit (.hostRead f.addr f.len)
def execDescriptorTake (s : State) : Outc := coreEvent s State.descTake

/-- HOST_READ_DONE (R54): the oldest read ends. -/
def State.readDone (s : State) (ok : Bool) (bytes : List Nat) : State :=
  match s.store.flights.find? (fun (f : Flight) => f.phase == 0 && !f.udp && !bit f.flags 0) with
  | none => s
  | some f =>
    if f.noJob then s.flightEnd f.id 0x12 0 0
    else if !ok then s.flightEnd f.id 0x18 0 0
    else s.billetRead f ((bytes.map (· % 256) ++ List.replicate f.len 0).take f.len)
def execHostReadDone (ok : Bool) (bytes : List Nat) (s : State) : Outc := coreEvent s (fun s => s.readDone ok bytes)

/-- A verify mismatch of a compressor: the second within one second is reported (R84). -/
def State.cmpMismatch (s : State) (k : Nat) : State :=
  let again := s.store.cmpFail.any (fun (e : Nat × Nat) => e.1 == k && decide (s.now < e.2 + 1600000000))
  let s := { s with store := { s.store with cmpFail := (k, s.now) :: s.store.cmpFail.filter (fun (e : Nat × Nat) => e.1 != k) } }
  if again then s.report 26 k 1 else s

/-- COMPRESS_DONE (R81–R85, R212): compressor k ends its billet or piece. -/
def State.compressDone (s : State) (k : Nat) (mismatch : Bool) : State :=
  match s.store.cmp.getD k none with
  | none => s
  | some job =>
    let s := { s with store := { s.store with cmp := modifyNth s.store.cmp k (fun _ => none) } }
    let s := s.count R.BLT_CMP_BILLETS_COUNT
    let s := if mismatch then s.count R.BLT_CMP_VFAIL_COUNT else s
    let grew (o : Option (List Nat)) : Bool := !mismatch && o.isNone
    let s := match job with
      | .flight id depth =>
        match s.store.flights.find? (fun (f : Flight) => f.id == id) with
        | none => s
        | some f =>
          let out := compressBillet 0 f.col f.band depth (payload f.bytes)
          let s := if grew out then s.count R.BLT_CMP_NOSHRINK_COUNT else s
          let s := match (if mismatch then none else out) with
            | some b => s.onFlight id (fun g => { g with bytes := b, store := 2 })
            | none => s.onFlight id (fun g => { g with store := if mismatch then 5 else 1 })
          s.flightStored id
      | .capture cam piece depth =>
        match (s.cport cam).cap with
        | none => s
        | some c =>
          let tile := (c.pieces.getD piece ([], none)).1
          let out := compressBillet 2 cam piece depth tile
          let s := if grew out then s.count R.BLT_CMP_NOSHRINK_COUNT else s
          let b := match (if mismatch then none else out) with
            | some b => b
            | none => mkHeader 3 cam 0 16384 piece tile
          s.onCam cam (fun x => { x with cap := some { c with pieces := modifyNth c.pieces piece (fun e => (e.1, some b)) } })
    let s := if mismatch then s.cmpMismatch k else s
    s.cmpKick
def execCompressDone (k : Nat) (mismatch : Bool) (s : State) : Outc := coreEvent s (fun s => s.compressDone k mismatch)

/-! ## UDP ingest (R266) -/

/-- A BIL datagram discarded without being accepted. -/
def State.bilDrop (s : State) : State := s.bump R.MBX_UDP_STAT_BILDROP

/-- A part joins its assembly, or opens one (R266). -/
def State.bilPart (s : State) (host : Nat) (desc data : List Nat) : State :=
  let off := field desc 0 2
  let key := List.replicate 8 0 ++ desc.drop 8
  let len := field desc 8 2
  let waiting := s.store.bils.length + (s.store.flights.filter (fun (f : Flight) => f.udp)).length
  if s.store.bils.any (fun (a : BilAsm) => a.desc == key && a.host == host) then
    { s with store := { s.store with bils := s.store.bils.map (fun (a : BilAsm) =>
      if a.desc == key && a.host == host && !a.parts.any (fun (p : Nat × List Nat) => p.1 == off)
      then { a with parts := a.parts ++ [(off, data)] } else a) } }
  else if 16 ≤ s.store.bils.length ∨ s.ringSize 3 - 1 ≤ waiting then s.bilDrop
  else { s with store := { s.store with bils := s.store.bils ++ [(⟨host, key, len, [(off, data)], s.now⟩ : BilAsm)] } }

/-- BIL_DATAGRAM (R264, R266). -/
def State.bilIn (s : State) (d : Datagram) : State :=
  let b := d.bytes
  let body := b.drop 16
  let crcOk := field b 12 4 == crc32c (b.take 12 ++ [0, 0, 0, 0] ++ body)
  let good := (field b 0 2 == 0x5547) && (field b 2 1 == 1) && (field b 3 1 == 4) && (field b 6 2 == body.length) && crcOk
    && s.flag R.MBX_UDP_CFG_EN && decide (32 ≤ body.length)
  let inSession := s.flag R.MBX_UDP_SESS_OPEN && (field b 4 2 == s.get R.MBX_UDP_SESS_SESSION)
    && (d.host == s.get R.MBX_UDP_HOST_ADDR) && (d.port == s.get R.MBX_UDP_SESS_PORT)
  let desc := body.take 32
  let data := body.drop 32
  if !good || !inSession then s.bump R.MBX_UDP_STAT_DROP
  else if !s.flag R.MBX_UDP_CFG_INGEST then s.bilDrop
  else if field desc 2 2 ≠ data.length ∨ field desc 4 4 ≠ 0 then s.bump R.MBX_UDP_STAT_DROP
  else s.bilPart d.host desc data
def execBilDatagram (d : Datagram) (s : State) : Outc := coreEvent s (fun s => s.bilIn d)

/-- BIL_TIMEOUT (R266): billets not complete within 1 ms of their first part are discarded, the oldest by one event. -/
def State.bilTimeout (s : State) : State :=
  match s.store.bils.find? (fun (a : BilAsm) => !a.whole) with
  | some a => ({ s with store := { s.store with bils := s.store.bils.erase a } } : State).bilDrop
  | none => s
def execBilTimeout (s : State) : Outc := coreEvent s State.bilTimeout

/-! ## Host-side reset -/

/-- HOST_RESET (R259): only the host-facing state is reset.  Reads in progress end FLUSHED without a record; descriptors
past their read run on, and have no ring to return a record to (log entry 64). -/
def execHostReset (s : State) : Outc :=
  coreEvent s (fun s =>
    let s := s.forEach (List.range 256) (fun s i => s.put (wordFld (0x40106000 + 4 * i)) 0)
    let s := s.forEach (List.range 2) (fun s i => s.put (wordFld (0x40107000 + 4 * i)) 0)
    let s := s.resetFields [R.MBX_CFG_EVT_VEC, R.MBX_CFG_EVT_IRQ, R.MBX_CFG_MIRROR, R.MBX_CQ_MLO_ADDR_LO,
      R.MBX_CQ_MHI_ADDR_HI, R.MBX_CQ_HEAD_HEAD, R.MBX_CQ_TAIL_TAIL]
    let s := s.forEach (List.range 16384) (fun s i => s.put (wordFld (0x40110000 + 4 * i)) 0)
    let s := s.forEach (List.range 4) (fun s n => s.resetFields [R.ING_RING_CFG_ENABLE n, R.ING_RING_CFG_SIZE n,
      R.ING_RING_CFG_VEC n, R.ING_RING_TAIL_TAIL n, R.ING_RING_HEAD_HEAD n, R.ING_RING_CQLO_ADDR_LO n,
      R.ING_RING_CQHI_ADDR_HI n, R.ING_RING_CQDONE_DONE n, R.MBX_INGDB_TAIL n])
    let s := s.put R.MBX_STAT_HOSTRESET 1
    let s := { s with store := { s.store with
      cqPhase := [true, true, true, true], cqIndex := [0, 0, 0, 0],
      flights := s.store.flights.map (fun (f : Flight) => if f.udp then f else { f with quiet := true }) } }
    let s := (s.readsEnd 0x1F).recordsOut
    { s with mbx := { s.mbx with
        phase := true, lost := 0, pcieUp := false, gaps := [], resetPending := some 0,
        cmds := s.mbx.cmds.map (fun (c : Cmd) => if c.ref.transport == .bar then { c with discard := true } else c) } })


end Sys2Proof.Machine
end

