-- ==== Sys2Proof/Machine/JobCmds.lean ====
section
/-! DEFINITION. Job, geometry and skew commands (R40–R42, R60, R62, R63, R274–R278), the overlap table and grain-map
commits (R96, R103, R287). -/

namespace Sys2Proof.Machine

/-! ## Job definition and start -/

/-- Gap ranges of a JOB_DEFINE payload (R274). -/
def jobRanges (p : List Nat) : List (Nat × Nat) :=
  (List.range (field p 2 1)).map (fun (i : Nat) => (field p (16 + 8 * i) 4, field p (20 + 8 * i) 4))

/-- The definition a JOB_DEFINE payload gives. -/
def jobDefOf (p : List Nat) : JobDef := {
  num := field p 0 1, continuous := bit (field p 1 1) 0, lastBand := field p 4 4, period := field p 8 4, gapLen := field p 12 2
  ranges := jobRanges p }

/-- A JOB_DEFINE payload breaks a field rule (R50, R268, R274). -/
def jobBad (p : List Nat) : Bool :=
  let d := jobDefOf p
  decide (d.num = 0 ∨ 4 ≤ field p 1 1 ∨ 24 < field p 2 1) || resv p [(3, 1), (14, 2)]
    || (if d.continuous then d.lastBand != 0 else decide (2 ^ 31 ≤ d.lastBand))
    || (if d.period = 0 then d.gapLen != 0 else decide (d.period ≤ d.gapLen))
    || d.ranges.any (fun (r : Nat × Nat) => r.2 == 0)

/-- Two ranges of bands overlap; band numbers wrap (R50). -/
def rangesMeet (a b : Nat × Nat) : Bool :=
  decide ((b.1 + 2 ^ 32 - a.1) % 2 ^ 32 < a.2 ∨ (a.1 + 2 ^ 32 - b.1) % 2 ^ 32 < b.2)

/-- Some two ranges of a list overlap. -/
def anyMeet : List (Nat × Nat) → Bool
  | [] => false
  | a :: t => t.any (rangesMeet a) || anyMeet t

/-- The gap list is refused (R274). -/
def gapListBad (d : JobDef) : Bool :=
  anyMeet d.ranges || (!d.continuous && d.ranges.any (fun (r : Nat × Nat) => decide (d.lastBand < r.1 + r.2 - 1)))

/-- What a JOB_DEFINE does (R274, R443). -/
def State.defineJob (s : State) (d : JobDef) (next : Bool) : State :=
  let j : Job := ⟨d, 0, false, false⟩
  if next then { s with store := { s.store with next := some j } }
  else
    let s := s.evictLogged (fun (b : Billet) => b.job == d.num && !b.consumed && !d.continuous && decide (d.lastBand < b.band)) 3
    { s with store := { s.store with cur := some j, next := s.store.next.filter (fun (k : Job) => k.d.num != d.num) } }

/-- JOB_DEFINE (R274). -/
def State.cmdJobDefine (s : State) (c : Cmd) : State :=
  let p := s.payloadOf c
  let d := jobDefOf p
  let next := bit (field p 1 1) 1
  if jobBad p then s.finish c stBAD_PARAM
  else if s.mode = .print ∧ (next = false ∨ d.num = s.curJob) then s.finish c stJOB_ACTIVE
  else if gapListBad d then s.finish c stGAP_LIST
  else if next && (match s.store.next with | some j => j.accepted | none => false) then s.finish c stNEXT_HAS_BILLETS
  else
    let s := s.logWindow opJOB_DEFINE p (16 + 8 * field p 2 1)
    (s.defineJob d next).finish c stOK
def execJobDefine (r : SlotRef) (s : State) : Outc := withCmd s r opJOB_DEFINE State.cmdJobDefine

/-- A port is ready for a new run of lines (R16, R275). -/
def Port.fresh (x : Port) (b : Nat) : Port := { x with
  tiles := [], queue := [], committed := [], offs := [], late := [], lateCnt := [], poisCnt := [], passed := 64 * b
  handPl := none, resume := 0, fired := none, bandPend := none, noTemp := 0, resDue := [] }

/-- Line triggering is armed for a run that starts at a band (R126, R275): line index 0, the class of CLASS_SEL (R153). -/
def State.armRun (s : State) (b : Nat) : State :=
  let path := { s.path with
    armed := true, test := none, startBand := b, next := 0, handed := 0, stop := none, stopCause := 0, closed := false, endFloor := 0
    lastFired := none, aborted := false, ports := s.path.ports.map (fun (x : Port) => x.fresh b)
    lanes := List.replicate 32 none, clsAt := [(0, s.get R.FIR_CTRL_CLASS_SEL)], decision := none, normRun := 0, tau := [] }
  let s := { s with path := path, store := { s.store with dec := List.replicate 32 none, retry := [] } }
  let s := (s.put R.FIR_CTRL_PEND 0).put R.SPN_QUEUED_COUNT 0
  s.armLines

/-- Head ports that are not UP start parted (R275): DISABLED where the port is switched off, LINK otherwise. -/
def State.partDown (s : State) : State :=
  s.forEach (s.enabledPorts.filter (fun (p : Nat) => s.get (R.HLK_STAT_STATE p) != 5 && !s.portParted p))
    (fun s p => s.report p p (if s.flag (R.HLK_CTRL_EN p) then 1 else 3))

/-- The current or declared job of a number, closed by an abort or not (R275). -/
def State.jobNamed (s : State) (n : Nat) : Option Job :=
  match s.store.cur.filter (fun (j : Job) => j.d.num == n) with
  | some j => some j
  | none => s.store.next.filter (fun (k : Job) => k.d.num == n)

/-- A job starts (R60, R275, R443): the store, the run of lines, PRINT. -/
def State.startJob (s : State) (n b : Nat) : State :=
  match s.jobNamed n with
  | none => s
  | some j =>
    let cur : Job := { j with refBand := b, closed := false }
    let left := s.store.next.filter (fun (k : Job) => k.d.num != n)
    let other (x : Billet) : Bool := x.job != n && (match left with | some k => x.job != k.d.num | none => true)
    let s := s.evictLogged (fun (x : Billet) => other x && !x.consumed) 2
    let s := { s with store := { s.store with
      cur := some cur, next := left, billets := s.store.billets.filter (fun (x : Billet) => !x.consumed) } }
    let s := ((s.showFull.armRun b).partDown).lineReach s.now true
    s.kick

/-- JOB_START (R275). -/
def State.cmdJobStart (s : State) (c : Cmd) : State :=
  let p := s.payloadOf c
  let n := field p 0 1
  let b := field p 4 4
  if n = 0 ∨ resv p [(1, 3)] = true then s.finish c stBAD_PARAM
  else
    match s.jobNamed n with
    | none => s.finish c stNO_JOB
    | some j =>
      if !j.d.continuous && decide (j.d.lastBand < b) then s.finish c stBAD_PARAM
      else if s.tmin (s.get R.FIR_CTRL_CLASS_SEL) = 0 then s.finish c stNO_WAVEFORM
      else
        let s := s.startJob n b
        let s := s.logAdd 0x07 none 0 ([1, n] ++ List.replicate 6 0 ++ toBytes 8 b)
        ((s.setMode .print mcCOMMAND).kick).finish c stOK
def execJobStart (r : SlotRef) (s : State) : Outc := withCmd s r opJOB_START State.cmdJobStart

/-! ## Stop, abort, purge -/

/-- JOB_STOP (R40, R276).  After an abort it has no effect; after a run that has ended it is refused. -/
def State.cmdJobStop (s : State) (c : Cmd) : State :=
  let p := s.payloadOf c
  let at_ := bit (field p 0 1) 0
  let line := field p 3 5
  if 2 ≤ field p 0 1 ∨ resv p [(1, 2)] = true ∨ (at_ = false ∧ line ≠ 0) then s.finish c stBAD_PARAM
  else if s.mode ≠ .print then
    if s.path.aborted then s.finish c stOK 0 (toBytes 5 (2 ^ 40 - 1) ++ [0, 0, 0]) else s.finish c stWRONG_MODE
  else
    let s := s.stopRequest line mcCOMMAND
    let last := s.path.stop.getD 0
    let s := s.logAdd 0x07 none 0 ([2, s.curJob] ++ List.replicate 6 0 ++ toBytes 8 last)
    s.finish c stOK 0 (toBytes 5 last ++ [0, 0, 0])
def execJobStop (r : SlotRef) (s : State) : Outc := withCmd s r opJOB_STOP State.cmdJobStop

/-- What an abort does on a member (R41, R60): lines discarded, the job's unconsumed billets evicted, its flights in
progress to be returned NO_JOB, its waiting descriptors refused. -/
def State.abortWork (s : State) : State :=
  let n := s.curJob
  let s := s.discardAll.dropSkew
  let s := (s.put R.FIR_CTRL_PEND 0).evictLogged (fun (b : Billet) => b.job == n && !b.consumed) 4
  { s with
    path := { s.path with aborted := true }
    store := { s.store with
      cur := s.store.cur.map (fun (j : Job) => { j with closed := true })
      flights := s.store.flights.map (fun (f : Flight) => if f.job = n ∧ f.phase ≠ 3 then { f with noJob := true } else f) } }

/-- The result of JOB_ABORT: the last line fired, all ones before the first boundary (R126, R276). -/
def State.abortResult (s : State) : List Nat := toBytes 5 (s.path.lastFired.getD (2 ^ 40 - 1)) ++ [0, 0, 0]

/-- JOB_ABORT (R41, R276): FLUSH on every head link, PRINT ends at once. -/
def State.cmdJobAbort (s : State) (c : Cmd) : State :=
  if s.mode ≠ .print then
    if s.path.aborted then s.finish c stOK 0 s.abortResult else s.finish c stWRONG_MODE
  else
    let r := s.abortResult
    let s := s.abortWork
    let s := s.linkCmd ((List.range s.nPorts).filter s.linkUp) 1 3 []
    let s := s.logAdd 0x07 none 0 ([3, s.curJob] ++ List.replicate 14 0)
    (s.setMode .idle mcCOMMAND).finish c stOK 0 r
def execJobAbort (r : SlotRef) (s : State) : Outc := withCmd s r opJOB_ABORT State.cmdJobAbort

/-- What a purge does; answers the number of billets removed (R276). -/
def State.purgeJob (s : State) (n : Nat) : State × Nat :=
  let count := (s.store.billets.filter (fun (b : Billet) => b.job == n)).length
  let s := s.evictLogged (fun (b : Billet) => b.job == n) 3
  ({ s with store := { s.store with
    cur := s.store.cur.filter (fun (j : Job) => j.d.num != n), next := s.store.next.filter (fun (j : Job) => j.d.num != n) } }, count)

/-- JOB_PURGE (R276). -/
def State.cmdJobPurge (s : State) (c : Cmd) : State :=
  let p := s.payloadOf c
  if field p 0 1 = 0 ∨ resv p [(1, 3)] = true then s.finish c stBAD_PARAM
  else
    let s := s.logWindow opJOB_PURGE p 4
    let r := s.purgeJob (field p 0 1)
    r.1.finish c stOK 0 (toBytes 4 r.2)
def execJobPurge (r : SlotRef) (s : State) : Outc := withCmd s r opJOB_PURGE State.cmdJobPurge

/-! ## Geometry -/

/-- A geometry comes into force: billets of ports it disables are evicted unused (R277). -/
def State.putGeometry (s : State) (planes : Nat) (planeOf : List Nat) : State :=
  let s := { s with store := { s.store with planes := planes, planeOf := planeOf } }
  s.evictLogged (fun (b : Billet) => !b.consumed && !s.portEnabled (b.col / 8)) 3

/-- GEOMETRY_SET (R277). -/
def State.cmdGeometrySet (s : State) (c : Cmd) : State :=
  let p := s.payloadOf c
  let planes := field p 0 1
  let planeOf := (p.drop 4).take 24
  let on := planeOf.zipIdx.filter (fun (e : Nat × Nat) => e.1 != 0xFF)
  if planes = 0 ∨ 8 < planes ∨ resv p [(1, 3)] = true then s.finish c stBAD_PARAM
  else if on.any (fun (e : Nat × Nat) => decide (planes ≤ e.1)) then s.finish c stPLANE_RANGE
  else if on.any (fun (e : Nat × Nat) => decide (s.nPorts ≤ e.2)) then s.finish c stABSENT
  else
    let s := s.logWindow opGEOMETRY_SET p 28
    (s.putGeometry planes planeOf).finish c stOK
def execGeometrySet (r : SlotRef) (s : State) : Outc := withCmd s r opGEOMETRY_SET State.cmdGeometrySet

/-! ## Skew -/

/-- A write of BLT_SKEW_p in IDLE (R62). -/
def State.skewPut (s : State) (p v : Nat) : State :=
  if s.mode ≠ .idle ∨ s.nPorts ≤ p then s
  else ((s.put (R.BLT_SKEW_OFFSET p) v).put (R.BLT_SKEW_SUBLINE p) (v / 2 ^ 16)).count R.BLT_SKEW_GEN_GEN

/-- SKEW_WRITE (R62). -/
def execSkewWrite (p v : Nat) (s : State) : Outc :=
  coreEvent s (fun s => s.sealedWrite [(0x40301000 + 4 * p, v)] (fun s => s.skewPut p v))

/-- The refusal of an arming: 0 none, else its number in R63. -/
def State.skewRefusal (s : State) (p off : Nat) : Nat :=
  let cur := s.get (R.BLT_SKEW_OFFSET p)
  if 16384 ≤ off then 1
  else if 64 < off - cur ∨ 64 < cur - off then 2
  else if !s.portEnabled p then 3
  else 0

/-- A skew change is armed for a resolved line (R63). -/
def State.skewArmed (s : State) (p off line : Nat) : State :=
  let s := ((s.put (R.BLT_SKEW_PEND_OFFSET p) off).put (R.BLT_SKEW_AT_LINE p) line).put (R.BLT_SKEW_PEND_ARM p) 1
  (s.addChange line (.skew p off)).kick

/-- ARM takes a 1 in PRINT: refused, or armed and logged with its resolved line (R63, R219). -/
def State.skewArm (s : State) (p off line : Nat) : State :=
  if s.skewRefusal p off ≠ 0 then s.put (R.BLT_SKEW_PEND_REFUSED p) 1
  else
    let line := max line s.firstLine
    (s.skewArmed p off line).logAdd 0x04 (s.effOf line) 0 ([4, 0, 0] ++ toBytes 5 line ++ toBytes 8 (p + off * 2 ^ 8))

/-- A write of BLT_SKEW_PEND_p (R63, Table 3.6). -/
def State.skewPendOpen (s : State) (p v : Nat) : State :=
  if s.nPorts ≤ p ∨ s.mode = .shadow then s
  else
    let armed := s.flag (R.BLT_SKEW_PEND_ARM p)
    let s := if bit v 30 then s.put (R.BLT_SKEW_PEND_REFUSED p) 0 else s
    if armed then s
    else
      let s := s.put (R.BLT_SKEW_PEND_OFFSET p) v
      if bit v 31 && (s.mode == .print) then
        s.skewArm p (s.get (R.BLT_SKEW_PEND_OFFSET p)) (s.get (R.BLT_SKEW_AT_LINE p))
      else s

/-- The same as a decision of its own: its group closes. -/
def State.skewPend (s : State) (p v : Nat) : State := (s.skewPendOpen p v).logClose

/-- SKEW_ARM (R63). -/
def execSkewArm (p v : Nat) (s : State) : Outc := coreEvent s (fun s => s.skewPend p v)

/-- SKEW_SET (R278). -/
def State.cmdSkewSet (s : State) (c : Cmd) : State :=
  let q := s.payloadOf c
  let p := field q 0 1
  let asap := bit (field q 1 1) 0
  let off := field q 4 2
  let sub := field q 6 1
  let line := field q 8 5
  let idle := decide (s.mode = .idle)
  if 24 ≤ p ∨ 2 ≤ field q 1 1 ∨ 64 ≤ sub ∨ resv q [(2, 2), (7, 1), (13, 3)] = true
      ∨ (idle = true ∧ (asap = true ∨ line ≠ 0)) ∨ (asap = true ∧ line ≠ 0) then s.finish c stBAD_PARAM
  else if s.nPorts ≤ p then s.finish c stABSENT
  else if idle then
    if 16384 ≤ off then s.finish c stREFUSED 1
    else
      let v := off + sub * 2 ^ 16
      let s := (s.skewPut p v).logAdd 0x01 none 2 (regwBody [(0x40301000 + 4 * p, v)])
      s.finish c stOK 0 (List.replicate 8 0)
  else if sub ≠ s.get (R.BLT_SKEW_SUBLINE p) then s.finish c stSUBLINE_PRINT
  else if s.flag (R.BLT_SKEW_PEND_ARM p) then s.finish c stSKEW_PENDING
  else
    let k := s.skewRefusal p off
    let s := (s.put (R.BLT_SKEW_PEND_OFFSET p) off).put (R.BLT_SKEW_AT_LINE p) line
    let s := s.skewArm p off (if asap then 0 else line)
    if k ≠ 0 then s.finish c stREFUSED k
    else s.finish c stOK 0 (toBytes 5 (s.get (R.BLT_SKEW_AT_LINE p)) ++ [0, 0, 0])
def execSkewSet (r : SlotRef) (s : State) : Outc := withCmd s r opSKEW_SET State.cmdSkewSet

/-! ## Overlap table -/

/-- A write of SPN_OVL_e (R103): in IDLE only; OVL_DUP where a valid entry is ignored afterwards. -/
def State.ovlPut (s : State) (e v : Nat) : State :=
  if s.mode ≠ .idle ∨ 4096 ≤ e then s
  else
    let s := ((s.put (R.SPN_OVL_NOZ_A e) v).put (R.SPN_OVL_NOZ_B e) (v / 2 ^ (R.SPN_OVL_NOZ_B e).lsb))
    let s := (s.put (R.SPN_OVL_PORT e) (v / 2 ^ (R.SPN_OVL_PORT e).lsb)).put (R.SPN_OVL_VALID e) (v / 2 ^ 31)
    if s.ovlValid.any s.ovlIgnored then s.raise R.SPN_STAT_OVL_DUP srcSPN else s

/-- OVL_WRITE (R103). -/
def execOvlWrite (e v : Nat) (s : State) : Outc :=
  coreEvent s (fun s => s.sealedWrite [(0x40404000 + 4 * e, v)] (fun s => s.ovlPut e v))

/-! ## Grain-map commits -/

/-- A write of GMP_COMMIT (R96, R97): ignored while BUSY. -/
def State.gmpCommit (s : State) (v : Nat) : State :=
  if s.flag R.GMP_CSTAT_BUSY then s
  else
    let s := (s.put R.GMP_COMMIT_COUNT v).put R.GMP_COMMIT_ASAP (v / 2 ^ R.GMP_COMMIT_ASAP.lsb)
    if bit v R.GMP_COMMIT_GO.lsb then
      let n := s.get R.GMP_COMMIT_COUNT
      (s.commitGo (s.changeList (min n 4096)) n (if s.flag R.GMP_COMMIT_ASAP then none else some (s.get R.GMP_COMMIT_AT_LINE))).1.logClose
    else s

/-- COMMIT_GO (R96). -/
def execCommitGo (v : Nat) (s : State) : Outc := coreEvent s (fun s => s.gmpCommit v)

/-- The list of a GRAIN_WRITE goes through the change list and the GMP registers (R287). -/
def State.grainList (s : State) (c : Cmd) (count line : Nat) (asap : Bool) (b : List Nat) : State :=
  let s := s.putBytes 0x42100000 b
  let s := ((s.put R.GMP_COMMIT_COUNT count).put R.GMP_COMMIT_ASAP (b2n asap)).put R.GMP_COMMIT_AT_LINE line
  let recs := s.changeList (min count 4096)
  let refused := s.commitRefusal count recs
  let r := s.commitGo recs count (if asap then none else some line)
  match refused with
  | some (cause, i) => r.1.finish c stREFUSED (cause + i * 2 ^ 8)
  | none => r.1.finish c stOK 0 (toBytes 5 r.2 ++ [0, 0, 0])

/-- GRAIN_WRITE (R287).  A list read by DMA is not part of the model: its bytes are free values (R271). -/
def State.cmdGrainWrite (s : State) (c : Cmd) : State :=
  let p := s.payloadOf c
  let flags := field p 0 1
  let asap := bit flags 0
  let count := field p 2 2
  let line := field p 4 5
  let dma := bit flags 1
  let addr := field p 16 8
  if 4 ≤ flags ∨ resv p [(1, 1), (9, 7)] = true ∨ count = 0 ∨ (dma = false ∧ 14 < count) ∨ (dma = true ∧ (4096 < count ∨ addr % 64 ≠ 0)) then
    s.finish c stBAD_PARAM
  else if s.flag R.GMP_CSTAT_BUSY then s.finish c stCOMMIT_PENDING
  else if dma then
    let r := s.dmaIn addr (16 * count)
    match r.2 with
    | none => r.1.finish c stDMA_ERROR
    | some b => r.1.grainList c count line asap b
  else s.grainList c count line asap ((p.drop 16).take (16 * count))
def execGrainWrite (r : SlotRef) (s : State) : Outc := withCmd s r opGRAIN_WRITE State.cmdGrainWrite

end Sys2Proof.Machine
end

