-- ==== Sys2Proof/Machine/LinkCmds.lean ====
section
/-! DEFINITION. The head links and the health of the heads (chapters 7 and 8): upstream frames, training, lanes, usage; and
the mailbox commands of the Waveforms group with HEAD_MEM_READ. -/

namespace Sys2Proof.Machine

/-! ## Upstream frames -/

/-- STAT_FRAME (R186, R187): a port that is not UP receives none.  The body is the frame's code words (R168). -/
def execStatFrame (p : Nat) (body : List Nat) (s : State) : Outc :=
  coreEvent s (fun s => s.upstream p body (fun s b => s.statIn p b))

/-- RES_FRAME (R159, R186): readings of four bytes. -/
def State.resFrame (s : State) (p : Nat) (body : List Nat) : State :=
  let d := upData body
  s.forEach (List.range (min 64 (field body 10 1))) (fun s i => s.resIn p (field d (4 * i) 2 % 8192) (field d (4 * i + 2) 2))
def execResFrame (p : Nat) (body : List Nat) (s : State) : Outc :=
  coreEvent s (fun s => s.upstream p body (fun s b => (s.upHeader p b).resFrame p b))

/-- ACK_FRAME (R186). -/
def execAckFrame (p : Nat) (body : List Nat) (s : State) : Outc :=
  coreEvent s (fun s => s.upstream p body (fun s b => s.ackIn p b))

/-- MEM_FRAME (R186, R291). -/
def execMemFrame (p : Nat) (body : List Nat) (s : State) : Outc :=
  coreEvent s (fun s => s.upstream p body (fun s b => s.memIn p b))

/-! ## Health -/

/-- TEMP_LOST (R162). -/
def execTempLost (p : Nat) (s : State) : Outc :=
  coreEvent s (fun s => if p < s.nPorts ∧ 64 ≤ (s.port p).noTemp then ((s.raise R.FIR_STAT_TEMP_LOST srcFIR).hotPart p).headCeil else s)

/-- NORMAL_DECISION (R153): 1,024 boundaries in a row have met the condition; the boundary is the last one. -/
def execNormalDecision (s : State) : Outc :=
  coreEvent s (fun s => if 1024 ≤ s.path.normRun ∧ s.heading = 1 ∧ s.mayDecide 0 = true ∧ s.flag R.FIR_CTRL_PEND = false
    then s.classDecide 0 (s.path.next - 1) else s)

/-! ## Loads -/

/-- WAVE_ANSWER_TIMEOUT (R150, R172): 10 ms after its WAVE frames a load fails; with no load waiting for answers, reloads
that wait for one fail. -/
def State.answerTimeout (s : State) : State :=
  match s.load with
  | some w =>
    if w.sent ≠ 0 ∧ w.committing = false then s.loadFail w
    else s.forEach ((List.range s.nPorts).filter (fun (p : Nat) => (s.link p).stage != 0)) State.reloadFail
  | none => s.forEach ((List.range s.nPorts).filter (fun (p : Nat) => (s.link p).stage != 0)) State.reloadFail
def execWaveAnswerTimeout (s : State) : Outc := coreEvent s State.answerTimeout

/-- WAVE_COMMIT_TIMEOUT (R172 step 4). -/
def execWaveCommitTimeout (s : State) : Outc :=
  coreEvent s (fun s => match s.load with
    | some w => if w.committing then s.loadDone w else s
    | none => s)

/-- WAVE_RELOAD_RETRY (R150). -/
def execWaveReloadRetry (p : Nat) (s : State) : Outc :=
  coreEvent s (fun s => if s.linkUp p && (s.link p).stage == 0 && !(s.link p).reload.isEmpty then s.reloadNext p else s)

/-- The registers of a WAVE_STAGE payload with their values (R279, Table 7.7). -/
def State.stageWords (s : State) (p : List Nat) : List (Nat × Nat) :=
  let c := field p 0 1
  let b := field p 1 1
  let wf := (List.range 12).map (fun (i : Nat) =>
    (0x40701000 + 0x100 * c + 0x40 * b + 4 * i, field p (40 + 4 * i) 2 + 2 ^ 16 * field p (42 + 4 * i) 2))
  let off := field p 4 2
  let phase := (if c = 0 then off + 2 ^ 16 * s.get R.FIR_PHASE_OFF_S else s.get R.FIR_PHASE_OFF_N + 2 ^ 16 * off)
    + 2 ^ 28 * s.get R.FIR_PHASE_PSHIFT
  let trim := (List.range 32).map (fun (t : Nat) => (0x40701200 + 0x80 * c + 4 * t, field p (8 + t) 1 % 128))
  if bit (field p 2 1) 0 then wf ++ trim ++ [(0x40700008, phase)] else wf

/-- A field of a WAVE_STAGE payload breaks its range (R268, R279, Table 7.7). -/
def stageBad (p : List Nat) : Bool :=
  let trim := (p.drop 8).take 32
  decide (1 < field p 0 1 ∨ 3 < field p 1 1 ∨ 1 < field p 2 1) || resv p [(3, 1), (6, 2)]
    || (List.range 12).any (fun (i : Nat) => decide (6399 < field p (40 + 4 * i) 2 ∨ 4095 < field p (42 + 4 * i) 2))
    || (if bit (field p 2 1) 0 then decide (4095 < field p 4 2) || trim.any (fun (b : Nat) => decide (signed 8 b < -64 ∨ 63 < signed 8 b))
        else field p 4 2 != 0 || trim.any (· != 0))

/-- A word of the staging registers is written. -/
def State.stageWord (s : State) (e : Nat × Nat) : State :=
  if e.1 = 0x40700008 then (s.put R.FIR_PHASE_OFF_N e.2).put R.FIR_PHASE_OFF_S (e.2 / 2 ^ 16)
  else if 0x40701200 ≤ e.1 then s.put ⟨e.1, 0, 7⟩ e.2
  else (s.put ⟨e.1, 0, 13⟩ e.2).put ⟨e.1, 16, 12⟩ (e.2 / 2 ^ 16)

/-- WAVE_STAGE (R279). -/
def State.cmdWaveStage (s : State) (c : Cmd) : State :=
  let p := s.payloadOf c
  if stageBad p then s.finish c stBAD_PARAM
  else
    let l := s.stageWords p
    let s := s.logAdd 0x01 none 2 (regwBody l)
    (l.foldl State.stageWord s).finish c stOK
def execWaveStage (r : SlotRef) (s : State) : Outc := withCmd s r opWAVE_STAGE State.cmdWaveStage

/-- WAVE_LOAD (R149, R172, R280). -/
def State.cmdWaveLoad (s : State) (c : Cmd) : State :=
  let p := s.payloadOf c
  let cls := field p 0 1
  let named := match s.path.decision with | some (k, _, _) => s.flag R.FIR_CTRL_PEND && k == cls | none => false
  let t := s.staged cls
  if 1 < cls ∨ resv p [(1, 3)] = true then s.finish c stBAD_PARAM
  else if s.load.isSome then s.finish c stBUSY
  else if named then s.finish c stCLASS_PENDING
  else if !t.ok cls then (s.raise R.FIR_STAT_TABLE_BAD srcFIR).finish c stTABLE_BAD
  else ({ (s.startLong c) with load := some (⟨cls, t, false, 0, 0, 0, 0⟩ : WaveLoad) } : State).loadKick
def execWaveLoad (r : SlotRef) (s : State) : Outc := withCmd s r opWAVE_LOAD State.cmdWaveLoad

/-! ## Training and lanes -/

/-- LINK_TRAIN_STEP (R188, R189, Table 8.6).  The body is the identity block in IDENT and CABLE in LATENCY. -/
def State.trainStep (s : State) (p : Nat) (ok : Bool) (body : List Nat) : State :=
  match s.get (R.HLK_STAT_STATE p) with
  | 1 => if ok then s.put (R.HLK_STAT_STATE p) 2 else s.trainFail p 1
  | 2 => if ok then s.put (R.HLK_STAT_STATE p) 3 else s.trainFail p 2
  | 3 => if ok && headIdOk body then (s.headId p body).put (R.HLK_STAT_STATE p) 4 else s.trainFail p 3
  | 4 =>
    if !ok then s.trainFail p 5
    else if 288 < field body 0 2 then s.trainFail p 4
    else ((s.linkReachUp p (field body 0 2)).portQuiet p).loadKick
  | _ => s
def execLinkTrainStep (p : Nat) (ok : Bool) (body : List Nat) (s : State) : Outc :=
  coreEvent s (fun s => if p < s.nPorts then s.trainStep p ok body else s)

/-- TRAIN_RETRY (R188). -/
def execTrainRetry (p : Nat) (s : State) : Outc :=
  coreEvent s (fun s => if p < s.nPorts ∧ s.get (R.HLK_STAT_STATE p) = 6 ∧ s.flag (R.HLK_CTRL_EN p) = true then s.trainStart p else s)

/-- LINK_LOCK_LOST (R190). -/
def execLinkLockLost (p : Nat) (s : State) : Outc := coreEvent s (fun s => s.linkFault p)

/-- LANE_RESTORE (R191): 64 STATs in a row have shown both lanes locked. -/
def execLaneRestore (p : Nat) (s : State) : Outc :=
  coreEvent s (fun s =>
    let l := s.link p
    if s.linkUp p && l.mask != 3 && decide (64 ≤ l.both) && !l.sticky then
      (s.laneSel p 3).onLink p (fun l => { l with backT := some s.now })
    else s)

/-- RETRAIN (R188, Table 8.9): an UP port is parted with cause RETRAIN; the primary sends the command. -/
def State.hlkRetrain (s : State) (p : Nat) : State :=
  if s.linkUp p then
    let s := if s.primary && s.linkSender then
        s.sendCredit p 4 (s.downHeader p (s.link p).cseq 4 0 1 0 ++ cmdBody 7 []) else s
    (s.report p p 5).retrain p
  else if s.flag (R.HLK_CTRL_EN p) && s.mode != .safe then s.retrain p else s
def execHlkRetrain (p : Nat) (s : State) : Outc := coreEvent s (fun s => if p < s.nPorts then s.hlkRetrain p else s)

/-- A write of HLK_CTRL_p (R188, R190, Table 8.9). -/
def State.hlkCtrl (s : State) (p v : Nat) : State :=
  let was := s.flag (R.HLK_CTRL_EN p)
  let s := (s.put (R.HLK_CTRL_EN p) v).put (R.HLK_CTRL_ONE_LANE_OK p) (v / 4)
  let s := if !was && bit v 0 then (if s.mode = .safe then s else s.retrain p)
    else if was && !bit v 0 then (((s.linkForget p).linkOff p).report p p 3).loadKick else s
  if bit v 1 then s.hlkRetrain p else s

/-- HLK_EN_WRITE (R188). -/
def execHlkEnWrite (p v : Nat) (s : State) : Outc := coreEvent s (fun s => if p < s.nPorts then s.hlkCtrl p v else s)

/-! ## Usage -/

/-- USAGE_INC (R193). -/
def execUsageInc (p : Nat) (s : State) : Outc :=
  coreEvent s (fun s =>
    if s.primary && s.linkUp p && s.flag (R.HLK_USTAT_GY5 p) && !s.flag (R.HLK_USTAT_PENDING p) && decide (2 ^ 20 ≤ s.get (R.HLK_UACC_ACC p)) then
      (s.put (R.HLK_UACC_ACC p) (s.get (R.HLK_UACC_ACC p) - 2 ^ 20)).usageSend p 6 false
    else s)

/-- USAGE_TIMEOUT (R193): a lost increment is followed by a read, and repeated at most once. -/
def execUsageTimeout (p : Nat) (s : State) : Outc :=
  coreEvent s (fun s =>
    match (s.link p).usage with
    | some (6, _, again) => (s.usageDone p).usageSend p 5 (!again)
    | some _ => s.usageDone p
    | none => s)

/-! ## Head memory -/

/-- HEAD_MEM_READ (R291). -/
def State.cmdHeadMemRead (s : State) (c : Cmd) : State :=
  let p := s.payloadOf c
  let port := field p 0 1
  let addr := field p 2 2
  let len := field p 4 2
  if c.progress ≠ 0 then s
  else if len = 0 ∨ 240 < len ∨ resv p [(1, 1), (6, 2)] = true ∨ 24 ≤ port then s.finish c stBAD_PARAM
  else if s.nPorts ≤ port then s.finish c stABSENT
  else if s.mode = .shadow then
    if addr + len ≤ 128 then
      s.finish c stOK 0 ((((List.range 32).flatMap (fun (w : Nat) => toBytes 4 (s.get (R.HLK_HMEM_DATA port w)))).drop addr).take len)
    else s.finish c stSTANDBY
  else if !s.linkUp port then s.finish c stHEAD_DOWN
  else
    let mark := 1 + (s.link port).cseq
    let s := (s.linkCmd [port] 2 4 (toBytes 2 addr ++ toBytes 2 len)).logClose
    { s with mbx := { s.mbx with cmds := s.mbx.cmds.map (fun (d : Cmd) => if d.ref == c.ref then { d with progress := mark } else d) } }
def execHeadMemRead (r : SlotRef) (s : State) : Outc := withCmd s r opHEAD_MEM_READ State.cmdHeadMemRead

/-- MEM_READ_TIMEOUT (R291). -/
def execMemReadTimeout (p : Nat) (s : State) : Outc :=
  coreEvent s (fun s =>
    match s.memCmd p with
    | some c => (s.linkTake p (c.progress - 1)).finish c stNO_HEAD_ANSWER
    | none => s)

end Sys2Proof.Machine
end

