-- ==== Sys2Proof/Machine/Motion.lean ====
section
/-! DEFINITION. Motion axes (chapter 19): commands MOVE to AXIS_STOP and PROFILE_TICK to REBASE, DFAULT_INACTIVE. -/

namespace Sys2Proof.Machine

/-- PROFILE_TICK (R405, R408): every axis that runs a profile advances by 1 µs. -/
def execProfileTick (s : State) : Outc := coreEvent s (fun s => s.forEach (List.range 8) State.axTick)

/-- TIME40 against which a START is compared: a standby adds MOT_TOFF (R416). -/
def State.axTime (s : State) : Nat :=
  if s.primary then s.time40 else unsigned 40 ((s.time40 : Int) + signed 32 (s.get R.MOT_TOFF_TOFF))

/-- A logged move whose START is reached starts (R416). -/
def State.axDue (s : State) (n : Nat) : State :=
  match (s.axis n).wait with
  | (t, req) :: rest =>
    if reached40 t s.axTime then (s.onAxis n (fun a => { a with wait := rest })).axDo n req else s
  | [] => s

/-- MOVE_START (R416). -/
def execMoveStart (ax : Nat) (s : State) : Outc := coreEvent s (fun s => if ax < 8 then s.axDue ax else s)

/-- A request as words of the model's own motion record (log entry 40). -/
def AxReq.words (n : Nat) : AxReq → List Nat
  | .move tgt speed acc dec => [1, n, unsigned 32 tgt, speed.floor.toNat, acc.floor.toNat, dec.floor.toNat]
  | .stop hard => [2, n, b2n hard]
  | .home up speed backoff => [3, n, b2n up, speed.floor.toNat, backoff]
  | .group mask tgts speed acc dec => [4, n, mask, speed.floor.toNat, acc.floor.toNat, dec.floor.toNat] ++ tgts.map (unsigned 32)

/-- The request those words spell. -/
def axReqOf : List Nat → Option (Nat × AxReq)
  | 1 :: n :: t :: v :: a :: d :: _ => some (n, .move (signed 32 t) v a d)
  | 2 :: n :: h :: _ => some (n, .stop (h == 1))
  | 3 :: n :: u :: v :: b :: _ => some (n, .home (u == 1) v b)
  | 4 :: n :: m :: v :: a :: d :: l => some (n, .group m (l.map (signed 32)) v a d)
  | _ => none

/-- A request is carried out: at once, or in a pair at START, with its record (R407, R416). -/
def State.axIssue (s : State) (n : Nat) (req : AxReq) : State :=
  if s.logOpen then
    let t := (s.time40 + 32000) % 2 ^ 40
    let w := [t % 2 ^ 32, t / 2 ^ 32] ++ req.words n
    let s := s.onAxis n (fun a => { a with wait := a.wait ++ [(t, req)] })
    s.logAdd 0x01 none 0 (regwBody (w.zipIdx.map (fun (e : Nat × Nat) => (0x41000A00 + 4 * e.2, e.1))))
  else s.axDo n req

/-- An axis of the running sequence in MAINTAIN (R285). -/
def State.axTaken (s : State) (n : Nat) : Bool := s.mode == .maintain && bit s.maint.axes n

/-- SPEED, ACCEL and DECEL of a command with its axis's defaults and limits (R406). -/
def State.axSpeed (s : State) (n v : Nat) : Rat := (min (if v = 0 then s.get (R.MOT_AX_W5_SPEED_DEF n) else v) (s.speedMax n) : Nat)
def State.axAcc (s : State) (n v : Nat) : Rat := ((if v = 0 then s.get (R.MOT_AX_W2_ACC_DEF n) else v : Nat) : Rat)
def State.axDec (s : State) (n v : Nat) : Rat := (min (if v = 0 then s.get (R.MOT_AX_W3_DEC_DEF n) else v) (s.decMax n) : Nat)

/-- The target of a command: a relative one counts from the target in force, or from the position at rest (R406). -/
def State.axTarget (s : State) (n : Nat) (rel : Bool) (t : Int) : Int :=
  if rel then
    (match (s.axis n).run with | .rest => s.axPos n | _ => signed 32 (s.get (R.MOT_AX_TGT_TGT n))) + t
  else t

/-- What refuses a move of one axis: 0, AXIS_LOST, AXIS_FAULT or LIMIT (R406). -/
def State.axRefuse (s : State) (n : Nat) (rel : Bool) (t : Int) : Nat :=
  let lost := s.flag (R.MOT_AX_STAT_LOST n)
  let lo := signed 32 (s.get (R.MOT_AX_LIM_LO_LIM_LO n))
  let hi := signed 32 (s.get (R.MOT_AX_LIM_HI_LIM_HI n))
  if lost && !rel then 0x0140
  else if s.flag (R.MOT_AX_STAT_FAULT n) then 0x0141
  else if !lost && decide (lo < hi ∧ (t < lo ∨ hi < t)) then 0x0142
  else 0

/-- An axis is homing or in a group. -/
def State.axBusy (s : State) (n : Nat) : Bool :=
  (s.axis n).grp || (match (s.axis n).run with | .home _ => true | .homeWait => true | .back => true | .follow _ => true | _ => false)

/-- MOVE (R285, R406, R407). -/
def State.cmdMove (s : State) (c : Cmd) : State :=
  let n := s.arg c 0 1
  let fl := s.arg c 1 1
  if 8 ≤ n ∨ 2 ≤ fl ∨ s.arg c 2 2 ≠ 0 then s.finish c stBAD_PARAM
  else
    let t := s.axTarget n (bit fl 0) (s.argS c 4)
    let bad := s.axRefuse n (bit fl 0) t
    if bad ≠ 0 then s.finish c bad
    else if s.axTaken n || s.axBusy n then s.finish c 0x0143
    else (s.axIssue n (.move t (s.axSpeed n (s.arg c 8 4)) (s.axAcc n (s.arg c 12 4)) (s.axDec n (s.arg c 16 4)))).finish c stOK
def execMove (r : SlotRef) (s : State) : Outc := withCmd s r opMOVE State.cmdMove

/-- MOVE_GROUP (R285, R408). -/
def State.cmdMoveGroup (s : State) (c : Cmd) : State :=
  let mask := s.arg c 0 1
  let fl := s.arg c 1 1
  let m := members 8 mask
  let raw (i : Nat) : Int := s.argS c (16 + 4 * i)
  if mask = 0 ∨ 2 ≤ fl ∨ s.arg c 2 2 ≠ 0 ∨ (List.range 8).any (fun (i : Nat) => !bit mask i && raw i != 0) = true then s.finish c stBAD_PARAM
  else
    let t (i : Nat) : Int := if bit mask i then s.axTarget i (bit fl 0) (raw i) else s.axPos i
    let bad := m.foldl (fun (b : Nat) (i : Nat) => if b = 0 then s.axRefuse i (bit fl 0) (t i) else b) 0
    if bad ≠ 0 then s.finish c bad
    else if m.any (fun (i : Nat) => s.axTaken i || (s.axis i).run != .rest) then s.finish c 0x0143
    else
      let d (i : Nat) : Int := t i - s.axPos i
      let lead := m.foldl (fun (b : Nat) (i : Nat) => if (d b).natAbs < (d i).natAbs then i else b) (m.headD 0)
      (s.axIssue lead (.group mask ((List.range 8).map t) (s.axSpeed lead (s.arg c 4 4)) (s.axAcc lead (s.arg c 8 4))
        (s.axDec lead (s.arg c 12 4)))).finish c stOK
def execMoveGroup (r : SlotRef) (s : State) : Outc := withCmd s r opMOVE_GROUP State.cmdMoveGroup

/-- HOME (R285, R409). -/
def State.cmdHome (s : State) (c : Cmd) : State :=
  let n := s.arg c 0 1
  let fl := s.arg c 1 1
  if 8 ≤ n ∨ 2 ≤ fl ∨ s.arg c 2 2 ≠ 0 then s.finish c stBAD_PARAM
  else if s.flag (R.MOT_AX_STAT_FAULT n) then s.finish c 0x0141
  else if s.axTaken n || (s.axis n).run != .rest then s.finish c 0x0143
  else (s.axIssue n (.home (!bit fl 0) (s.axSpeed n (s.arg c 4 4)) (s.arg c 8 4))).finish c stOK
def execHome (r : SlotRef) (s : State) : Outc := withCmd s r opHOME State.cmdHome

/-- AXIS_STOP (R285, R407): an axis at rest is unaffected. -/
def State.cmdAxisStop (s : State) (c : Cmd) : State :=
  let fl := s.arg c 1 1
  if 2 ≤ fl ∨ s.arg c 2 2 ≠ 0 then s.finish c stBAD_PARAM
  else (s.forEach (members 8 (s.arg c 0 1)) (fun s n => s.axIssue n (.stop (bit fl 0)))).finish c stOK
def execAxisStop (r : SlotRef) (s : State) : Outc := withCmd s r opAXIS_STOP State.cmdAxisStop

/-- The velocity has been at least STALL_MIN for STALL_BLANK ms (R409). -/
def State.stallCounts (s : State) (n : Nat) : Bool := decide (1000 * s.get (R.MOT_AX_W10_STALL_BLANK n) ≤ (s.axis n).fast)

/-- An accepted stall (R409). -/
def State.axStall (s : State) (n : Nat) : State :=
  let s := s.put (R.MOT_AX_STAT_STALL n) 1
  match (s.axis n).run with
  | .home _ =>
    if s.stallCounts n then
      let p := s.get (R.MOT_AX_W8_HOME_POS n)
      let s := (s.put (R.MOT_AX_POS_POS n) p).axFound n
      (s.axRun n (fun a => { a with run := .homeWait, pos := (signed 32 p : Rat), vel := 0 })).axLog n
    else s
  | .homeWait => s
  | .back => s
  | .rest => s
  | _ =>
    if s.flag (R.MOT_AX_W0_STALL_STOP n) && (s.stallCounts n || (s.axis n).grp) then ((s.axFreeze n).axLost n).axLog n else s

/-- The standby's own stall, fault and SSI inputs do not count (R416). -/
def State.axInputs (s : State) : Bool := s.mode != .shadow

/-- STALL_ACCEPT (R409). -/
def execStallAccept (ax : Nat) (s : State) : Outc := coreEvent s (fun s => if ax < 8 && s.axInputs then s.axStall ax else s)

/-- The back-off starts (R409): BACKOFF microsteps at SPEED, away from the stall. -/
def State.axBackoff (s : State) (n : Nat) : State :=
  let a := s.axis n
  match a.run with
  | .homeWait =>
    let g := s.axPos n + (if a.homeUp then -(a.backoff : Int) else (a.backoff : Int))
    let s := s.axStart n g a.speed a.acc a.dec
    let s := s.axRun n (fun a => { a with run := .back })
    if a.backoff = 0 then s.axArrived n else s
  | _ => s

/-- HOME_BACKOFF (R409). -/
def execHomeBackoff (ax : Nat) (s : State) : Outc := coreEvent s (fun s => if ax < 8 then s.axBackoff ax else s)

/-- An accepted driver fault (R411): kind 4, then kind 5. -/
def State.axFault (s : State) (n : Nat) : State :=
  let s := (s.axFreeze n).axRaise (R.MOT_AX_STAT_FAULT n)
  let s := s.axEvent n 4
  let s := if s.flag (R.MOT_AX_STAT_LOST n) then s.axEvent n 5 else s.axLost n
  s.axLog n

/-- DFAULT_ACCEPT (R411). -/
def execDfaultAccept (ax : Nat) (s : State) : Outc := coreEvent s (fun s => if ax < 8 && s.axInputs then s.axFault ax else s)

/-- DFAULT_INACTIVE (R411): FAULT shows DFAULTn. -/
def execDfaultInactive (ax : Nat) (s : State) : Outc :=
  coreEvent s (fun s => if ax < 8 && s.axInputs && s.flag (R.MOT_AX_STAT_FAULT ax) then (s.put (R.MOT_AX_STAT_FAULT ax) 0).axLog ax else s)

/-- Gray code to binary (R412). -/
def grayOf (v : Nat) : Nat := (List.range 32).foldl (fun (a : Nat) (i : Nat) => Nat.xor a (v / 2 ^ (i + 1))) v

/-- The sensor position S (R413). -/
def State.ssiPos (s : State) (n v : Nat) : Int :=
  signed 32 (s.get (R.MOT_AX_W13_SSI_OFF n)) + (v * s.get (R.MOT_AX_W12_SSI_SCALE n) / 65536 : Nat)

/-- An axis compares its position with a good frame, or takes it (R413, R414). -/
def State.axSsi (s : State) (n v : Nat) : State :=
  let p := s.ssiPos n v
  let s := s.put (R.MOT_AX_SSIPOS_S n) (unsigned 32 p)
  if !s.axInputs || (s.axis n).run != .rest then s
  else if (s.axis n).rebase then
    let s := (s.put (R.MOT_AX_POS_POS n) (unsigned 32 p)).axFound n
    (s.onAxis n (fun a => { a with rebase := false, pos := (signed 32 (unsigned 32 p) : Rat) })).axLog n
  else if s.flag (R.MOT_AX_STAT_LOST n) then s
  else if s.get (R.MOT_AX_W14_SSI_TOL n) < (s.axPos n - p).natAbs then
    let s := s.axRaise (R.MOT_AX_STAT_SSI_DEV n)
    (if s.flag (R.MOT_AX_W0_SSI_ACT n) then s.axLost n else s).axLog n
  else s

/-- SSI_FRAME (R412–R414): `ok` says that DATA was high where it must be. -/
def execSsiFrame (k raw : Nat) (ok : Bool) (s : State) : Outc :=
  coreEvent s (fun s =>
    if 4 ≤ k ∨ s.flag (R.MOT_SSI_CFG_EN k) = false then s
    else if !ok then s.bump (R.MOT_SSI_ERR_COUNT k)
    else
      let raw := raw % 2 ^ max 8 (min 32 (s.get (R.MOT_SSI_CFG_BITS k)))
      let v := if s.flag (R.MOT_SSI_CFG_GRAY k) then grayOf raw else raw
      let s := s.put (R.MOT_SSI_DATA_VALUE k) v
      s.forEach ((List.range 8).filter (fun (n : Nat) => s.get (R.MOT_AX_W0_SSI n) == k)) (fun s n => s.axSsi n v))

/-- DRVENn falls (R410). -/
def State.drvFall (s : State) (n : Nat) : State :=
  let s := (s.put (R.MOT_AX_STAT_DRV_ON n) 0).onAxis n (fun a => { a with drvOff := false })
  let s := if s.drives then s.emit (.pin .drvEn n 0) else s
  if s.flag (R.MOT_AX_W0_RETAIN n) then s else s.axLost n

/-- A write of DRV_EN (R410). -/
def State.drvWrite (s : State) (n v : Nat) : State :=
  let old := s.flag (R.MOT_AX_CMD_DRV_EN n)
  let s := s.put (R.MOT_AX_CMD_DRV_EN n) v
  if bit v 0 then
    let s := (s.put (R.MOT_AX_STAT_DRV_ON n) 1).onAxis n (fun a => { a with drvOff := false })
    if s.drives && !old then s.emit (.pin .drvEn n 1) else s
  else if !old then s
  else if (s.axis n).run = .rest then s.drvFall n
  else (s.axStop n (some (s.get (R.MOT_AX_W3_DEC_DEF n) : Rat))).onAxis n (fun a => { a with drvOff := true })

/-- DRV_EN_WRITE (R410); a standby's own writes are ignored (R219). -/
def execDrvEnWrite (ax v : Nat) (s : State) : Outc :=
  coreEvent s (fun s => if ax < 8 && s.axInputs then s.drvWrite ax v else s)

/-- DRVEN_FALL (R410): 1 ms after the last step. -/
def execDrvenFall (ax : Nat) (s : State) : Outc :=
  coreEvent s (fun s => if ax < 8 ∧ (s.axis ax).drvOff = true ∧ (s.axis ax).run = .rest then s.drvFall ax else s)

/-- A write of REBASE (R414). -/
def State.rebaseWrite (s : State) (n : Nat) : State :=
  if (s.axis n).run = .rest ∧ s.get (R.MOT_AX_W0_SSI n) < 4 then s.onAxis n (fun a => { a with rebase := true }) else s

/-- REBASE (R414). -/
def execRebase (ax : Nat) (s : State) : Outc :=
  coreEvent s (fun s => if ax < 8 && s.axInputs then s.rebaseWrite ax else s)

end Sys2Proof.Machine
end

