-- ==== Sys2Proof/Machine/Dram.lean ====
section
/-! DEFINITION. The DRAM controller (chapter 15): commands ALERT_FALL to RELAYOUT.  Kinds of DRAM command in the output record:
1 refresh, 2 ZQCS, 3 precharge-all, 4 scrub read, 5 scrub write-back. -/

namespace Sys2Proof.Machine

/-- A command is issued on a channel and enters its retry buffer (R344). -/
def State.dramIssue (s : State) (c kind : Nat) : State :=
  (s.onChan c (fun x => { x with cmds := ((kind, s.now) :: x.cmds).take 64 })).emit (.dram c kind)

/-- A channel has traffic: it runs and no replay holds it (R342, R344). -/
def State.dramRuns (s : State) (c : Nat) : Bool := decide (c < s.nChans) && s.get (R.DRC_CH_STAT_STATE c) == 2 && !(s.chan c).low

/-- REFRESH (R343). -/
def execRefresh (c : Nat) (s : State) : Outc := coreEvent s (fun s => if s.dramRuns c then s.dramIssue c 1 else s)

/-- ZQCS (R334, R336): on a rank the description states. -/
def execZqcs (c rank : Nat) (s : State) : Outc :=
  coreEvent s (fun s => if s.dramRuns c && decide (rank < field s.dramDesc 5 1) then s.dramIssue c 2 else s)

/-- ALERT_n falls (R344, R345): issue stops; during or within 64 nCK after attempt 3 the channel is parted. -/
def State.alertFall (s : State) (c : Nat) : State :=
  let x := s.chan c
  let s := (s.bump (R.DRC_CH_ALERT_ALERTS c)).raise (R.DRC_CH_STAT_ALERT c) srcDRC
  let near := decide (1 ≤ x.attempt ∧ s.now ≤ x.replayT + 64)
  if near && decide (3 ≤ x.attempt) then
    (s.raise (R.DRC_CH_STAT_REPLAY_FAIL c) srcDRC).report (32 + c) c 2
  else s.onChan c (fun x => { x with low := true, fallT := s.now, attempt := if near then x.attempt + 1 else 1 })

/-- ALERT_FALL (R344). -/
def execAlertFall (c : Nat) (s : State) : Outc :=
  coreEvent s (fun s => if s.dramRuns c then s.alertFall c else s)

/-- ALERT_n has risen (R344): precharge-all to every rank, then the buffered commands of the window in their order. -/
def State.alertRise (s : State) (c : Nat) : State :=
  let x := s.chan c
  let s := s.forEach (List.range (max 1 (field s.dramDesc 5 1))) (fun s _ => s.emit (.dram c 3))
  let again := (x.cmds.filter (fun (e : Nat × Nat) => decide (x.fallT ≤ e.2 + Config.tParAlertOn + 8))).reverse
  let s := again.foldl (fun (s : State) (e : Nat × Nat) => s.emit (.dram c e.1)) s
  (s.onChan c (fun x => { x with low := false, replayT := min s.now (x.fallT + 192) })).bump (R.DRC_CH_ALERT_REPLAYS c)

/-- ALERT_RISE (R344). -/
def execAlertRise (c : Nat) (s : State) : Outc :=
  coreEvent s (fun s => if (s.chan c).low then s.alertRise c else s)

/-- The address and syndrome of a channel's first error are held until CE and UE are clear (R338). -/
def State.holdError (s : State) (c ca sym : Nat) (syn : Nat × Nat × Nat × Nat) : State :=
  if s.flag (R.DRC_CH_STAT_CE c) || s.flag (R.DRC_CH_STAT_UE c) then s
  else ((s.put (R.DRC_CH_ERRADDR_CA c) ca).put (R.DRC_CH_ERRSYN_SYN c)
    (syn.1 + 16 * syn.2.1 + 256 * syn.2.2.1 + 4096 * syn.2.2.2)).put (R.DRC_CH_ERRSYN_SYMBOL c) sym

/-- DA of a channel address (R339). -/
def State.daOf (s : State) (c ca : Nat) : Nat :=
  let g := 256 * 2 ^ s.drc.grain
  (ca / g * s.drc.layout.length + (s.drc.layout.findIdx? (· == c)).getD 0) * g + ca % g

/-- The owner of a unit is told (Table 1.8, R347): a billet is poisoned; a mask line is lost. -/
def State.unitLost (s : State) (da : Nat) : State :=
  (s.store.billets.filter (fun (b : Billet) => decide (b.addr ≤ da ∧ da < b.addr + b.bytes.length))).foldl
    (fun (s : State) (b : Billet) => s.poison b.job b.col b.band) s

/-- One word of a scrubbed unit (R29, R338, R347). -/
def State.scrubWord (s : State) (c ca w : Nat) : State :=
  match eccJudge w with
  | .clean => s
  | .fixed i _ =>
    let s := (s.holdError c ca i (eccSyndrome w)).bump (R.DRC_CH_CNT_CE c)
    s.raise (R.DRC_CH_STAT_CE c) srcDRC
  | .uncorrectable =>
    let s := (s.holdError c ca 0x3F (eccSyndrome w)).bump (R.DRC_CH_CNT_UE c)
    let s := (s.raise (R.DRC_CH_STAT_UE c) srcDRC).unitLost (s.daOf c ca)
    let s := s.onChan c (fun x => { x with ues := (s.now :: x.ues.filter (fun (t : Nat) => decide (s.now < t + 1600000000))) })
    if 16 ≤ (s.chan c).ues.length then s.report (32 + c) c 1 else s

/-- The end of a channel has been scrubbed; a pass ends when every channel of the layout has reached its end (R347). -/
def State.scrubEnd (s : State) (c : Nat) : State :=
  let s := s.onChan c (fun x => { x with scrubbed := true })
  if s.drc.layout.all (fun (d : Nat) => (s.chan d).scrubbed) then
    let s := s.forEach s.drc.layout (fun s d => s.onChan d (fun x => { x with scrubbed := false }))
    s.count R.DRC_SCRUB_PASS_COUNT
  else s

/-- DRAM_SCRUB (R347): `addr` is the channel address of a unit, `words` its four code words as read. -/
def execDramScrub (c addr : Nat) (words : List Nat) (s : State) : Outc :=
  coreEvent s (fun s =>
    let ca := addr / 64 * 64
    if s.flag R.DRC_CTRL_SCRUB_EN && s.dramRuns c && s.drc.layout.contains c && decide (ca < s.get (R.DRC_CH_SIZE_MB c) * 2 ^ 20) then
      let s := s.dramIssue c 4
      let s := (words.take 4).foldl (fun (s : State) (w : Nat) => s.scrubWord c ca w) s
      let s := if (words.take 4).any (fun (w : Nat) => match eccJudge w with | .fixed _ _ => true | _ => false) && s.dramRuns c then s.dramIssue c 5 else s
      if ca + 64 = s.get (R.DRC_CH_SIZE_MB c) * 2 ^ 20 then s.scrubEnd c else s
    else s)

/-- The conditions of a relayout (R341). -/
def State.relayoutOk (s : State) : Bool :=
  s.mode == .idle && s.flag R.DRC_STAT_RELAYOUT_DUE && s.get R.BLT_RESIDENT_COUNT == 0 && s.get R.ING_INFLIGHT_COUNT == 0
    && (List.range 4).all (fun (n : Nat) => !s.flag (R.CAM_CAP_BUSY n))

/-- RELAYOUT (R341). -/
def execRelayout (s : State) : Outc := coreEvent s (fun s => if s.relayoutOk then s.relayoutNow else s)

end Sys2Proof.Machine
end

