-- ==== Sys2Proof/Machine/Spindle.lean ====
section
/-! DEFINITION. The Spindle and the billet engines at work (chapters 1, 4, 5): commands LANE_RENDER_DONE to SRAM_SCRUB. -/

namespace Sys2Proof.Machine

/-! ## Pace (R108, R109) -/

/-- DOWN_PCT as it acts (Table 5.7). -/
def State.paceDown (s : State) : Nat := max 20 (min 60 (s.get R.SPN_PACE_CFG_DOWN_PCT))

/-- A step of VDD_SP may be requested (R109). -/
def State.stepFree (s : State) : Bool := !s.spBusy && decide (64 ≤ s.path.sinceStep)

/-- A line's margin is judged: `tau` is none where no lane rendered it (R108, R109). -/
def State.judgePace (s : State) (tau : Option Nat) : State :=
  let m : Rat := match tau, s.linePeriod with
    | some x, some t => if 0 < t then 100 * (t - (x : Rat)) / t else 0
    | _, _ => 100
  let s := (s.put R.SPN_PACE_MARGIN (min 100 (max 0 m.floor).toNat)).put R.SPN_PACE_TAU (min 0xFFFF (tau.getD 0))
  let top := decide (900 ≤ s.get R.CHK_VSP_TARGET)
  let s := { s with path := { s.path with
    lowRun := if m < 15 ∧ top = true then s.path.lowRun + 1 else 0
    highRun := if (s.paceDown : Rat) ≤ m then s.path.highRun + 1 else 0 } }
  let s := if 4096 ≤ s.path.highRun then s.put R.SPN_PACE_CEIL 0 else s
  if m < 15 ∧ top = false ∧ s.stepFree = true then s.avsRequest 1 (s.get R.CHK_VSP_TARGET + 10) else s

/-- Every lane has rendered its part of a line. -/
def State.lineDone (s : State) (n : Nat) : Bool :=
  s.enabledPorts.all (fun (p : Nat) => !s.renders p n || (match s.qline p n with | some q => q.complete | none => false))

/-- A lane's time for a line is taken (R108). -/
def State.laneTime (s : State) (n tau : Nat) : State :=
  let old := match s.path.tau.find? (fun (e : Nat × Nat × Nat) => e.1 == n && e.2.1 == 0) with | some e => e.2.2 | none => 0
  let t := max old tau
  let rest := s.path.tau.filter (fun (e : Nat × Nat × Nat) => e.1 != n)
  if s.lineDone n then ({ s with path := { s.path with tau := (n, 1, t) :: rest } } : State).judgePace (some t)
  else { s with path := { s.path with tau := (n, 0, t) :: rest } }

/-- A line is handed off: where its margin has not been judged it is now (R108). -/
def State.paceHand (s : State) (n : Nat) : State :=
  let e := s.path.tau.find? (fun (e : Nat × Nat × Nat) => e.1 == n)
  let s := { s with path := { s.path with tau := s.path.tau.filter (fun (e : Nat × Nat × Nat) => decide (n < e.1)) } }
  match e with
  | some (_, 1, _) => s
  | some (_, _, t) => s.judgePace (some t)
  | none => s.judgePace none

/-- PACE_STEP_DOWN (R109): 4,096 lines in a row with margin; never below the floor. -/
def execPaceStepDown (s : State) : Outc :=
  coreEvent s (fun s =>
    if 4096 ≤ s.path.highRun ∧ s.stepFree = true ∧ 700 + 10 * s.spFloor + 10 ≤ s.get R.CHK_VSP_TARGET then
      ({ s with path := { s.path with highRun := 0 } } : State).avsRequest 1 (s.get R.CHK_VSP_TARGET - 10)
    else s)

/-- PACE_LOW (R109): 64 low lines in a row at 0.90 V. -/
def execPaceLow (s : State) : Outc :=
  coreEvent s (fun s => if 64 ≤ s.path.lowRun then (s.raise R.SPN_STAT_PACE_LOW srcSPN).put R.SPN_PACE_CEIL 1 else s)

/-! ## Shadowing and the known-answer test (R110–R112) -/

/-- The logical lane the i-th spare of the pool shadows (R110). -/
def State.shadowOf (s : State) (i : Nat) : Nat := (s.path.shadowPos.getD i 0 + i * (s.nLanes / 2)) % s.nLanes

/-- The spare that shadows a logical lane. -/
def State.spareFor (s : State) (lane : Nat) : Option Nat :=
  if !s.flag R.SPN_CTRL_SPARE_SHADOW then none
  else ((members 34 (s.get R.SPN_POOL_POOL)).take 2).zipIdx.findSome? (fun (e : Nat × Nat) => if s.shadowOf e.2 = lane then some e.1 else none)

/-- A lane's output differs from its shadow's: both are tested before their next line (R110, R111). -/
def State.shadowMiss (s : State) (lane : Nat) : State :=
  match s.spareFor lane with
  | none => s
  | some sp =>
    let ph := s.get (R.SPN_LANEMAP_PHYS lane)
    { s with path := { s.path with katDue := setBit (setBit s.path.katDue ph) sp, misWait := (lane, ph, sp) :: s.path.misWait } }

/-- LANE_RENDER_DONE (R100, R105): the lane's item is rendered; its next begins. -/
def State.laneDone (s : State) (lane tau : Nat) (shadowOk : Bool) : State :=
  match s.path.lanes.getD lane none with
  | none => s
  | some i =>
    let s := { s with path := { s.path with lanes := modifyNth s.path.lanes lane (fun _ => none) } }
    let s := s.forEach i.ports (fun s p => s.partDone p i.line lane)
    let s := s.laneTime i.line tau
    let s := if shadowOk then s else s.shadowMiss lane
    s.renderKick

/-- LANE_RENDER_DONE (R100). -/
def execLaneRenderDone (lane tau : Nat) (shadowOk : Bool) (s : State) : Outc :=
  coreEvent s (fun s => s.laneDone lane tau shadowOk)

/-- SPARE_ROTATE (R110): each spare moves on after 1,024 lines. -/
def execSpareRotate (s : State) : Outc :=
  coreEvent s (fun s =>
    if 1024 ≤ s.path.shadowLines then
      { s with path := { s.path with shadowLines := 0, shadowPos := s.path.shadowPos.map (fun (x : Nat) => (x + 1) % s.nLanes) } }
    else s)

/-- KAT_PERIODIC (R111): the next lane in turn is tested. -/
def execKatPeriodic (s : State) : Outc :=
  coreEvent s (fun s =>
    let per := s.get R.SPN_CTRL_KAT_PERIOD
    if per ≠ 0 ∧ per * 1024 ≤ s.path.katLines then
      let ls := (List.range 34).filter s.lanePresent
      let l := ls.getD (s.path.katTurn % max 1 ls.length) 0
      { s with path := { s.path with katLines := 0, katTurn := (s.path.katTurn + 1) % max 1 ls.length, katDue := setBit s.path.katDue l } }
    else s)

/-- A test of every lane is demanded (R111, Table 5.7). -/
def State.katDemand (s : State) : State :=
  ({ s with path := { s.path with katDue := Nat.lor s.path.katDue s.allLanes, katRun := s.allLanes } } : State).put R.SPN_KAT_BUSY 1

/-- KAT_RUN (R111). -/
def execKatRun (s : State) : Outc := coreEvent s (fun s => s.sealedWrite [(0x40400010, 1)] State.katDemand)

/-- Shadow mismatches with both tests passed, of a lane, within the last second (R112). -/
def State.misRecent (s : State) (l : Nat) : Nat :=
  (s.path.misCmp.filter (fun (e : Nat × Nat) => e.1 == l && decide (s.now < e.2 + 1600000000))).length

/-- A shadow mismatch whose tests are over (R112). -/
def State.misJudge (s : State) (e : Nat × Nat × Nat) : State :=
  if s.bitIn R.SPN_PARTED_PARTED e.2.1 || s.bitIn R.SPN_PARTED_PARTED e.2.2 then s
  else
    let s := s.bump R.SPN_SPARE_MISCMP_COUNT
    let s := { s with path := { s.path with
      misDisc := setBit s.path.misDisc e.1, misCmp := (e.2.1, s.now) :: (e.2.2, s.now) :: s.path.misCmp } }
    s.forEach ([e.2.1, e.2.2].filter (fun (l : Nat) => decide (3 ≤ s.misRecent l))) (fun s l => s.report 24 l 2)

/-- The tests an output mismatch called for are over with no failing lane (R227). -/
def State.unresolved (s : State) : State :=
  let l := s.now :: s.pair.unres.filter (fun (t : Nat) => decide (s.now < t + 1600000000))
  let s := ({ s with pair := { s.pair with judging := false, unres := l } } : State).bump R.TSL_OCRC_CNT_UNRES
  if 3 ≤ l.length then s.desync pcDIVERGE else s

/-- KAT_DONE (R111, R112, R114). -/
def State.katDone (s : State) (l : Nat) (pass : Bool) : State :=
  let s := { s with path := { s.path with katDue := clrBit s.path.katDue l, katRun := clrBit s.path.katRun l } }
  let s := if s.path.katRun = 0 then s.put R.SPN_KAT_BUSY 0 else s
  let s := if pass then
      (if s.bitIn R.SPN_PARTED_PARTED l then { s with path := { s.path with katOk := setBit s.path.katOk l } } else s)
    else
      let s := { s with path := { s.path with katOk := clrBit s.path.katOk l }, pair := { s.pair with judging := false } }
      (((s.put R.SPN_KAT_FAIL 1).put R.SPN_KAT_LAST_FAIL l).bump R.SPN_KAT_FAIL_COUNT).report 24 l 1
  let ended := s.path.misWait.filter (fun (e : Nat × Nat × Nat) => !bit s.path.katDue e.2.1 && !bit s.path.katDue e.2.2)
  let s := { s with path := { s.path with misWait := s.path.misWait.filter (fun (e : Nat × Nat × Nat) => bit s.path.katDue e.2.1 || bit s.path.katDue e.2.2) } }
  let s : State := ended.foldl State.misJudge s
  let s := if s.pair.judging && decide (s.path.katDue = 0) then s.unresolved else s
  s.renderKick

/-- KAT_DONE (R112). -/
def execKatDone (phys : Nat) (pass : Bool) (s : State) : Outc :=
  coreEvent s (fun s => if bit s.path.katDue phys && s.lanePresent phys then s.katDone phys pass else s)

/-! ## Staging and decompression (R16, R67, R70, R87–R90) -/

/-- A DRAM read of a billet has found an uncorrectable word (R67, R338): the event does not say which, so what
DRC_CHc_ERRADDR and ERRSYN hold of it is free. -/
def State.stageBad (s : State) (b : Billet) : State :=
  let c := s.chanOf b.addr
  let s := if s.flag (R.DRC_CH_STAT_CE c) || s.flag (R.DRC_CH_STAT_UE c) then s
    else
      let ca := s.freeVal 40
      let s := s.took
      let syn := s.freeVal 16
      ((s.took.put (R.DRC_CH_ERRADDR_CA c) ca).put (R.DRC_CH_ERRSYN_SYN c) syn).put (R.DRC_CH_ERRSYN_SYMBOL c) 0x3F
  ((s.bump (R.DRC_CH_CNT_UE c)).raise (R.DRC_CH_STAT_UE c) srcDRC).poison b.job b.col b.band

/-- STAGING_DONE (R16, R67). -/
def execStagingDone (col band : Nat) (ok : Bool) (s : State) : Outc :=
  coreEvent s (fun s =>
    match s.billetAt col band with
    | some b =>
      if b.staging = .requested then
        (if ok then s.onBillet b.job col band (fun b => { b with staging := .arrived }) else s.stageBad b).kick
      else s
    | none => s)

/-- A decompressor's work. -/
def State.decJob (s : State) (d : Nat) : Option DecJob := s.store.dec.getD d none

/-- Lines of the tile a decompressor writes are available up to `n`. -/
def State.tileWritten (s : State) (d n : Nat) (j : DecJob) : State :=
  let s := { s with store := { s.store with dec := modifyNth s.store.dec d (fun _ => some { j with written := n }) } }
  s.onPort (j.col / 8) (fun x => { x with tiles := x.tiles.map (fun (t : Tile) =>
    if t.col == j.col && t.band == j.band then { t with written := n } else t) })

/-- TILE_LINE_WRITTEN (R16, R70): the next tile line is available. -/
def execTileLineWritten (d : Nat) (s : State) : Outc :=
  coreEvent s (fun s =>
    match s.decJob d with
    | some j => if j.written < 64 ∧ 256 * (j.written + 1) ≤ j.bytes.length then (s.tileWritten d (j.written + 1) j).kick else s
    | none => s)

/-- A decompressor is free again. -/
def State.decFree (s : State) (d : Nat) : State :=
  { s with store := { s.store with dec := modifyNth s.store.dec d (fun _ => none) } }

/-- The second attempt at a tile is over. -/
def State.retryEnd (s : State) (col band : Nat) : State :=
  { s with store := { s.store with retry := s.store.retry.filter (fun (r : Nat × Nat × Nat) => !(r.1 == col && r.2.1 == band)) } }

/-- DECOMPRESS_DONE (R87, R89, R90). -/
def execDecompressDone (d : Nat) (s : State) : Outc :=
  coreEvent s (fun s =>
    match s.decJob d with
    | some j =>
      if !j.whole then s
      else
        let s := ((s.tileWritten d 64 j).decFree d).count R.BLT_DEC_TILES_COUNT
        let s := match s.firstDec j.col j.band with
          | some first => ((s.retryEnd j.col j.band).bump R.BLT_DEC_DISAGREE_COUNT).report 25 first 1
          | none => s
        s.kick
    | none => s)

/-- Lines of a tile cease to be available (R89, Table 1.8). -/
def State.dropTile (s : State) (col band : Nat) : State :=
  s.onPort (col / 8) (fun x => { x with tiles := x.tiles.filter (fun (t : Tile) => !(t.col == col && t.band == band)) })

/-- Decompressors in service. -/
def State.decsUp (s : State) : Nat := 32 - popcount 32 (s.get R.BLT_DEC_PART_PARTED)

/-- A decompressor stops at a cause of Table 4.5 (R80, R89). -/
def State.decBad (s : State) (d cause pos : Nat) (j : DecJob) : State :=
  let s := if s.flag R.BLT_DEC_ERR_VALID then s else
    let s := ((s.put R.BLT_DEC_ERR_CAUSE cause).put R.BLT_DEC_ERR_DEC d).put R.BLT_DEC_ERR_COLUMN j.col
    ((s.put R.BLT_DEC_ERR_BAND_BAND j.band).put R.BLT_DEC_ERR_POS_BITPOS pos).put R.BLT_DEC_ERR_VALID 1
  let s := (s.decFree d).dropTile j.col j.band
  let s := if (s.firstDec j.col j.band).isSome then
      ((s.retryEnd j.col j.band).poison s.curJob j.col j.band).bump R.BLT_DEC_INVALID_COUNT
    else if s.decsUp ≤ 1 then (s.poison s.curJob j.col j.band).bump R.BLT_DEC_INVALID_COUNT
    else { s with store := { s.store with retry := (j.col, j.band, d) :: s.store.retry } }
  s.kick

/-- DECOMP_INVALID (R89). -/
def execDecompInvalid (d cause pos : Nat) (s : State) : Outc :=
  coreEvent s (fun s => match s.decJob d with | some j => s.decBad d cause pos j | none => s)

/-- DECOMP_DISAGREE (R90): the two copies of a decompressor differ. -/
def execDecompDisagree (d : Nat) (s : State) : Outc :=
  coreEvent s (fun s => if d < 32 ∧ s.bitIn R.BLT_DEC_PART_PARTED d = false then s.report 25 d 2 else s)

/-! ## The scrubber of the on-chip stores (R26, R30, Tables 1.8 and 1.9) -/

/-- A tile-buffer word: port, tile of the port, line and word of 64 nozzles, from the location. -/
def State.scrubTile (s : State) (loc : Nat) : State :=
  s.onPort (loc / 1024 / 24) (fun x => { x with tiles := modifyNth x.tiles (loc / 1024 % 24) (fun t => { t with bad := loc % 1024 :: t.bad }) })

/-- A line-queue word: an uncommitted line is discarded and rendered again, a committed one loses 64 nozzles; the location
gives port, line modulo 64 and word of 64 nozzles. -/
def State.scrubQueue (s : State) (loc : Nat) : State :=
  let p := loc / 8192
  let l := loc / 128 % 64
  match (s.port p).committed.find? (fun (c : CLine) => c.line % 64 == l) with
  | some c =>
    let s := { s with pair := { s.pair with div := s.pair.div.map (fun (e : Nat × Nat) => if e.1 = c.line then (e.1, setBit e.2 p) else e) } }
    s.onC p c.line (fun c => { c with codes := c.codes.zipIdx.map (fun (e : Nat × Nat) => if e.2 / 64 = loc % 128 then 0 else e.1) })
  | none =>
    match (s.port p).queue.find? (fun (q : QLine) => q.line % 64 == l) with
    | some q => (s.shaveOne p q.line).renderKick
    | none => s

/-- A word of the compressed staging: the location gives column + 192 × band. -/
def State.scrubStaged (s : State) (loc : Nat) : State :=
  let col := loc % 192
  let band := loc / 192
  match s.billetAt col band with
  | none => s
  | some b =>
    if b.staging ≠ .arrived then s
    else
      let s := s.onBillet b.job col band (fun b => { b with staging := .no, fails := b.fails + 1 })
      let at_ := s.store.dec.findIdx? (fun (o : Option DecJob) => match o with | some j => j.col == col && j.band == band | none => false)
      let s := match at_ with | some d => (s.decFree d).dropTile col band | none => s
      (if 1 ≤ b.fails then s.poison b.job col band else s).kick

/-- A grain-map word renders as PARKED until it is rewritten (R99). -/
def State.scrubGrain (s : State) (w : Nat) : State :=
  if 65536 ≤ w ∨ s.path.parkWords.contains w = true then s
  else ({ s with path := { s.path with parkWords := w :: s.path.parkWords } } : State).put R.GMP_PARKWORDS_COUNT (s.path.parkWords.length + 1)

/-- A camera-staging word: the image line it holds is flagged; the location gives pipeline and row. -/
def State.scrubCam (s : State) (loc : Nat) : State :=
  s.onCam (loc / 65536 % 4) (fun c => { c with frame := c.frame.map (fun (f : CamFrame) =>
    { f with rows := modifyNth f.rows (loc % 65536) (fun r => { r with flags := setBit r.flags 1 }) }) })

/-- A word the scrubber has read (R26, R29, R30). -/
def State.sramScrub (s : State) (k loc w : Nat) : State :=
  if 7 ≤ k then s
  else
    match eccJudge w with
    | .clean => s
    | .fixed _ _ => s.bump (R.FLT_ECC_CE k)
    | .uncorrectable =>
      let s := s.bump (R.FLT_ECC_UE k)
      match k with
      | 0 => s.scrubTile loc
      | 1 => s.scrubQueue loc
      | 2 => s.scrubStaged loc
      | 4 => s.scrubGrain loc
      | 5 => s.report 48 0 1
      | 6 => s.scrubCam loc
      | _ => s

/-- SRAM_SCRUB (R26).  An uncorrectable table word is chip-level and may meet the latch, so it is an event like any other of
the core logic. -/
def execSramScrub (k loc w : Nat) (s : State) : Outc := coreEvent s (fun s => s.sramScrub k loc w)

end Sys2Proof.Machine
end

