-- ==== Sys2Proof/Machine/RegAccess.lean ====
section
/-! DEFINITION. Register access by address: the access codes and side effects of the register tables (R6, R7, R9), the
computed registers, and REG_READ, REG_WRITE, BLOCK_READ and REGISTER_WRITE (R249, R291, R292, R331). -/

namespace Sys2Proof.Machine

/-! ## Writes -/

/-- The class the staging registers of which PRINT protects (R36, R149). -/
def State.stagingOpen (s : State) (cls : Nat) : Bool :=
  s.mode == .idle || s.mode == .maintain || (s.mode == .print && s.get R.FIR_CTRL_CLASS != cls)

/-- A write to an RW field counts (side-effects columns): `core` is the writing core, if a core writes. -/
def State.gateOpen (s : State) (g : Gate) (is : List Nat) (core : Option Nat) : Bool :=
  let i := is.headD 0
  match g with
  | .always => true
  | .idle => s.mode == .idle
  | .notPrint => s.mode != .print
  | .ringOff => !s.flag (R.ING_RING_CFG_ENABLE i)
  | .skewIdle => !s.flag (R.BLT_SKEW_PEND_ARM i)
  | .gmpFree => !s.flag R.GMP_CSTAT_BUSY
  | .gmpList => !s.flag R.GMP_CSTAT_BUSY && s.mode != .shadow
  | .capFree => !s.flag (R.CAM_CAP_BUSY i)
  | .cmpOff => !s.flag (R.CMP_CTRL_ENABLE i)
  | .camOff => !s.flag (R.CAM_CFG_EN i)
  | .sringOff => !s.flag R.CAM_SRING_CFG_EN
  | .mirrorOff => !s.flag R.MBX_CFG_MIRROR
  | .staging => s.stagingOpen i
  | .stagingN => s.stagingOpen 0
  | .stagingS => s.stagingOpen 1
  | .axisRest => (s.axis i).run == .rest
  | .ssiOff => !s.flag (R.MOT_SSI_CFG_EN i)
  | .ownCore => core == some i
  | .idleCal => s.mode == .idle || s.mode == .calibrate

/-- The base address of a register instance. -/
def RegRow.at_ (r : RegRow) (is : List Nat) : Nat :=
  r.base + ((r.dims.zip is).map (fun (e : (Nat × Nat) × Nat) => e.1.2 * e.2)).foldl (· + ·) 0

/-- Word `w` of a register is written as far as it meets one field (R6); `was` is the state before the write, in which the
side-effects column is judged.  A WO field of a two-word register keeps its words for the action; it reads as 0. -/
def State.fieldWrite (s was : State) (r : RegRow) (is : List Nat) (w v : Nat) (core : Option Nat) (f : RegField) : State :=
  let lo := max f.lsb (32 * w)
  let hi := min (f.lsb + f.width) (32 * w + 32)
  if hi ≤ lo then s
  else
    let fld : Fld := ⟨r.at_ is, f.lsb, f.width⟩
    let pos := lo - f.lsb
    let new := v / 2 ^ (lo - 32 * w) % 2 ^ (hi - lo)
    let old := s.get fld
    let merged := old - old / 2 ^ pos % 2 ^ (hi - lo) * 2 ^ pos + new * 2 ^ pos
    match f.acc with
    | .rw => if was.gateOpen f.gate is core then s.put fld merged else s
    | .wo => if 1 < r.words then s.put fld merged else s
    | .w1s => s.put fld (Nat.lor old (new * 2 ^ pos))
    | .w1c => s.put fld ((members (hi - lo) new).foldl (fun (a i : Nat) => clrBit a (pos + i)) old)
    | .ro => s
    | .rc => s

/-- Every field of a word is written by its access code. -/
def State.rowWrite (s : State) (r : RegRow) (is : List Nat) (w v : Nat) (core : Option Nat) : State :=
  r.fields.foldl (fun (t : State) (f : RegField) => t.fieldWrite s r is w v core f) s

/-- Shadow codes that manual fields govern follow them (R387). -/
def State.manualCodes (s : State) : State :=
  let trim := if s.flag R.CHK_CTRL_TRIM_MAN then (List.range 24).map (fun (p : Nat) => s.get (R.CHK_TRIM_MAN p)) else s.chuck.shadowTrim
  let sense := if s.flag R.CHK_CTRL_SENSE_MAN
    then (List.range 4).flatMap (fun (d : Nat) => [s.get (R.CHK_SENSE_LO d), s.get (R.CHK_SENSE_HI d)]) else s.chuck.shadowSense
  let changed := decide (trim ≠ s.chuck.shadowTrim ∨ sense ≠ s.chuck.shadowSense)
  { s with chuck := { s.chuck with shadowTrim := trim, shadowSense := sense, loadDue := s.chuck.loadDue || changed } }

/-- Class C sources are always chip-level (R364, FLT_CHIP). -/
def State.chipKeep (s : State) (before : Nat) : State :=
  s.put R.FLT_CHIP_CHIP ((List.range 64).foldl (fun (a i : Nat) => if dfltReg R.FLT_CHIP_CHIP.key / 2 ^ i % 2 = 1 then setBit a i else a)
    (if s.mode = .idle then s.get R.FLT_CHIP_CHIP else before))

/-- A write to a register of the HIC that acts by its own transaction (R323–R332); the rest by access codes. -/
def State.hicWrite (s : State) (r : RegRow) (is : List Nat) (w v : Nat) (core : Option Nat) : State :=
  let c := core.getD 0
  let i := is.headD 0
  if r.base = 0x40000000 then s.doorbell c v
  else if r.base = 0x40000140 then s.pendSet c i v
  else if r.base = 0x40000180 then s.pendClr c i v
  else if r.base = 0x40000240 then s.enSet c i v
  else if r.base = 0x40000280 then s.enClr c i v
  else if r.base = 0x40000400 then s.forEach ((members 32 v).map (fun b => 32 * i + b)) (fun s src => s.claim c src)
  else if r.base = 0x40000480 then s.eoi c v
  else if r.base = 0x40002000 then s.routeWrite c i v
  else if r.base = 0x40003000 then s.extWrite c i v
  else
    let s := s.rowWrite r is w v core
    if r.base = 0x4000340C then s.timerRing i else s

/-- A write to a register whose effect is an operation of its block, or by access codes alone.  `core` is the writer, if a
core writes. -/
def State.rowEffect (s : State) (r : RegRow) (is : List Nat) (w v : Nat) (core : Option Nat) : State :=
  let i := is.headD 0
  let b := r.base
  if b < 0x40100000 then s.hicWrite r is w v core
  else if b = 0x40104000 then s.doorbellIn (.bar (v % 64))
  else if b = 0x40104008 then s.cqHead v
  else if b = 0x40104020 then s.ingDoorbell i v
  else if b = 0x40106000 then (s.rowWrite r is w v core).msixTable (i / 4)
  else if b = 0x40200000 then
    (if bit v 31 then s.ringFlush i else s).rowWrite r is w v core
  else if b = 0x40200004 then s.ingDoorbell i v
  else if b = 0x40200018 then s.cqDone i v
  else if b = 0x40301000 then s.skewPut i v
  else if b = 0x40301080 then s.skewPendOpen i v
  else if b = 0x40400010 then
    let s := s.rowWrite r is w v core
    if bit v 0 then s.katDemand else s
  else if b = 0x40404000 then s.ovlPut i v
  else if b = 0x40600000 then 
    let s := s.rowWrite r is w v core
    s.put R.ENC_LATENCY_LAT s.encLatency
  else if b = 0x40600010 then
    let s := s.rowWrite r is w v core
    if w = 1 then s.posSet i (s.get (R.ENC_CH_POS_SET_POS i)) else s
  else if b = 0x40680000 then s.cmpCtrl i v
  else if b = 0x40680008 then s.cmpEnd i v
  else if b = 0x406C0000 then
    let s := s.rowWrite r is w v core
    if (s.cmpOut i).armed && s.get (R.CMP_INDEX_INDEX i) == is.getD 1 0 then
      (s.onCmp i (fun o => { o with reach := none, hard := false, late := false, counted := false })).cmpArm i
    else s
  else if b = 0x40700000 ∨ b = 0x40700028 then (s.rowWrite r is w v core).bandsFollow
  else if b = 0x40800000 then s.hlkCtrl i v
  else if b = 0x40900024 then s.capWrite i v
  else if b = 0x40B01000 ∨ b = 0x40B01004 then
    let old := (s.get R.DRC_CTRL_GRAIN, s.get R.DRC_LAYOUT_MASK_MAX)
    let s := s.rowWrite r is w v core
    if old = (s.get R.DRC_CTRL_GRAIN, s.get R.DRC_LAYOUT_MASK_MAX) then s else s.put R.DRC_STAT_RELAYOUT_DUE 1
  else if b = 0x40C00000 then s.tmbCtrl v
  else if b = 0x40C00004 then s.tmbCfg v
  else if b = 0x40D00018 then (s.rowWrite r is w v core).chipKeep (s.get R.FLT_CHIP_CHIP)
  else if b = 0x40D00038 then
    let s := s.rowWrite r is w v core
    if w = 1 then s.fltClear (s.get R.FLT_CLEAR_CLEAR) else s
  else if b = 0x40E00000 then s.snapWrite v
  else if b = 0x40E00004 then (s.rowWrite r is w v core).drainStart v
  else if b = 0x40F00000 ∨ b = 0x40F00180 ∨ b = 0x40F00200 then (s.rowWrite r is w v core).manualCodes
  else if b = 0x40F00038 then (s.rowWrite r is w v core).hvApply
  else if b = 0x41000058 then
    let s := s.drvWrite i v
    if bit v 1 then s.rebaseWrite i else s
  else if b = 0x42200000 then (if s.mode = .shadow then s else s.gmpCommit v)
  else s.rowWrite r is w v core

/-- A 32-bit write at an address of the map: a hole and an absent resource ignore it (R2, R7). -/
def State.regApply (s : State) (core : Option Nat) (a v : Nat) : State :=
  match findRow (rowsOf a) a with
  | some (r, is, w) => if s.present r.res (is.headD 0) then s.rowEffect r is w v core else s
  | none => s

/-- Registers of the blocks whose writes by cores the pair log carries: ING, BLT, SPN, ENC, CMP, FIR, MOT (R219). -/
def logged (a : Nat) : Bool :=
  decide ((0x40200000 ≤ a ∧ a < 0x40500000) ∨ (0x40600000 ≤ a ∧ a < 0x40800000) ∨ (0x41000000 ≤ a ∧ a < 0x41100000))

/-- BLT_SKEW_PEND_p, logged as a DECIDE record (R219). -/
def skewPendAddr (a : Nat) : Bool := decide (0x40301080 ≤ a ∧ a < 0x403010E0)

/-- What an open core may write inside the HIC (R331). -/
def openHic (core a : Nat) : Bool :=
  match findRow (rowsOf a) a with
  | none => false
  | some (r, is, _) =>
    let i := is.headD 0
    [0x40000000, 0x40000140, 0x40000180, 0x40000240, 0x40000280, 0x40000400, 0x40000480, 0x40002000].contains r.base
      || (r.base == 0x40001840 && i == core)
      || ([0x40003400, 0x40003408, 0x4000340C].contains r.base && decide (14 ≤ i))

/-- A write by a core (R219, R319, R331). -/
def State.coreWrite (s : State) (c a v : Nat) : State :=
  let a := a / 4 * 4
  if !s.coreRuns c then s
  else if s.denied c a .write || (isOpenCore c && decide (0x40000000 ≤ a ∧ a < 0x40100000) && !openHic c a) then s.violation c a .write
  else if logged a then
    if s.mode = .shadow then s
    else if skewPendAddr a then (s.regApply (some c) a v).logClose
    else (s.regApply (some c) a v).logOne 0x01 none (if isOpenCore c then 3 else 2) (regwBody [(a, v)])
  else s.regApply (some c) a v

/-- A write by the host: BAR0 is the MBX block (R249); a locked slot ignores it (R250); BAR2, at 0x2_0000_0000 of the model,
discards it (R262). -/
def State.hostRegWrite (s : State) (a v : Nat) : State :=
  let a := a / 4 * 4
  if 0x200000000 ≤ a then (if a < 0x201000000 then s.put R.MBX_STAT_BAR2_WR 1 else s)
  else if 0x40100000 ≤ a ∧ a < 0x40200000 then
    if a < 0x40104000 && s.bitIn R.MBX_SLOTS_LOCKED ((a - 0x40100000) / 0x100) then s else s.regApply none a v
  else s

/-- REGISTER_WRITE (R6). -/
def execRegisterWrite (w : Writer) (addr v : Nat) (s : State) : Outc :=
  coreEvent s (fun s => match w with
    | .host => s.hostRegWrite addr (v % 2 ^ 32)
    | .core c => s.coreWrite c addr (v % 2 ^ 32))

/-! ## Reads -/

/-- The sources deliverable to a core in word w, of a class (R324). -/
def State.cpend (s : State) (c w : Nat) (fast : Bool) : Nat :=
  (List.range 32).foldl (fun (m b : Nat) =>
    if s.deliverable (32 * w + b) c && s.flag (R.HIC_ROUTE_CLASS (32 * w + b)) == fast then setBit m b else m) 0

/-- The fields of a word as stored; a WO field reads 0 (R6). -/
def State.rowRead (s : State) (r : RegRow) (is : List Nat) (w : Nat) : Nat :=
  r.fields.foldl (fun (a : Nat) (f : RegField) =>
    if f.acc = .wo then a
    else
      let lo := max f.lsb (32 * w)
      let hi := min (f.lsb + f.width) (32 * w + 32)
      if hi ≤ lo then a
      else a + s.get ⟨r.at_ is, f.lsb, f.width⟩ / 2 ^ (lo - f.lsb) % 2 ^ (hi - lo) * 2 ^ (lo - 32 * w)) 0

/-- RC fields of a word clear when it is read (R6). -/
def State.rowClear (s : State) (r : RegRow) (is : List Nat) (w : Nat) : State :=
  r.fields.foldl (fun (s : State) (f : RegField) =>
    if f.acc = .rc ∧ f.lsb / 32 = w then s.put ⟨r.at_ is, f.lsb, f.width⟩ 0 else s) s

/-- Registers that show other state (R4, R31, R134, R324, R349, R350, Table 11.8, Table 18.9). -/
def State.liveRead (s : State) (core a : Nat) : Option Nat :=
  let ptp := s.ptpNow
  let half (v : Nat) (hi : Bool) : Nat := if hi then v / 2 ^ 32 else v % 2 ^ 32
  if a = 0x41100000 then some s.ident
  else if a = 0x4010FF00 then some s.modeWord
  else if a = 0x4010FF08 ∨ a = 0x4010FF0C then some (half s.modeT (a == 0x4010FF0C))
  else if a = 0x40C00020 ∨ a = 0x40C00024 then some (half s.time40 (a == 0x40C00024))
  else if a = 0x40C00028 then some (ptp % 1000000000)
  else if a = 0x40600408 then some (s.ceilNow.1 + s.ceilNow.2 % 2 ^ 5 * 2 ^ R.ENC_CEIL_SRC.lsb)
  else if 0x40F00200 ≤ a ∧ a < 0x40F00210 ∧ s.flag R.CHK_CTRL_SENSE_MAN = false then
    some (s.chuck.outSense.getD (2 * ((a - 0x40F00200) / 4)) 0 + s.chuck.outSense.getD (2 * ((a - 0x40F00200) / 4) + 1) 0 * 2 ^ 16)
  else if a = 0x40000880 then some core
  else if 0x40000800 ≤ a ∧ a < 0x40000880 then
    (if (a - 0x40000800) % 0x40 < 0x30 then some (s.cpend core ((a - 0x40000800) % 0x40 / 4) (decide (0x40000840 ≤ a))) else some 0)
  else if 0x40001000 ≤ a ∧ a < 0x40001600 then
    let o := a - 0x40001000
    if o % 0x100 < 0x80 ∧ o % 0x40 < 0x30 then some (s.cpend (o / 0x100) (o % 0x40 / 4) (decide (0x40 ≤ o % 0x100))) else some 0
  else if 0x42000000 ≤ a ∧ a < 0x42100000 then
    let w := (a - 0x42000000) / 16
    let e := s.grain (3 * w) + s.grain (3 * w + 1) * 2 ^ 40 + s.grain (3 * w + 2) * 2 ^ 80
    some (e / 2 ^ (32 * (a / 4 % 4)) % 2 ^ 32)
  else none

/-- A 32-bit read by a core.  The content of the shared SRAM is not stated: a free value (R318). -/
def State.regRead (s : State) (core a : Nat) : State × Nat :=
  if a < 0x40000000 then (s.took, s.freeVal 32)
  else match s.liveRead core a with
  | some v =>
    -- a read of TMB_PTP_NS latches the seconds (R350)
    if a = 0x40C00028 then
      (s.put R.TMB_PTP_SEC_SEC (if s.tmb.epoch.isSome then s.ptpNow / 1000000000 else 0), v)
    else (s, v)
  | none =>
    match findRow (rowsOf a) a with
    | none => (s, 0)
    | some (r, is, w) =>
      if !s.present r.res (is.headD 0) then (s, 0)
      else
        let v := s.rowRead r is w
        let v := if r.base = 0x40001800 then
            let irq (fast : Bool) : Nat := b2n ((List.range 12).any (fun (w : Nat) => s.cpend (is.headD 0) w fast != 0))
            v + irq false * 4 + irq true * 8
          else if r.base = 0x40104010 then v + b2n (s.flag R.MBX_UDP_SESS_OPEN) * 8 else v
        (s.rowClear r is w, v)

/-- Reads of a list of addresses, in order. -/
def State.regReads (s : State) (core : Nat) : List Nat → State × List Nat
  | [] => (s, [])
  | a :: l =>
    let r := s.regRead core a
    let t := State.regReads r.1 core l
    (t.1, r.2 :: t.2)

/-! ## Commands -/

/-- Addresses REG_READ and BLOCK_READ accept (R292). -/
def readable (a : Nat) : Bool := decide (a % 4 = 0 ∧ ((0x20000000 ≤ a ∧ a < 0x20800000) ∨ (0x40000000 ≤ a ∧ a < 0x43000000)))

/-- Addresses REG_WRITE accepts (R292). -/
def writable (a : Nat) : Bool := decide (a % 4 = 0 ∧ 0x40200000 ≤ a ∧ a < 0x41100000 ∧ ¬(0x40D00000 ≤ a ∧ a < 0x40E00000))

/-- REG_READ (R291). -/
def State.cmdRegRead (s : State) (c : Cmd) : State :=
  let n := field (s.slotBytes c.ref) 4 2 / 4
  let l := (List.range n).map (fun (i : Nat) => s.arg c (4 * i) 4)
  match (List.range n).find? (fun (i : Nat) => !readable (l.getD i 0)) with
  | some i => s.finish c stADDR_DENIED i
  | none =>
    let r := s.regReads c.core l
    r.1.finish c stOK 0 (r.2.flatMap (toBytes 4))
def execRegRead (r : SlotRef) (s : State) : Outc := withCmd s r opREG_READ State.cmdRegRead

/-- REG_WRITE (R219, R292): in list order, as one group. -/
def State.cmdRegWrite (s : State) (c : Cmd) : State :=
  let n := field (s.slotBytes c.ref) 4 2 / 8
  let l := (List.range n).map (fun (i : Nat) => (s.arg c (8 * i) 4, s.arg c (8 * i + 4) 4))
  match (List.range n).find? (fun (i : Nat) => !writable (l.getD i (0, 0)).1) with
  | some i => s.finish c stADDR_DENIED i
  | none =>
    let s := l.foldl (fun (s : State) (e : Nat × Nat) => s.regApply (some c.core) e.1 e.2) s
    let l := l.filter (fun (e : Nat × Nat) => logged e.1 && !skewPendAddr e.1)
    let s := if l.isEmpty then s else s.logAdd 0x01 none 0 (regwBody l)
    s.finish c stOK
def execRegWrite (r : SlotRef) (s : State) : Outc := withCmd s r opREG_WRITE State.cmdRegWrite

/-- BLOCK_READ (R271, R291, R292). -/
def State.cmdBlockRead (s : State) (c : Cmd) : State :=
  let p := s.payloadOf c
  let a := field p 0 4
  let n := field p 4 4
  if n = 0 ∨ 1048576 < n ∨ field p 8 8 % 64 ≠ 0 then s.finish c stBAD_PARAM
  else match (List.range n).find? (fun (i : Nat) => !readable (a + 4 * i)) with
  | some i => s.finish c stADDR_DENIED i
  | none =>
    let r := s.regReads c.core ((List.range n).map (fun (i : Nat) => a + 4 * i))
    let d := r.1.dmaOut (field p 8 8) (r.2.flatMap (toBytes 4))
    d.1.finish c (if d.2 then stOK else stDMA_ERROR)
def execBlockRead (r : SlotRef) (s : State) : Outc := withCmd s r opBLOCK_READ State.cmdBlockRead

end Sys2Proof.Machine
end

