-- ==== Sys2Proof/Machine/TestOps.lean ====
section
/-! DEFINITION. Sweep and spit lines: lines from the test or spit pattern source, paced by the fire timebase (R100, R126,
R283, R401). -/

namespace Sys2Proof.Machine

/-- Ticks between two sweep or spit lines: 100 µs (R283, R401). -/
def testPeriod : Nat := 160000

/-- Codes of a port-line of a spit pattern: steps 1 to 3 of R100 are replaced, the size map applies, silent nozzles and
uncovered parts print 0 (R94, R100, R113). -/
def State.testCodes (s : State) (p cls code : Nat) : List Nat :=
  if code = 0 then List.replicate 8192 0
  else (List.range 8192).map (fun (i : Nat) =>
    if s.laneServed ((8192 * p + i) / 6144) && s.fires (8192 * p + i) then s.sizeMap cls code else 0)

/-- Lines of a resistance sweep before its first request (R401). -/
def State.sweepIdle (s : State) : Nat := max 16 (s.get R.FIR_RES_CFG_IDLE_LINES)

/-- Nozzles whose resistance line k of a sweep requests: 64 in nozzle order, silent ones excluded (R401). -/
def State.sweepRes (s : State) (p k : Nat) : List Nat :=
  if k < s.sweepIdle then []
  else (((List.range 8192).filter (fun (i : Nat) => s.fires (8192 * p + i))).drop (64 * (k - s.sweepIdle))).take 64

/-- A sweep or spit line of a port is handed off: rendered and committed in one (R18, R100). -/
def State.testPort (s : State) (code first p n : Nat) : State :=
  let s := s.bandTake p n
  let seq := s.get R.HLK_SEQ_SEQ
  let cls := s.classOf n
  let band := s.get (R.FIR_HTEMP_BAND p)
  if s.portParted p || decide (n < (s.port p).resume) then
    s.onPort p (fun x => { x with committed := x.committed ++ [⟨n, seq, cls, band, [], 1, false, []⟩] })
  else
    let codes := s.testCodes p cls code
    let c : CLine := ⟨n, seq, cls, band, codes, 0, false, if code = 0 then s.sweepRes p (n - first) else []⟩
    let s := s.noteCodes p codes
    let s := s.onPort p (fun x => { x with committed := x.committed ++ [c] })
    let s := (s.count R.SPN_RENDERS_COUNT).count R.SPN_HANDED_COUNT
    let s := if (s.portLanes p).all s.laneServed then s else s.count R.SPN_UNCOVERED_COUNT
    (s.put R.CNT_COMMITTED_COUNT (s.get R.CNT_COMMITTED_COUNT + 1)).frameOut p c

/-- Line n of the pattern in progress is handed off, if the pattern has it (R22). -/
def State.testHand (s : State) (n : Nat) : State :=
  match s.path.test with
  | none => s
  | some (code, first, stop) =>
    if n < first ∨ stop ≤ n ∨ n < s.path.handed then s
    else
      let s := s.count R.HLK_SEQ_SEQ
      let s := s.forEach s.enabledPorts (fun s p => s.testPort code first p n)
      let s := { s with path := { s.path with handed := n + 1 } }
      if s.pairUp then s.sendOcrc n 0 else s

/-- Line triggering is armed for a sweep or a sequence (R126): no job line renders. -/
def State.testArm (s : State) : State :=
  let s := s.armRun 0
  ({ s with path := { s.path with closed := true, test := some (0, 0, 0) } } : State).partDown

/-- A pattern of n lines begins at the next line: lines 0 to 3 of it are handed off before its first boundary. -/
def State.testBegin (s : State) (code n : Nat) : State :=
  let f := s.path.next
  let s := { s with path := { s.path with test := some (code, f, f + n) } }
  s.forEach [f, f + 1, f + 2, f + 3] State.testHand

/-- Lines of the pattern in progress that have not fired. -/
def State.testLeft (s : State) : Nat := match s.path.test with | some (_, _, stop) => stop - s.path.next | none => 0

end Sys2Proof.Machine
end

