-- ==== Sys2Proof/Machine/Replica.lean ====
section
/-! DEFINITION. The standby's side of the input log and of a join (R219–R224, R239, R242): what each record does, how groups
are taken, what is copied.  RSYNC items have the model's own layout (log entry 48): the spec gives none. -/

namespace Sys2Proof.Machine

/-! ## Maintenance sequences -/

/-- The steps of a MAINT_DEFINE payload (R283). -/
def maintSteps (p : List Nat) : List MaintStep :=
  (List.range (field p 1 1)).map (fun (i : Nat) => ⟨field p (8 + 8 * i) 1, field p (9 + 8 * i) 1, field p (12 + 8 * i) 4⟩)

/-- A sequence replaces an earlier one of its number (R283). -/
def State.maintPut (s : State) (p : List Nat) : State :=
  let n := field p 0 1
  { s with maint := { s.maint with seqs := (n, maintSteps p) :: s.maint.seqs.filter (fun (e : Nat × List MaintStep) => e.1 != n) } }

/-- A sequence begins: its steps, the axes it moves, lines armed (R126, R284, R285). -/
def State.maintBegin (s : State) (steps : List MaintStep) : State :=
  let axes := ((steps.filter (fun (t : MaintStep) => t.op == 1)).map (fun (t : MaintStep) => t.a8)).foldl setBit 0
  let s := s.testArm
  { s with maint := { s.maint with run := some steps, step := 0, ending := none, cams := 0, axes := axes } }

/-- Nothing of a sequence runs any more. -/
def State.maintOff (s : State) : State :=
  ({ s with maint := { s.maint with run := none, ending := none, cams := 0, axes := 0 }
            chuck := { s.chuck with hvReq := none } } : State)

/-! ## Records -/

/-- A register write as the followed member's mode judges it: the gates see the mode the standby follows (R219). -/
def State.asFollowed (s : State) (k : State → State) : State :=
  if s.mode = .shadow then
    let t := k { s with mode := s.follow }
    { t with mode := .shadow }
  else k s

/-- The standby follows its primary into IDLE: what waits comes into force, nothing stays armed (R40, R96). -/
def State.followIdle (s : State) : State :=
  let s := (s.put R.FIR_CTRL_PEND 0).dropSkew.discardAll
  ({ s.maintOff with follow := .idle } : State).grainFlush

/-- A logged command whose effect no register holds: the model's window (log entry 65). -/
def State.windowRec (s : State) (op : Nat) (p : List Nat) : State :=
  if op = opJOB_DEFINE then s.defineJob (jobDefOf p) (bit (field p 1 1) 1)
  else if op = opJOB_PURGE then (s.purgeJob (field p 0 1)).1
  else if op = opGEOMETRY_SET then s.putGeometry (field p 0 1) ((p.drop 4).take 24)
  else if op = opMAINT_DEFINE then s.maintPut p
  else s

/-- A logged motion request waits for its START (R416, log entry 40). -/
def State.motionRec (s : State) (w : List Nat) : State :=
  match w with
  | lo :: hi :: l =>
    match axReqOf l with
    | some (n, req) => s.onAxis n (fun a => { a with wait := a.wait ++ [((lo + hi * 2 ^ 32) % 2 ^ 40, req)] })
    | none => s
  | _ => s

/-- A REGW record (Table 10.4): addresses and values, in order. -/
def State.regwRec (s : State) (l : List (Nat × Nat)) : State :=
  match l with
  | [] => s
  | (a, v) :: rest =>
    let pos := rest.headD (0, 0)
    let n := (a - 0x41000040) / 0x80
    if 0xF0000000 ≤ a then s.windowRec ((a - 0xF0000000) / 0x100) (l.flatMap (fun (e : Nat × Nat) => toBytes 4 e.2))
    else if 0x41000A00 ≤ a ∧ a < 0x41000B00 then s.motionRec (l.map (fun (e : Nat × Nat) => e.2))
    else if 0x41000040 ≤ a ∧ n < 8 ∧ a = 0x41000040 + 0x80 * n ∧ pos.1 = a + 4 then s.axApply n v pos.2
    else s.asFollowed (fun s => l.foldl (fun (s : State) (e : Nat × Nat) => s.regApply (some 0) e.1 e.2) s)

/-- Pairs of two words of a record's body. -/
def pairWords (b : List Nat) : List (Nat × Nat) :=
  (List.range (b.length / 8)).map (fun (i : Nat) => (field b (8 * i) 4, field b (8 * i + 4) 4))

/-- A commit or a verdict of the log: at its boundary, or at once where nothing is armed (R96, R98). -/
def State.grainRec (s : State) (r : LogRec) (k : ChangeKind) : State :=
  match r.eff with
  | some e => if s.path.armed then s.addChange (e + 5) k else (s.addChange 0 k).grainDue 0
  | none => (s.addChange 0 k).grainDue 0

/-- A VERDICT record; entries of zeros fill the record. -/
def State.verdictRec (s : State) (r : LogRec) : State :=
  (pairWords r.body).foldl (fun (s : State) (e : Nat × Nat) =>
    let w := e.1
    let code := bits w 23 21
    if bits w 20 18 = 0 then s
    else
      let s := s.grainRec r (.verdict (bits w 17 0) (bits w 20 18) (b2n (decide (code < 4))))
      if 4 ≤ code then s.bump R.FIR_RES_DEAD_COUNT else s) s

/-- A DECIDE record (Table 10.4): kinds 1 CLASS, 2 BAND, 3 SOURCE, 4 SKEW, 5 ORIGIN. -/
def State.decideRec (s : State) (r : LogRec) : State :=
  let first := field r.body 3 5
  let arg := field r.body 8 8
  match r.body.headD 0 with
  | 1 => s.classChange (arg % 2) first
  | 2 => s.forEach (List.range s.nPorts) (fun s p =>
      let b := arg / 4 ^ p % 4
      if r.eff.isNone then s.put (R.FIR_HTEMP_BAND p) b
      else if b = s.get (R.FIR_HTEMP_BAND p) ∧ (s.port p).bandPend = none then s
      else s.onPort p (fun x => { x with bandPend := some (first, b) }))
  | 3 => s.sourceSwitch (arg / 2 ^ 32) (arg % 2 ^ 32) first s.now
  | 4 =>
    let p := arg % 256
    (s.addChange first (.skew p (arg / 256 % 2 ^ 14))).put (R.BLT_SKEW_PEND_ARM p) 1
  | 5 => { s with line := { s.line with origin := some (arg % 2 ^ 40) } }
  | _ => s

/-- A BILLET record (R56, R69, R224): entered at the slot it names; without room the standby leaves synchronisation. -/
def State.billetRec (s : State) (b : List Nat) : State :=
  let flags := field b 2 1
  let bytes := (b.drop 16).take (if bit flags 0 then 0 else field b 12 2)
  let room := decide (ceilDiv bytes.length 64 * 64 + 16 ≤ s.storeFree)
  if room then
    let s := s.enterBillet (field b 0 1) (field b 1 1) (field b 4 4) (bit flags 0) bytes (64 * field b 8 4)
    (s.count R.ING_ACCEPTED_COUNT).kick
  else s.desync pcSTORE

/-- An EVICT record (Table 10.4); a reason of 0 fills the record. -/
def State.evictRec (s : State) (b : List Nat) : State :=
  (pairWords b).foldl (fun (s : State) (e : Nat × Nat) =>
    if e.2 % 256 = 0 then s else s.evictWhere (fun (x : Billet) => x.addr == 64 * e.1)) s

/-- A WAVE_LOAD of the primary runs, as the tag table shows it. -/
def State.loadFollowed (s : State) : Bool := s.mbx.tags.any (fun (t : TagRec) => t.op == opWAVE_LOAD && t.status == stIN_PROGRESS)

/-- An HCMD record (R219, R237): entries a takeover may have to send again are kept. -/
def State.hcmdRec (s : State) (b : List Nat) : State :=
  let ports := members 24 (field b 0 3)
  let base := field b 3 4
  let data := b.drop 16
  let keep (ftype op owner : Nat) (s : State) : State := s.forEach ports (fun s p =>
    s.onLink p (fun l => { l with queue := l.queue ++ [⟨base, ftype, op, data, true, owner⟩] }))
  if 32 < data.length then
    if s.loadFollowed then
      let w : WaveLoad := { cls := field data 0 1 % 2, tab := tabOf data, committing := false, sent := 0, ok := 0, refused := 0, done := 0 }
      keep 3 0 1 { s with load := some w }
    else s
  else
    match data.headD 0 with
    | 2 => keep 4 2 4 s
    | 3 => if s.loadFollowed then keep 4 3 1 s else s
    | 4 => if s.loadFollowed then keep 4 4 1 s else s
    | _ => s

/-- Queue entries of a procedure go. -/
def State.hcmdDrop (s : State) (owner : Nat) : State :=
  { s with links := s.links.map (fun (l : Link) => { l with queue := l.queue.filter (fun (f : LinkFrame) => f.owner != owner) }) }

/-- A TAG record (R239); the end of a load puts its class into force on the standby too (R150). -/
def State.tagRec (s : State) (b : List Nat) : State :=
  let op := field b 2 2
  let st := field b 4 2
  let s := s.tagRecord (field b 0 2) op st 0 ((b.drop 16).take (field b 6 1))
  if st = stIN_PROGRESS then s
  else if op = opWAVE_LOAD then
    let s := match s.load with
      | some w => if st = stOK then s.classInForce w.cls w.tab else s
      | none => s
    ({ s with load := none } : State).hcmdDrop 1
  else if op = opHEAD_MEM_READ then s.hcmdDrop 4
  else s

/-- A MODE record (Table 10.4). -/
def State.modeRec (s : State) (r : LogRec) : State :=
  let job := field r.body 1 1
  let arg := field r.body 8 8
  match r.body.headD 0 with
  | 1 => ({ s.startJob job arg with follow := .print } : State).kick
  | 2 => ({ s with path := { s.path with stop := some arg, stopCause := mcCOMMAND } } : State).cancelAfter arg
  | 3 => s.abortWork.followIdle
  | 4 => { s with follow := .calibrate }
  | 5 => s.followIdle
  | 6 => match s.maint.seqs.find? (fun (e : Nat × List MaintStep) => e.1 == job) with
    | some e => { s.maintBegin e.2 with follow := .maintain }
    | none => { s with follow := .maintain }
  | 7 => s.followIdle
  | 8 => if r.eff.isNone then s.switchNow else { s with pair := { s.pair with switchAt := some arg } }
  | 9 => (if s.path.armed then s else s.testArm).testBegin job arg
  | _ => s

/-- The standby's line production starts: the path of the copied state, from line J + 5 (R241). -/
def State.joinArm (s : State) (j : Nat) : State :=
  let p := s.path
  let l := s.line
  let src := s.get R.ENC_LINE_CFG_SRC
  let s := if s.follow = .print then s.armRun p.startBand else s.testArm
  let s := { s with
    path := { s.path with
      next := j, handed := j + 5, stop := p.stop, stopCause := p.stopCause, endFloor := p.endFloor
      clsAt := [(0, s.get R.FIR_CTRL_CLASS)], decision := p.decision }
    line := { s.line with trig := j, origin := l.origin, base := l.base, pitch := l.pitch } }
  ((s.put R.ENC_LINE_CFG_SRC src).put R.ENC_LATENCY_LAT (s.put R.ENC_LINE_CFG_SRC src).encLatency).lineReach s.now true

/-- A line number that stands for none: the pair is in IDLE (R222). -/
def noLine : Nat := 2 ^ 40 - 1

/-- A SYNCPT record (R241): the standby sets HLK_SEQ and starts from line J + 5. -/
def State.syncRec (s : State) (b : List Nat) : State :=
  let line := field b 4 5
  let seq := field b 9 5
  if b.headD 0 = 2 then
    let s := { s with pair := { s.pair with alignAt := some (line, seq) } }
    if line = noLine then s.put R.HLK_SEQ_SEQ (seq + 2 ^ 40 - 1)
    else ((s.put R.HLK_SEQ_SEQ (seq + 4)).joinArm line).kick
  else s

/-- A record comes into force (R221, Table 10.4). -/
def State.applyRec (s : State) (r : LogRec) : State :=
  match r.rtype with
  | 1 => s.regwRec (pairWords r.body)
  | 2 => s.grainRec r (.commit ((List.range (field r.body 0 2)).map (fun (i : Nat) => grecOf ((r.body.drop (8 + 16 * i)).take 16))))
  | 3 => s.verdictRec r
  | 4 => s.decideRec r
  | 5 => s.billetRec r.body
  | 6 => s.evictRec r.body
  | 7 => s.modeRec r
  | 8 => s.hcmdRec r.body
  | 9 => s.tagRec r.body
  | 10 => s.syncRec r.body
  | _ => s

/-! ## Copied state -/

/-- Registers of the logged blocks a join copies (R241, log entry 48): the settings and counters, ENC_LINE, and not what belongs
to a member's own lanes, encoder inputs, rings and heads. -/
def copied (a : Nat) : Bool :=
  if 0x40200000 ≤ a ∧ a < 0x40200100 then a % 0x40 == 0 || a % 0x40 == 0x10 || a % 0x40 == 0x14
  else if 0x40400004 ≤ a ∧ a < 0x40400014 then a == 0x4040000C
  else if 0x40400100 ≤ a ∧ a < 0x40400200 then false
  else if 0x40600000 ≤ a ∧ a < 0x40600200 then [0, 0x30, 0x34, 0x38, 0x3C].contains (a % 0x100)
  else if 0x40600214 < a ∧ a < 0x40680000 then
    [0x40600218, 0x4060021C, 0x40600234, 0x40600300, 0x40600304, 0x40600308, 0x40600314, 0x40600400, 0x40600404].contains a
  else if 0x40302000 < a ∧ a < 0x40400000 then false
  else if (R.FIR_HTEMP_TEMP 0).addr ≤ a ∧ a < (R.FIR_HTEMP_TEMP 0).addr + 96 then false
  else logged a && a != R.ING_INFLIGHT_COUNT.addr

/-- A definition as a JOB_DEFINE payload. -/
def JobDef.payload (d : JobDef) (next : Bool) : List Nat :=
  [d.num, b2n d.continuous + 2 * b2n next, d.ranges.length, 0] ++ toBytes 4 d.lastBand ++ toBytes 4 d.period ++ toBytes 2 d.gapLen ++ [0, 0]
    ++ d.ranges.flatMap (fun (e : Nat × Nat) => toBytes 4 e.1 ++ toBytes 4 e.2)

/-- A change that is not in force, as an item. -/
def Change.item (c : Change) : List Nat :=
  let body := match c.kind with
    | .commit l => 0 :: l.flatMap (fun (r : GRec) => toBytes 4 (r.nozzle + r.fmask * 2 ^ 24) ++ toBytes 5 r.value ++ List.replicate 7 0)
    | .verdict g st src => [1, st, src] ++ toBytes 4 g
    | .skew p o => [2, p] ++ toBytes 2 o
    | .cls k => [3, k]
  9 :: toBytes 5 c.line ++ body

/-- The change an item spells, after its first six bytes. -/
def changeOf (b : List Nat) : Option ChangeKind :=
  match b with
  | 0 :: l => some (.commit ((List.range (l.length / 16)).map (fun (i : Nat) => grecOf ((l.drop (16 * i)).take 16))))
  | 1 :: st :: src :: l => some (.verdict (field l 0 4) st src)
  | 2 :: p :: l => some (.skew p (field l 0 2))
  | 3 :: k :: _ => some (.cls k)
  | _ => none

/-- Every item a join copies (R241): the first byte is the kind. -/
def State.rsyncItems (s : State) : List (List Nat) :=
  let regs := s.regs.filterMap (fun (e : Nat × Nat) =>
    if copied (e.1 / 32) then
      some (1 :: toBytes 8 e.1 ++ toBytes 8 (if e.1 = R.ING_ACCEPTED_COUNT.key then e.2 - s.get R.ING_INFLIGHT_COUNT else e.2))
    else none)
  let grain := s.path.gmap.map (fun (e : Nat × Nat) => 2 :: toBytes 4 e.1 ++ toBytes 5 e.2)
  let billets := (s.store.billets.filter (fun (b : Billet) => !b.consumed || s.flag R.TSL_CFG_COPY_REPLAY)).map (fun (b : Billet) =>
    [3, b.job, b.col, b2n b.zero + 8 * b2n b.consumed] ++ toBytes 4 b.band ++ toBytes 4 (b.addr / 64) ++ b.bytes)
  let tags := s.mbx.tags.reverse.map (fun (t : TagRec) => 4 :: toBytes 2 t.tag ++ toBytes 2 t.op ++ toBytes 2 t.status ++ t.result)
  let win (op : Nat) (p : List Nat) : List Nat := 5 :: toBytes 2 op ++ p
  let defs := (s.store.cur.toList.map (fun (j : Job) => win opJOB_DEFINE (j.d.payload false)))
    ++ (s.store.next.toList.map (fun (j : Job) => win opJOB_DEFINE (j.d.payload true)))
    ++ [win opGEOMETRY_SET ([s.store.planes, 0, 0, 0] ++ s.store.planeOf)]
    ++ s.maint.seqs.map (fun (e : Nat × List MaintStep) => win opMAINT_DEFINE ([e.1, e.2.length, 0, 0, 0, 0, 0, 0]
      ++ e.2.flatMap (fun (t : MaintStep) => [t.op, t.a8, 0, 0] ++ toBytes 4 t.a32)))
  let tabs := (List.range 2).filterMap (fun (c : Nat) => (s.path.tab.getD c none).map (fun (t : ClassTab) => 7 :: t.bytes c))
  let p := s.path
  let path := [8, s.mode.code, b2n p.stop.isSome, b2n p.decision.isSome] ++ toBytes 4 p.startBand ++ toBytes 5 (p.stop.getD 0)
    ++ toBytes 5 p.endFloor ++ (match p.decision with | some (c, l, f) => [c, b2n f] ++ toBytes 5 l | none => List.replicate 7 0)
    ++ [b2n s.line.origin.isSome] ++ toBytes 5 (s.line.origin.getD 0) ++ toBytes 5 s.line.base ++ toBytes 8 s.line.pitch
  let words := p.parkWords.map (fun (w : Nat) => 10 :: toBytes 4 w)
  defs ++ regs ++ grain ++ words ++ billets ++ tags ++ tabs ++ [path] ++ p.changes.map Change.item

/-- What a join replaces is emptied before the copy. -/
def State.rsyncClear (s : State) : State :=
  { s with
    regs := s.regs.filter (fun (e : Nat × Nat) => !copied (e.1 / 32))
    path := { s.path with gmap := [], parkWords := [], changes := [] }
    store := { s.store with billets := [], cur := none, next := none }
    maint := { s.maint with seqs := [] }
    mbx := { s.mbx with tags := [] } }

/-- The path item. -/
def State.pathItem (s : State) (b : List Nat) : State :=
  { s with
    follow := Mode.ofCode (field b 0 1)
    path := { s.path with
      stop := if field b 1 1 = 1 then some (field b 7 5) else none
      decision := if field b 2 1 = 1 then some (field b 17 1, field b 19 5, field b 18 1 == 1) else none
      startBand := field b 3 4, endFloor := field b 12 5 }
    line := { s.line with
      origin := if field b 24 1 = 1 then some (field b 25 5) else none
      base := field b 30 5, pitch := field b 35 8 } }

/-- An item comes into force. -/
def State.itemIn (s : State) (item : List Nat) : State :=
  let b := item.drop 1
  match item.headD 0 with
  | 0 => match b with
    | t :: l => s.applyRec ⟨t, false, none, 0, 0, l⟩
    | [] => s
  | 1 => { s with regs := Cells.store dfltReg s.regs (field b 0 8) (field b 8 8) }
  | 2 => { s with path := { s.path with gmap := Cells.store dfltGrain s.path.gmap (field b 0 4) (field b 4 5) } }
  | 3 =>
    let s := s.enterBillet (field b 0 1) (field b 1 1) (field b 3 4) (bit (field b 2 1) 0) (b.drop 11) (64 * field b 7 4)
    if bit (field b 2 1) 3 then s.consume (field b 1 1) (field b 3 4) else s
  | 4 => s.tagRecord (field b 0 2) (field b 2 2) (field b 4 2) 0 (b.drop 6)
  | 5 => s.windowRec (field b 0 2) (b.drop 2)
  | 7 => s.classInForce (field b 0 1 % 2) (tabOf b)
  | 8 => s.pathItem b
  | 9 => match changeOf (b.drop 5) with
    | some k => s.addChange (field b 0 5) k
    | none => s
  | 10 => { s with path := { s.path with parkWords := s.path.parkWords ++ [field b 0 4] } }
  | _ => s

/-! ## The stream -/

/-- The first whole record of a stream and what follows it (Table 10.3). -/
def recordOf (b : List Nat) : Option (LogRec × Nat) :=
  let n := field b 2 2
  if b.length < 16 ∨ n < 16 ∨ b.length < n then none
  else
    let e := field b 4 5
    some (⟨field b 0 1, bit (field b 1 1) 0, if e = 0xFFFFFFFFFF then none else some e, field b 9 1, field b 12 4, (b.take n).drop 16⟩, n)

/-- A record of a complete group: at once, at its boundary, or too late (R221). -/
def State.recordIn (s : State) (r : LogRec) : State :=
  match r.eff with
  | none => s.applyRec r
  | some e =>
    if !s.path.armed then s.applyRec r
    else if e < s.path.next then s.desync pcLATE_RECORD
    else { s with pair := { s.pair with due := s.pair.due ++ [r] } }

/-- The SYNCPT open record of a join (R241). -/
def LogRec.opens (r : LogRec) : Bool := r.rtype == 10 && r.body.headD 0 == 1

/-- A record arrives: its group waits for its last record; from the SYNCPT open of a join until the end of its copy it waits
for the copy; a standby that is neither synchronised nor joining applies none (R221, R242, R244). -/
def State.recordNext (s : State) (r : LogRec) (off : Nat) : State :=
  if s.pair.join = 2 ∧ s.pair.items = [] ∧ r.opens = false then s
  else if s.pair.join = 2 ∨ s.pair.join = 3 then
    { s with pair := { s.pair with items := s.pair.items ++ [(off, 0 :: r.rtype :: r.body)] } }
  else if s.synced = false ∧ s.pair.join < 4 then s
  else
    let g := s.pair.group ++ [r]
    if r.gend then (g.foldl State.recordIn { s with pair := { s.pair with group := [] } })
    else { s with pair := { s.pair with group := g } }

/-- Every whole record of the stream received is taken. -/
def State.recordsIn : Nat → State → State
  | 0, s => s
  | fuel + 1, s =>
    match recordOf s.pair.rx with
    | none => s
    | some (r, n) =>
      let off := (s.get R.TSL_LOG_RX_OFF + 2 ^ 32 - s.pair.rx.length) % 2 ^ 32
      State.recordsIn fuel (({ s with pair := { s.pair with rx := s.pair.rx.drop n } } : State).recordNext r off)

/-- Records due at boundary j come into force (R221, step 3 of R22). -/
def State.recordsDue (s : State) (j : Nat) : State :=
  let now := s.pair.due.filter (fun (r : LogRec) => decide (r.eff.getD 0 ≤ j))
  let s := { s with pair := { s.pair with due := s.pair.due.filter (fun (r : LogRec) => decide (j < r.eff.getD 0)) } }
  now.foldl State.applyRec s

/-- The copy is complete: items and records come into force in the order of their offsets, an item before the records that
follow the offset it was read at (R242). -/
def State.copyDone (s : State) : State :=
  let base := match s.pair.items with | (o, _) :: _ => o | [] => 0
  let key (e : Nat × List Nat) : Int := sdiff 32 e.1 base
  let isRec (e : Nat × List Nat) : Bool := e.2.headD 0 == 0
  let ins (e : Nat × List Nat) (l : List (Nat × List Nat)) : List (Nat × List Nat) :=
    l.takeWhile (fun (f : Nat × List Nat) => decide (key f < key e) || (decide (key f = key e) && (!isRec f || isRec e)))
      ++ e :: l.dropWhile (fun (f : Nat × List Nat) => decide (key f < key e) || (decide (key f = key e) && (!isRec f || isRec e)))
  let l := s.pair.items.foldl (fun (l : List (Nat × List Nat)) (e : Nat × List Nat) => ins e l) []
  let s := { s.rsyncClear with pair := { s.pair with items := [] } }
  l.foldl (fun (s : State) (e : Nat × List Nat) => s.itemIn e.2) s

end Sys2Proof.Machine
end

