-- ==== Sys2Proof/Machine/Boundary.lean ====
section
/-! DEFINITION. The line boundary (R22): fire, hand off, bring changes into force, open the next render deadline, and
everything else the spec ties to a boundary; LINE_BOUNDARY, SWEEP_LINE and SPIT_LINE. -/

namespace Sys2Proof.Machine

/-- Line n of a job is handed off, its pace is judged, and after the last line nothing more renders (R18, R40, R109). -/
def State.jobHand (s : State) (n : Nat) : State :=
  if s.path.closed || decide (n < s.path.handed) then s
  else
    match s.lastLine with
    | some l => if l < n then s.closeRun n else ((s.handOff n).paceHand n).closeRun n
    | none => (s.handOff n).paceHand n

/-- Before boundary 0 of a job the deadlines of its first five lines pass and lines 0 to 3 are handed off (R17, R18). -/
def State.jobLead (s : State) : State :=
  if s.path.next = 0 ∧ s.path.handed = 0 then
    let s := s.forEach [0, 1, 2, 3, 4] State.deadline
    s.forEach [0, 1, 2, 3] State.jobHand
  else s

/-- The reference band of the running job follows the least-advanced render cursor (R443). -/
def State.refNow (s : State) : State :=
  if s.path.closed || s.path.test.isSome || s.enabledPorts.isEmpty then s
  else
    let c := s.cursorLine
    let off := (s.enabledPorts.map (fun (p : Nat) => s.offsetAt p c)).foldl max 0
    let b := if c < off then s.path.startBand else s.path.startBand + (c - off) / 64
    { s with store := { s.store with cur := s.store.cur.map (fun (j : Job) =>
        { j with refBand := if j.d.continuous then wrapBand b else b }) } }

/-- A standby that has left synchronisation stops at its boundary; a switchover named for it happens (R45, R244, R245). -/
def State.pairBegin (s : State) (j : Nat) : State :=
  let s := { s with pair := { s.pair with quiet := false } }
  if s.pair.switchAt = some j then s.switchNow else s

/-- VERIFY has succeeded: SYNCED from this boundary (R241, R244). -/
def State.syncNow (s : State) : State :=
  if (s.pair.join = 5 ∧ 64 ≤ s.pair.verified) ∨ s.pair.syncDue = true then
    let s := { s with synced := true, pair := { s.pair with syncDue := false } }
    let s := s.setClaim (2 * (s.get R.TSL_PEER_CLAIM_CLAIM / 2))
    let s := (s.joinPhase 0).put R.TSL_JOIN_SEQ_SEQ s.nextSeq
    let s := (s.bump R.TSL_EVTCNT_JOINS).pairEvent 5 0 s.nextSeq
    s.finishLong opPAIR_JOIN stOK
  else s

/-- A snapshot named for this boundary is frozen after steps 1 and 2 (R373); so is the new primary's (R232). -/
def State.snapNow (s : State) (j : Nat) : State :=
  let s := match s.acct.snapAt with
    | some none => s.freeze false
    | some (some l) => if reached40 l j then s.freeze false else s
    | none => s
  if s.pair.takeDue then s.takeNotice else s

/-- Lanes whose shadow mismatch found no faulty lane: the ports they cover render again (R112). -/
def State.misNow (s : State) (j : Nat) : State :=
  let m := s.path.misDisc
  s.forEach (members 34 m) (fun s k =>
    ({ s with path := { s.path with misDisc := clrBit s.path.misDisc k } } : State).laneDiscard k (j + 5))

/-- Counts of lines: temperature reports, spare shadows, periodic tests, pace, over-speed (R109–R111, R134, R162). -/
def State.lineCounts (s : State) (over0 : Nat) : State :=
  let s := s.forEach (List.range s.nPorts) (fun s p =>
    if s.linkUp p && s.portEnabled p && !s.portParted p then s.onPort p (fun x => { x with noTemp := x.noTemp + 1 }) else s)
  let speeding := if s.get R.FIR_OVERSPEED_LINES_COUNT = over0 then s.line.speeding.map (· + 1) else s.line.speeding
  { s with
    line := { s.line with speeding := speeding }
    path := { s.path with
      shadowLines := s.path.shadowLines + 1, katLines := s.path.katLines + 1, sinceStep := s.path.sinceStep + 1 } }

/-- The run ends after the markers of its last line (R40, R42). -/
def State.runEnd (s : State) (j : Nat) : State :=
  match (if s.path.test.isSome then none else s.lastLine) with
  | none => s
  | some l =>
    if j < l then s
    else
      let cause := match s.path.stop with | some a => if a ≤ j then s.path.stopCause else mcJOB_END | none => mcJOB_END
      let s := (s.put R.FIR_CTRL_PEND 0).dropSkew.discardAll
      if s.mode = .shadow then s.followIdle else s.setMode .idle cause

/-- Boundary j (R22): `hand` hands a line off. -/
def State.boundary (s : State) (a : FireAt) (hand : State → Nat → State) : State :=
  let j := a.line
  let over0 := s.get R.FIR_OVERSPEED_LINES_COUNT
  let s := s.pairBegin j
  -- step 1
  let s := (s.fireLine a).classFires j (s.classOf j)
  let s := ({ s with path := { s.path with next := j + 1 } } : State).ring srcTICK
  let s := s.syncNow
  -- step 2
  let s := hand s (j + 4)
  let pos := s.posOf s.lineSrc
  let s := { s with pair := { s.pair with posB := pos, posAt := ((j, pos) :: s.pair.posAt).take 64 } }
  let s := s.snapNow j
  -- step 3
  let s := (s.recordsDue j).changesDue j
  let s := (s.misNow j).substitute (j + 5)
  let s := s.strobe
  -- step 4
  let s := if s.path.test.isSome then s else s.deadline (j + 5)
  let s := ((s.lineCounts over0).headCeil.refNow).runEnd j
  let s := if s.path.armed then (s.classRule j).bandRule j else s
  s.hbSend.appendKick.kick

/-- LINE_BOUNDARY (R22): the oldest line that has triggered; `txLate` names the ports whose LINE frame is incomplete at its
marker (R175). -/
def execLineBoundary (txLate : Nat) (s : State) : Outc :=
  coreEvent s (fun s =>
    match s.line.due with
    | [] => s
    | d :: _ =>
      if !s.encArmed then s
      else
        let last := s.line.lastB
        let r := s.jobLead.boundaryTime d
        r.1.boundary ⟨d.line, r.2, last.map (fun (b : Nat) => r.2 - b), d.backlog, txLate⟩ State.jobHand)

/-- A sweep or spit line fires, one period after the last (R283, R401). -/
def State.testLine (s : State) : State :=
  if s.testLeft = 0 then s
  else
    let t := match s.line.lastB with | some b => b + testPeriod | none => s.now
    let gap := s.line.lastB.map (fun (_ : Nat) => testPeriod)
    let j := s.path.next
    let s := (s.put R.ENC_LINE_INDEX j).put R.ENC_LINE_GAP_T (match gap with | some g => g | none => 0xFFFFFF)
    ({ s with line := { s.line with lastB := some t } } : State).boundary ⟨j, t, gap, false, 0⟩ State.testHand

/-- A pattern is a resistance sweep. -/
def State.sweeping (s : State) : Bool := match s.path.test with | some (0, _, _) => true | _ => false

/-- SWEEP_LINE (R401): a blank line of the resistance baseline. -/
def execSweepLine (s : State) : Outc := coreEvent s (fun s => if s.sweeping then s.testLine else s)

/-- SPIT_LINE (R283): a line of the spit pattern of the step in progress. -/
def execSpitLine (s : State) : Outc := coreEvent s (fun s => if s.sweeping then s else s.testLine)

end Sys2Proof.Machine
end

