-- ==== Sys2Proof/Machine/Calibrate.lean ====
section
/-! DEFINITION. Calibration (R281, R282, R397, R398, R401): CAL_START to CAL_STATUS, the sweeps and the commit. -/

namespace Sys2Proof.Machine

/-- The run changed. -/
def State.onCal (s : State) (f : CalRun → CalRun) : State := { s with calRun := s.calRun.map f }

/-- The generation a sweep will commit (R397). -/
def State.calGen (s : State) : Nat := (s.get R.CHK_CAL_GEN + 1) % 2 ^ 32

/-- A run ends: lines stop, the enables follow CHK_HV again, CAL_CLOSE follows the final completion (R312), IDLE. -/
def State.calEnd (s : State) (status detail result : Nat) (data : List Nat) (gen : Nat) : State :=
  let s := if s.path.armed then s.discardAll else s
  let s := { s with calRun := none, chuck := { s.chuck with hvReq := none } }
  let s := s.logMode none 2 5 0 0
  let s := (s.setMode .idle mcCOMMAND).interpolate
  (s.finishLong opCAL_START status detail data).journal 0x06 0 result 0 gen

/-- A sweep fails: bit and step in DETAIL (R401). -/
def State.calFail (s : State) (bit_ step : Nat) : State := s.calEnd stCAL_FAILED (bit_ + step * 2 ^ 8) 1 [] s.calGen

/-- A trim code of the sweep is driven (Table 18.7). -/
def State.calTrim (s : State) (p code : Nat) : State :=
  { s.put (R.CHK_TRIM_CODE p) code with chuck := { s.chuck with shadowTrim := modifyNth s.chuck.shadowTrim p (fun _ => code) } }

/-- Units a sweep visits: ports with a target, the four DACs, the cameras of CAMMASK, the baseline as a whole. -/
def State.calUnits (s : State) (bit_ cams : Nat) : List Nat :=
  match bit_ with
  | 0 => (List.range s.nPorts).filter (fun (p : Nat) => s.get (R.CHK_HVTGT_TGT p) != 0)
  | 1 => [0, 1, 2, 3]
  | 2 => members 4 cams
  | 3 => [0]
  | _ => []

/-- A unit of a sweep begins. -/
def State.calUnit (s : State) (bit_ u : Nat) : State :=
  let s := s.onCal (fun r => { r with bit_ := bit_, step := 1, at_ := u, v1 := [], v2 := [] })
  match bit_ with
  | 0 =>
    let s := ({ s with chuck := { s.chuck with hvReq := some (2 ^ (u / 6)) } } : State).hvApply
    s.calTrim u 1024
  | 2 => if s.flag (R.CAM_CFG_EN u) then s else s.calFail 2 0
  | 3 =>
    if s.enabledPorts.all s.linkUp then
      let n := s.sweepIdle + 128
      let s := s.testArm
      (s.logMode none 2 9 0 n).testBegin 0 n
    else s.calFail 3 1
  | _ => s

/-- VCORE of a point stored now: interpolated from the set in force (R401). -/
def State.calVcore (s : State) : Nat := interp (·.vcore) 850 s.thetaMean s.chuck.cal.sorted

/-- Points near a temperature: within 5 °C. -/
def nearPoint (t : Int) (e : Nat × CalPoint) : Bool := decide ((e.2.temp - t).natAbs ≤ 20)

/-- The nearest point within 5 °C; the first of equals. -/
def nearest (t : Int) (l : List (Nat × CalPoint)) : Option (Nat × CalPoint) :=
  (l.filter (nearPoint t)).foldl (fun (a : Option (Nat × CalPoint)) (e : Nat × CalPoint) =>
    match a with
    | some b => if (e.2.temp - t).natAbs < (b.2.temp - t).natAbs then some e else a
    | none => some e) none

/-- The sweeps are over: the point is stored or replaced, and the commit write begins (R397, R401). -/
def State.calStore (s : State) : State :=
  match s.calRun with
  | none => s
  | some r =>
    let t := s.thetaMean
    let swept := bit r.sweeps 0 || bit r.sweeps 1
    let p : CalPoint := ⟨t, s.calVcore, r.trim, r.sense⟩
    let go (s : State) (points : List (Nat × CalPoint)) : State :=
      s.onCal (fun r => { r with set := { r.set with points := points }, committing := true })
    if bit r.sweeps 4 then
      go s ((r.point, p) :: r.set.points.filter (fun (e : Nat × CalPoint) => !nearPoint t e && e.1 != r.point))
    else if swept then
      match nearest t r.set.points with
      | none => s.calFail (if bit r.sweeps 0 then 0 else 1) 5
      | some old =>
        let q : CalPoint := { old.2 with
          trim := if bit r.sweeps 0 then r.trim else old.2.trim
          sense := if bit r.sweeps 1 then r.sense else old.2.sense }
        go s (r.set.points.map (fun (e : Nat × CalPoint) => if e.1 = old.1 then (e.1, q) else e))
    else go s r.set.points

/-- The next sweep from a bit on begins, or the sweeps are over (R401). -/
def State.calNext : Nat → State → Nat → State
  | 0, s, _ => s.calStore
  | fuel + 1, s, b =>
    match s.calRun with
    | none => s
    | some r =>
      if 4 ≤ b then s.calStore
      else
        match (if bit r.sweeps b then s.calUnits b r.cams else []) with
        | [] => State.calNext fuel s (b + 1)
        | u :: _ => ((s.onCal (fun r => { r with theta := s.thetaMean })).calUnit b u).setProgress opCAL_START (250 * b)

/-- A unit has ended well: the next of its sweep, or the next sweep. -/
def State.calAdvance (s : State) : State :=
  match s.calRun with
  | none => s
  | some r =>
    match (s.calUnits r.bit_ r.cams).find? (fun (u : Nat) => decide (r.at_ < u)) with
    | some u => s.calUnit r.bit_ u
    | none =>
      let s := if r.bit_ = 0 then ({ s with chuck := { s.chuck with hvReq := none } } : State).hvApply else s
      State.calNext 4 s (r.bit_ + 1)

/-- The die moved more than 3 °C since the sweep began (Table 18.7). -/
def State.calMoved (s : State) (r : CalRun) : Bool := decide (12 < (s.thetaMean - r.theta).natAbs)

/-- A measurement of the head-supply sweep (Table 18.7): mean of HVMON_p in mV.  Step 3 fails without the group's power-good
(Table 18.8). -/
def State.calTrimStep (s : State) (r : CalRun) (v : Nat) : State :=
  let v1 : Int := r.v1.headD 0
  let tgt : Int := s.get (R.CHK_HVTGT_TGT r.at_)
  if r.step = 1 then (s.onCal (fun r => { r with step := 2, v1 := [v] })).calTrim r.at_ 3072
  else if r.step = 2 then
    if ((v : Int) - v1).natAbs < 100 then s.calFail 0 2
    else
      let code := (max 0 (min 4095 (1024 + roundDiv (if v1 < v then 2048 * (tgt - v1) else -(2048 * (tgt - v1)))
        (((v : Int) - v1).natAbs : Nat)))).toNat
      (s.onCal (fun r => { r with step := 3, v2 := [v, code] })).calTrim r.at_ code
  else if 200 * ((v : Int) - tgt).natAbs ≤ s.get (R.CHK_HVTGT_TGT r.at_) ∧ bit (s.get R.CHK_HV_PG) (r.at_ / 6) = true then
    if s.calMoved r then s.calFail 0 4
    else (s.onCal (fun r => { r with trim := modifyNth r.trim r.at_ (fun _ => r.v2.getD 1 0) })).calAdvance
  else s.calFail 0 3

/-- A code of the sense sweep (Table 18.7). -/
def State.calSenseStep (s : State) (r : CalRun) (code : Nat) : State :=
  let s := s.onCal (fun r => { r with sense := modifyNth r.sense (2 * r.at_ + (r.step - 1)) (fun _ => code % 1024), step := 2 })
  if r.step = 1 then s else if s.calMoved r then s.calFail 1 4 else s.calAdvance

/-- Flat-field words from sums of 256 frames (Table 18.7, R201): DARK, and FF or 0 for a dead pixel; the dead pixels. -/
def flatWords (d w : List Nat) : List Nat × Nat :=
  let l := (d.zip w).map (fun (e : Nat × Nat) =>
    let dark := (2 * e.1 + 256) / 512
    if e.2 < e.1 + 64 * 256 then (dark % 4096, true)
    else
      let ff := min 65535 ((2 * 255 * 65536 * 256 + (e.2 - e.1)) / (2 * (e.2 - e.1)))
      (dark % 4096 + ff * 2 ^ 16, false))
  (l.map (fun (e : Nat × Bool) => e.1), (l.filter (fun (e : Nat × Bool) => e.2)).length)

/-- Sums of 256 frames of the flat-field sweep. -/
def State.calFlatStep (s : State) (r : CalRun) (sums : List Nat) : State :=
  if r.step = 1 then s.onCal (fun r => { r with step := 2, v1 := sums })
  else
    let (words, dead) := flatWords r.v1 sums
    if 16 < dead then s.calFail 2 3
    else
      let flat := (List.range 4).map (fun (n : Nat) => if n = r.at_ then some words else r.set.flat.getD n none)
      (s.onCal (fun r => { r with set := { r.set with flat := flat } })).calAdvance

/-- The median of readings: of an even number, a value between the two in the middle that the spec does not fix. -/
def State.medianFree (s : State) (l : List Nat) : State × Nat :=
  let a := sortNat l
  let n := a.length
  let hi := a.getD (n / 2) 0
  if n % 2 = 1 then (s, hi)
  else
    let lo := a.getD (n / 2 - 1) 0
    (s.took, lo + s.freeVal 32 % (hi - lo + 1))

/-- The end of the baseline sweep (Table 18.7): RNOM of every rank present. -/
def State.calBaseEnd (s : State) (r : CalRun) : State :=
  let s := s.discardAll
  let ranks := ((s.enabledPorts.map (fun (p : Nat) => (s.link p).rank)).foldl (fun (l : List Nat) (k : Nat) => if l.contains k then l else l ++ [k]) [])
  let of (k : Nat) : List Nat := (r.reads.filter (fun (e : Nat × Nat) => e.1 == k)).map (fun (e : Nat × Nat) => e.2)
  if ranks.any (fun (k : Nat) => decide ((of k).length < 256)) then s.calFail 3 2
  else
    let a := ranks.foldl (fun (a : State × List Nat) (k : Nat) =>
      let m := a.1.medianFree (of k)
      (m.1, modifyNth a.2 k (fun _ => m.2))) (s, (List.range 16).map (fun (k : Nat) => s.get (R.FIR_RANK_RNOM k)))
    (a.1.onCal (fun r => { r with set := { r.set with rnom := some a.2 } })).calAdvance

/-- A step of the sweep in progress ends (R401): `ok` is false where the step does not reach its end within its limit. -/
def State.calStepIn (s : State) (ok : Bool) (data : List Nat) : State :=
  match s.calRun with
  | none => s
  | some r =>
    if r.committing then s
    else
      match r.bit_ with
      | 0 => if ok then s.calTrimStep r (data.headD 0) else s.calFail 0 r.step
      | 1 => if ok then s.calSenseStep r (data.headD 0) else s.calFail 1 r.step
      | 2 => if ok then s.calFlatStep r data else s.calFail 2 r.step
      | _ => if ok then (if s.testLeft = 0 then s.calBaseEnd r else s) else s.calFail 3 2

/-- CAL_SWEEP_STEP (R401): `data` is what the step measured: the supply in mV, the code found, or 256-frame sums by pixel. -/
def execCalSweepStep (ok : Bool) (data : List Nat) (s : State) : Outc := coreEvent s (fun s => s.calStepIn ok data)

/-- CAL_START (R281, R401). -/
def State.cmdCalStart (s : State) (c : Cmd) : State :=
  let p := s.payloadOf c
  let sw := field p 0 2
  let cams := field p 3 1
  if 32 ≤ sw ∨ (bit sw 4 = true ∧ bit sw 0 = false ∧ bit sw 1 = false) ∨ 7 < field p 2 1 ∨ 15 < cams ∨ resv p [(4, 4)] = true then
    s.finish c stBAD_PARAM
  else if bit sw 2 && (members 4 cams).any (fun (n : Nat) => decide (s.nCams ≤ n)) then s.finish c stABSENT
  else
    let t := s.thetaMean
    let pts := s.chuck.cal.sorted
    let r : CalRun := {
      sweeps := sw, point := field p 2 1, cams := cams, bit_ := 0, step := 0, at_ := 0
      set := { gen := s.calGen, points := s.chuck.cal.points }
      trim := (List.range 24).map (fun (k : Nat) => interp (fun c => c.trim.getD k 2048) 2048 t pts)
      sense := (List.range 8).map (fun (i : Nat) => interp (fun c => c.sense.getD i (if i % 2 = 0 then 100 else 1000)) (if i % 2 = 0 then 100 else 1000) t pts)
      theta := t, v1 := [], v2 := [], reads := [], regs0 := s.regs, committing := false, abort := false }
    let s := s.journal 0x05 0 0 0 s.calGen
    let s := (s.logAdd 0x07 none 2 ([4, 0] ++ List.replicate 14 0)).startLong c
    State.calNext 4 (({ s with calRun := some r } : State).setMode .calibrate mcCOMMAND) 0
def execCalStart (r : SlotRef) (s : State) : Outc := withCmd s r opCAL_START State.cmdCalStart

/-- The set a commit writes: parts not swept take the registers of the start (R401). -/
def State.calSet (s : State) (r : CalRun) : CalSet :=
  let reg (f : Fld) : Nat := Cells.look dfltReg r.regs0 f.key
  { r.set with
    rnom := some (match r.set.rnom with | some l => l | none => (List.range 16).map (fun (k : Nat) => reg (R.FIR_RANK_RNOM k)))
    dither := some ((List.range 4096).map (fun (t : Nat) => reg (R.SPN_DITHER_THRESH t)))
    flat := (List.range s.nCams).map (fun (n : Nat) => match r.set.flat.getD n none with
      | some l => some l
      | none => some ((List.range 16384).map (fun (i : Nat) => reg (wordFld (0x40980000 + 0x10000 * n + 4 * i))))) }

/-- CAL_COMMIT (R397, R398): the write of the other bank ends; a set in force by default leaves bank 0 to be written.  A write that
fails is counted in BTJ_FLASHERR (R303). -/
def State.calCommit (s : State) (ok : Bool) : State :=
  match s.calRun with
  | none => s
  | some r =>
    if !r.committing then s
    else
      let bank := match s.chuck.calBank with | some k => 1 - k | none => 0
      let put (s : State) (c : Option CalSet) : State :=
        { s with flash := if bank = 0 then { s.flash with bank0 := c } else { s.flash with bank1 := c } }
      let gen := s.calGen
      let s := if ok then
          let c := s.calSet r
          let s := (put s (some c)).put R.BTJ_STAT_CAL_INTERRUPTED 0
          let s := s.calEnd stOK 0 0 (toBytes 4 gen ++ [bank, 0, 0, 0]) gen
          s.calInForce c (some bank)
        else ((put s none).bump R.BTJ_FLASHERR_COUNT).calEnd stFLASH_WRITE 0 1 [] gen
      if r.abort then s.finishLong opCAL_ABORT stOK else s
def execCalCommit (ok : Bool) (s : State) : Outc := coreEvent s (fun s => s.calCommit ok)

/-- CAL_ABORT (R282): once the commit write has begun it waits for its end. -/
def State.cmdCalAbort (s : State) (c : Cmd) : State :=
  match s.calRun with
  | none => s.finish c stOK
  | some r =>
    if r.committing then
      let s := s.onCal (fun r => { r with abort := true })
      { s with mbx := { s.mbx with cmds := s.mbx.cmds.map (fun d => if d.ref == c.ref then { d with running := true } else d) } }
    else (s.calEnd stABORTED 0 2 [] s.calGen).finish c stOK
def execCalAbort (r : SlotRef) (s : State) : Outc := withCmd s r opCAL_ABORT State.cmdCalAbort

/-- CAL_STATUS (R282). -/
def State.cmdCalStatus (s : State) (c : Cmd) : State :=
  let (state, step) := match s.calRun with
    | some r => (if r.committing then 2 else 1, r.step)
    | none => (0, 0)
  let flags := s.get R.BTJ_STAT_CAL_INTERRUPTED + 2 * s.get R.CHK_CAL2_BANK
  let progress := match s.longCmd opCAL_START with | some d => d.progress | none => 0
  s.finish c stOK 0 ([state, step, flags, 0] ++ toBytes 4 (s.get R.CHK_CAL_GEN) ++ toBytes 2 progress ++ [0, 0])
def execCalStatus (r : SlotRef) (s : State) : Outc := withCmd s r opCAL_STATUS State.cmdCalStatus

end Sys2Proof.Machine
end

