-- ==== Sys2Proof/Machine/Heads.lean ====
section
/-! DEFINITION. The heads as receivers of Holza-H (R178–R186, R192).  What a head holds beyond these rules (its memory, its
key, its temperature, its heaters' resistance, the locks of its lanes) comes from Config or is a free value.  In the output
record an upstream frame is its header word and data bytes. -/

namespace Sys2Proof.Machine

/-- A head. -/
def State.head (s : State) (h : Nat) : Head := s.heads.getD h {}
def State.onHead (s : State) (h : Nat) (f : Head → Head) : State := { s with heads := modifyNth s.heads h f }
def State.onIn (s : State) (h i : Nat) (f : HeadIn → HeadIn) : State :=
  s.onHead h (fun x => { x with ins := modifyNth x.ins i f })

/-- CL_i (R179). -/
def Head.cl (x : Head) (i : Nat) : Option Nat := (x.ins.getD i {}).claim

/-- The highest claim, 0 for none (R179). -/
def Head.top (x : Head) : Nat := (x.ins.map (fun (i : HeadIn) => i.claim.getD 0)).foldl max 0

/-- Two inputs hold the same claim (Table 8.5). -/
def Head.tie (x : Head) : Bool := (x.cl 0).isSome && x.cl 0 == x.cl 1

/-- An ERR event of an input (R186). -/
def State.headErr (s : State) (h i b : Nat) : State := s.onIn h i (fun x => { x with err := setBit x.err b })

/-- `n` bytes of head memory (R189). -/
def headMem (h a n : Nat) : List Nat := (List.range n).map (fun (i : Nat) => Config.headByte h (a + i) % 256)

/-- An upstream frame leaves a head (Table 8.3). -/
def State.headSend (s : State) (h i ftype seq nrec addr len : Nat) (data : List Nat) : State :=
  s.emit (.up h ftype (toBytes 4 seq ++ toBytes 4 (s.head h).top ++ [ftype, i, nrec, 0] ++ toBytes 2 addr ++ toBytes 2 len ++ data))

/-- A STAT frame leaves on both inputs (R186): ERR starts again; locks and temperature are free values. -/
def State.headStat (s : State) (h outcome seq skips : Nat) : State :=
  s.forEach [0, 1] (fun s i =>
    let x := s.head h
    let b : HeadIn := x.ins.getD i {}
    let d := [outcome, s.freeVal 2 + 4 * b2n x.tie] ++ toBytes 2 (s.took.freeVal 16) ++ toBytes 2 b.creturn ++ [b.err, min 255 skips]
      ++ List.replicate 24 0
    (s.took.took.headSend h i 0x81 seq 0 0 0 d).onIn h i (fun y => { y with err := 0 }))

/-- An ACK leaves (R186). -/
def State.headAck (s : State) (h i cseq op status count : Nat) (mac : List Nat) : State :=
  s.headSend h i 0x84 cseq 0 0 0 ([op, status, 0, 0] ++ toBytes 4 count ++ (mac ++ List.replicate 24 0).take 24)

/-- How a frame of a head input is judged (R178). -/
inductive Judged where
  | invalid
  | damaged
  | valid
  deriving DecidableEq, Repr

/-- The code words of a frame given as SOF block, data blocks, EOF block (R168). -/
def frameWords (b : List Nat) : List Nat := codeWords ((b.drop 8).take (18 * field b 2 2))

/-- R178 on a frame; an uncorrectable payload word outside a LINE makes it invalid (DEDUCED, log entry 66). -/
def headJudge (b : List Nat) : Judged :=
  let n := field b 2 2
  let eof := b.drop (b.length - 8)
  let ws := frameWords b
  let blocks := decide (b.length = 16 + 8 * ceilDiv (18 * n) 8) && (field b 0 1 == 0x5C) && (field eof 0 1 == 0x63)
    && (crc8 ((b.drop 1).take 6) == field b 7 1) && (crc8 ((eof.drop 1).take 6) == field eof 7 1)
  if !blocks || field eof 5 2 != n || n == 0 then .invalid
  else if wordBad (ws.headD 0) then .invalid
  else if ws.any wordBad then (if field (wordData (ws.take 1)) 8 1 = 1 then .damaged else .invalid)
  else if crc32c (wordData ws) = field eof 1 4 then .valid else .invalid

/-- The data bytes of a frame; those of an uncorrectable word of a line are 0 (R178). -/
def frameData (b : List Nat) : List Nat :=
  (frameWords b).flatMap (fun (w : Nat) => if wordBad w then List.replicate 16 0 else toBytes 16 (eccCorrect w))

/-- A header of a valid frame gives the input its claim and raises HIGH (R179). -/
def State.headClaim (s : State) (h i c : Nat) : State :=
  (s.onIn h i (fun x => { x with claim := some c })).onHead h (fun x => { x with high := max x.high (c / 2) })

/-- A LINE frame (R180). -/
def State.headLine (s : State) (h seq epoch : Nat) (d : List Nat) (damaged : Bool) : State :=
  let x := s.head h
  if epoch ≠ x.high then s
  else
    let f := x.fired.getD ((seq + 2 ^ 32 - 1) % 2 ^ 32)
    let near := decide (0 < sdiff 32 seq f ∧ sdiff 32 seq f ≤ 8)
    let clean := x.slots.any (fun (l : HeadSlot) => l.seq == seq && !l.damaged)
    let half := x.slots.any (fun (l : HeadSlot) => l.seq == seq)
    let req := (List.range (min 64 (field d 11 1))).map (fun (k : Nat) => field d (2064 + 2 * k) 2)
    let slot : HeadSlot := ⟨seq, damaged, field d 10 1 % 2, field d 10 1 / 2 % 4, (d.drop 16).take 2048, req.filter (fun (r : Nat) => decide (r < 8192))⟩
    let s := s.onHead h (fun x => { x with fired := some f })
    if !near || clean || (half && damaged) then s
    else s.onHead h (fun x => { x with slots := x.slots.filter (fun (l : HeadSlot) => l.seq != seq) ++ [slot] })

/-- A credit of an input returns (R178, R185). -/
def State.headReturn (s : State) (h i : Nat) : State := s.onIn h i (fun x => { x with creturn := (x.creturn + 1) % 2 ^ 16 })

/-- A TRIM frame (R182, R183). -/
def State.headTrim (s : State) (h i seq epoch : Nat) (d : List Nat) : State :=
  if epoch ≠ (s.head h).high then s
  else
    let recs := (List.range (field d 11 1)).map (fun (k : Nat) => (seq, field d (16 + 4 * k) 2 % 8192, field d (18 + 4 * k) 1 % 32))
    let late := match (s.head h).fired with | some f => decide (sdiff 32 seq f ≤ 0) | none => false
    let s := s.onIn h i (fun x => { x with trims := x.trims ++ recs })
    if late then s.headErr h i 2 else s

/-- WAVE and CMD frames of an input are executed (R182). -/
def Head.obeys (x : Head) (i : Nat) : Bool :=
  match x.cl i with
  | some c => (c == x.top) && (c / 2 == x.high) && !x.tie
  | none => false

/-- A WAVE frame: the tables are checked against the limits of the head's memory and staged (R172, R189). -/
def State.headWave (s : State) (h i cseq : Nat) (d : List Nat) : State :=
  let t := tabOf d
  let lim (a : Nat) : Nat := field (headMem h a 2) 0 2
  if t.span ≤ lim 0x16 ∧ lim 0x18 ≤ t.off ∧ lim 0x1A ≤ t.tmin then
    (s.onHead h (fun x => { x with staged := modifyNth x.staged (field d 0 1) (fun _ => some (d.take 228)) })).headAck h i cseq 0 0 0 []
  else s.headAck h i cseq 0 2 0 []

/-- The answer to a usage operation (R192). -/
def State.headUsage (s : State) (h i cseq op : Nat) (nonce : List Nat) : State :=
  if !bit (Config.headByte h 3) 0 then s.headAck h i cseq op 1 0 []
  else
    let s := if op = 6 then s.onHead h (fun x => { x with usage := min (x.usage + 1) 0xFFFFFFFF }) else s
    let c := (s.head h).usage
    let m := Config.hmacSha256 (Config.headKey h) ([op] ++ nonce ++ headMem h 8 8 ++ toBytes 4 c) % 2 ^ 256 / 2 ^ 128
    s.headAck h i cseq op 0 c (toBytes 16 m).reverse

/-- FLUSH: line slots, row delays and open decisions go, F is undefined (R184). -/
def State.headFlush (s : State) (h : Nat) : State := s.onHead h (fun x => { x with slots := [], delayed := [], marks := [], fired := none })

/-- A CMD frame (R173, Table 8.4).  What COMMIT answers with nothing staged is not stated: a free status. -/
def State.headCmd (s : State) (h i cseq : Nat) (d : List Nat) : State :=
  let op := field d 0 1
  let c := field d 1 1 % 2
  match op with
  | 1 => (s.headFlush h).headAck h i cseq 1 0 0 []
  | 2 =>
    let n := field d 3 2
    let b := headMem h (field d 1 2) n
    s.headSend h i 0x83 cseq 0 (field d 1 2) n (padWord b)
  | 3 =>
    match (s.head h).staged.getD c none with
    | some t => (s.onHead h (fun x => { x with
        tabs := modifyNth x.tabs c (fun _ => some t), staged := modifyNth x.staged c (fun _ => none) })).headAck h i cseq 3 0 0 []
    | none => s.took.headAck h i cseq 3 (s.freeVal 2) 0 []
  | 4 => (s.onHead h (fun x => { x with staged := modifyNth x.staged c (fun _ => none) })).headAck h i cseq 4 0 0 []
  | 5 => s.headUsage h i cseq 5 ((d.drop 16).take 16)
  | 6 => s.headUsage h i cseq 6 ((d.drop 16).take 16)
  | 7 => s.onIn h i (fun x => { x with claim := none, creturn := 0 })
  | _ => s.headAck h i cseq op 1 0 []

/-- A frame judged valid or damaged acts by its type (R180–R183). -/
def State.headAct (s : State) (h i : Nat) (b : List Nat) (damaged : Bool) : State :=
  let d := frameData b
  let seq := field d 0 4
  let claim := field d 4 4
  let s := if damaged then s else s.headClaim h i claim
  match field d 8 1 with
  | 1 => s.headLine h seq (claim / 2) d damaged
  | 2 => (s.headTrim h i seq (claim / 2) d).headReturn h i
  | 3 =>
    let s := s.headReturn h i
    if (s.head h).obeys i then s.headWave h i seq (d.drop 16) else s.headAck h i seq 0 3 0 []
  | 4 =>
    let s := s.headReturn h i
    if (s.head h).obeys i then s.headCmd h i seq (d.drop 16) else s.headAck h i seq (field d 16 1) 3 0 []
  | _ => s

/-- HEAD_FRAME (R178–R183): SOF block, data blocks and EOF block as received. -/
def State.headFrame (s : State) (h i : Nat) (b : List Nat) : State :=
  let s := if (frameWords b).any wordBad then s.headErr h i 1 else s
  match headJudge b with
  | .invalid =>
    let s := s.headErr h i 0
    if 2 ≤ field b 1 1 ∧ field b 1 1 ≤ 4 then s.headReturn h i else s
  | .damaged => s.headAct h i b true
  | .valid => s.headAct h i b false
def execHeadFrame (h input : Nat) (body : List Nat) (s : State) : Outc :=
  coreEvent s (fun s => if h < 24 ∧ input < 2 then s.headFrame h input body else s)

/-- A marker's SEQ extended to 32 bits: the value nearest F + 1 (R177). -/
def seqExtend (f q : Nat) : Nat := (((f + 1 : Nat) : Int) + signed 16 ((q + 2 ^ 16 - (f + 1) % 2 ^ 16) % 2 ^ 16)) % (2 ^ 32 : Nat) |>.toNat

/-- HEAD_MARKER (R166, R181): the eight bytes of the control block. -/
def State.headMarker (s : State) (h i : Nat) (b : List Nat) : State :=
  let x := s.head h
  if field b 0 1 ≠ 0x96 ∨ crc8 ((b.drop 1).take 6) ≠ field b 7 1 then s.headErr h i 3
  else
    match x.cl i, x.fired with
    | some c, some f =>
      let q := seqExtend f (field b 5 2)
      if c / 2 ≠ x.high ∨ sdiff 32 q f ≤ 0 then s.headErr h i 4
      else
        let m : HeadMark := ⟨i, bit (field b 1 1) 5, field b 2 3⟩
        if x.marks.any (fun (e : Nat × List HeadMark) => e.1 == q) then
          s.onHead h (fun x => { x with marks := x.marks.map (fun (e : Nat × List HeadMark) => if e.1 = q then (q, e.2 ++ [m]) else e) })
        else s.onHead h (fun x => { x with marks := x.marks ++ [(q, [m])] })
    | _, _ => s.headErr h i 4
def execHeadMarker (h input : Nat) (body : List Nat) (s : State) : Outc :=
  coreEvent s (fun s => if h < 24 ∧ input < 2 then s.headMarker h input body else s)

/-- The marker acted on: from the input with the highest claim, the first among equals (R181). -/
def Head.choose (x : Head) : List HeadMark → Option HeadMark
  | [] => none
  | m :: t =>
    match x.choose t with
    | none => some m
    | some n => if (x.cl n.input).getD 0 ≤ (x.cl m.input).getD 0 then some m else some n

/-- The greatest row delay of a head (R184, R189). -/
def headRowMax (h : Nat) : Nat := ((headMem h 0x20 8).take (field (headMem h 0x12 1) 0 1)).foldl max 0

/-- Trim records whose SEQ has come are applied, in order of SEQ and of receipt (R183). -/
def Head.applyTrims (x : Head) (q : Nat) : Head :=
  let due := (x.ins.flatMap (fun (i : HeadIn) => i.trims)).filter (fun (t : Nat × Nat × Nat) => decide (sdiff 32 t.1 q ≤ 0))
  let sorted := due.foldl (fun (l : List (Nat × Nat × Nat)) (t : Nat × Nat × Nat) =>
    l.filter (fun (u : Nat × Nat × Nat) => decide (sdiff 32 u.1 t.1 ≤ 0)) ++ [t]
      ++ l.filter (fun (u : Nat × Nat × Nat) => decide (0 < sdiff 32 u.1 t.1))) []
  { x with
    ins := x.ins.map (fun (i : HeadIn) => { i with trims := i.trims.filter (fun (t : Nat × Nat × Nat) => decide (0 < sdiff 32 t.1 q)) })
    trim := sorted.foldl (fun (m : Cells) (t : Nat × Nat × Nat) => Cells.store dfltZero m t.2.1 t.2.2) x.trim }

/-- A RES frame leaves on both inputs; the readings are free values (R158, R186). -/
def State.headRes (s : State) (h seq : Nat) (l : List Nat) : State :=
  if l.isEmpty then s
  else
    let r := l.foldl (fun (a : State × List Nat) (n : Nat) => (a.1.took, a.2 ++ toBytes 2 n ++ toBytes 2 (a.1.freeVal 16))) (s, [])
    r.1.forEach [0, 1] (fun s i => s.headSend h i 0x82 seq l.length 0 0 (padWord r.2))

/-- HEAD_DECISION (R181, R183, R184, R186). -/
def State.headDecide (s : State) (h : Nat) : State :=
  let x := s.head h
  match x.marks with
  | [] => s
  | (q, ms) :: rest =>
    let s := s.onHead h (fun x => { x with marks := rest })
    match x.choose ms, x.fired with
    | some m, some f =>
      if sdiff 32 q f ≤ 0 then s
      else
        let slot := x.slots.find? (fun (l : HeadSlot) => l.seq == q)
        let skips := (x.slots.filter (fun (l : HeadSlot) => decide (sdiff 32 l.seq q < 0))).length
        let out := if m.blank then 1 else match slot with | none => 2 | some l => if l.damaged then 3 else 0
        let s := s.onHead h (fun x =>
          let x := x.applyTrims q
          { x with
            fired := some q, outcome := out, slots := x.slots.filter (fun (l : HeadSlot) => decide (0 < sdiff 32 l.seq q))
            delayed := (if out = 0 ∨ out = 3 then x.delayed ++ [q] else x.delayed).filter
              (fun (e : Nat) => decide (sdiff 32 q e < (headRowMax h : Int))) })
        (s.headStat h out q skips).headRes h q (match slot with | some l => l.res | none => [])
    | _, _ => s
def execHeadDecision (h : Nat) (s : State) : Outc := coreEvent s (fun s => s.headDecide h)

/-- HEAD_LOCK_TIMEOUT (R179): HIGH, every claim and every buffer are cleared. -/
def execHeadLockTimeout (h : Nat) (s : State) : Outc :=
  coreEvent s (fun s => (s.headFlush h).onHead h (fun x => { x with
    high := 0, staged := [none, none], ins := x.ins.map (fun (i : HeadIn) => { i with claim := none, trims := [] }) }))

/-- STAT_NONE (R186). -/
def execStatNone (h : Nat) (s : State) : Outc :=
  coreEvent s (fun s => if h < 24 then s.headStat h 7 ((s.head h).fired.getD 0) 0 else s)

end Sys2Proof.Machine
end

