-- ==== Sys2Proof/Machine/Maint.lean ====
section
/-! DEFINITION. Maintenance sequences (R283, R284): MAINT_DEFINE, MAINT_START, MAINT_STEP_END, MAINT_STOP. -/

namespace Sys2Proof.Machine

/-- A step of Table 12.3 that the table does not allow. -/
def MaintStep.bad (t : MaintStep) : Bool :=
  match t.op with
  | 1 => decide (8 ≤ t.a8)
  | 2 => decide (t.a8 ≠ 0)
  | 3 => decide (t.a8 = 0 ∨ 3 < t.a8)
  | 4 => decide (15 < t.a8 ∨ t.a32 ≠ 0)
  | 5 => decide (15 < t.a8 ∨ t.a32 ≠ 0)
  | _ => true

/-- MAINT_DEFINE (R283). -/
def State.cmdMaintDefine (s : State) (c : Cmd) : State :=
  let p := s.payloadOf c
  let n := field p 1 1
  let steps := maintSteps p
  if 15 < field p 0 1 ∨ n = 0 ∨ 29 < n ∨ resv p [(2, 6)] = true ∨ steps.any MaintStep.bad = true
    ∨ (List.range n).any (fun (i : Nat) => field p (10 + 8 * i) 2 != 0) = true then s.finish c stBAD_PARAM
  else if steps.any (fun (t : MaintStep) => t.op == 5 && (members 4 t.a8).any (fun (k : Nat) => decide (s.nCams ≤ k))) then s.finish c stABSENT
  else ((s.logWindow opMAINT_DEFINE p (8 + 8 * n)).maintPut p).finish c stOK
def execMaintDefine (r : SlotRef) (s : State) : Outc := withCmd s r opMAINT_DEFINE State.cmdMaintDefine

/-- An axis is at rest, with no command that waits for its START. -/
def State.axIdle (s : State) (n : Nat) : Bool := (s.axis n).run == .rest && (s.axis n).wait.isEmpty

/-- The sequence is over once its axes are at rest: lines stop, MAINTAIN ends, MAINT_START completes, and a MAINT_STOP
that waited (R284, R415). -/
def State.maintEnd (s : State) : State :=
  match s.maint.ending with
  | none => s
  | some (st, detail) =>
    if (members 8 s.maint.axes).all s.axIdle then
      let s := s.discardAll.maintOff.logMode none 2 7 0 0
      ((s.setMode .idle mcCOMMAND).finishLong opMAINT_START st detail).finishLong opMAINT_STOP stOK
    else { s with trans := true }

/-- Axes of the sequence that move decelerate to rest at their DECEL, and the sequence ends (R284, R415). -/
def State.maintClose (s : State) (status detail : Nat) : State :=
  let s := s.forEach ((members 8 s.maint.axes).filter (fun (n : Nat) => !s.axIdle n)) (fun s n => s.axIssue n (.stop false))
  ({ s with maint := { s.maint with ending := some (status, detail) } } : State).maintEnd

/-- STEP_FAILED (R284): the step, and a cause of 1 axis fault, 2 LOST, 3 timeout; of any other the spec names no code, and it
is a free value. -/
def State.maintFail (s : State) (cause : Nat) : State :=
  let step := s.maint.step
  if cause = 0 then s.took.maintClose 0x0139 (step + 2 ^ 8 * s.freeVal 8) else s.maintClose 0x0139 (step + 2 ^ 8 * cause)

/-- What stands against a MOVE step: 1 axis fault, 2 LOST (R284). -/
def State.moveBad (s : State) (n : Nat) : Nat :=
  if s.flag (R.MOT_AX_STAT_FAULT n) then 1 else if s.flag (R.MOT_AX_STAT_LOST n) then 2 else 0

/-- A step begins (Table 12.3); a standby takes moves and patterns from the log. -/
def State.maintDo (s : State) (t : MaintStep) : State :=
  match t.op with
  | 1 =>
    let n := t.a8
    let tgt := signed 32 t.a32
    if !s.primary then s
    else if s.moveBad n ≠ 0 then s.maintFail (s.moveBad n)
    else if s.axRefuse n false tgt ≠ 0 ∨ s.axBusy n = true then s.maintFail 0
    else s.axIssue n (.move tgt (s.axSpeed n 0) (s.axAcc n 0) (s.axDec n 0))
  | 3 => if s.primary then (s.logMode none 2 9 t.a8 t.a32).testBegin t.a8 t.a32 else s
  | 4 => ({ s with chuck := { s.chuck with hvReq := some t.a8 } } : State).hvApply
  | 5 => { s with maint := { s.maint with cams := t.a8 } }
  | _ => s

/-- The step in progress begins, or the sequence is complete. -/
def State.maintHere (s : State) : State :=
  match s.maint.run with
  | some (t :: _) => s.maintDo t
  | some [] => if s.primary then s.maintClose stOK 0 else s
  | none => s

/-- MAINT_START (R284). -/
def State.cmdMaintStart (s : State) (c : Cmd) : State :=
  let p := s.payloadOf c
  let n := field p 0 1
  if 15 < n ∨ resv p [(1, 3)] = true then s.finish c stBAD_PARAM
  else match s.maint.seqs.find? (fun (e : Nat × List MaintStep) => e.1 == n) with
    | none => s.finish c 0x0138
    | some (_, steps) =>
      let s := (s.logAdd 0x07 none 2 ([6, n] ++ List.replicate 14 0)).startLong c
      ((s.maintBegin steps).setMode .maintain mcCOMMAND).maintHere
def execMaintStart (r : SlotRef) (s : State) : Outc := withCmd s r opMAINT_START State.cmdMaintStart

/-- The step in progress has ended: the next one begins. -/
def State.maintNext (s : State) : State :=
  ({ s with maint := { s.maint with run := s.maint.run.map (fun (l : List MaintStep) => l.drop 1), step := s.maint.step + 1 } } : State).maintHere

/-- A MOVE step may have ended: at its target, at rest elsewhere, by fault or loss, or past its 30 s (Table 12.3, R284). -/
def State.maintMove (s : State) (t : MaintStep) (ok : Bool) : State :=
  let n := t.a8
  if s.moveBad n ≠ 0 then (if s.primary then s.maintFail (s.moveBad n) else s)
  else if s.axIdle n then
    if s.axPos n = signed 32 t.a32 then s.maintNext else if s.primary then s.maintFail 0 else s
  else if ok ∨ s.primary = false then s else s.maintFail 3

/-- MAINT_STEP_END (R283, R284): `ok` is false where the step has reached its time limit. -/
def State.maintStepIn (s : State) (ok : Bool) : State :=
  if s.mode ≠ .maintain ∧ ¬(s.mode = .shadow ∧ s.follow = .maintain) then s
  else if s.maint.ending.isSome then s.maintEnd
  else match s.maint.run with
    | some (t :: _) =>
      if t.op = 1 then s.maintMove t ok
      else if t.op = 3 ∧ s.testLeft ≠ 0 then s
      else s.maintNext
    | _ => s
def execMaintStepEnd (ok : Bool) (s : State) : Outc := coreEvent s (fun s => s.maintStepIn ok)

/-- MAINT_STOP (R284): it completes once moving axes are at rest. -/
def State.cmdMaintStop (s : State) (c : Cmd) : State :=
  let s := { s with mbx := { s.mbx with cmds := s.mbx.cmds.map (fun (d : Cmd) => if d.ref == c.ref then { d with running := true } else d) } }
  if s.maint.ending.isSome then s.maintEnd else s.maintClose stABORTED 0
def execMaintStop (r : SlotRef) (s : State) : Outc := withCmd s r opMAINT_STOP State.cmdMaintStop

end Sys2Proof.Machine
end

