-- ==== Sys2Proof/Machine/Pair.lean ====
section
/-! DEFINITION. Pair operation (chapter 10): the blocks and frames of the pair link, its training, joins, the commands
PAIR_JOIN, PAIR_SWITCHOVER and PAIR_LEAVE.  A frame is given as its 18-byte code words, header first. -/

namespace Sys2Proof.Machine

/-- HB_TIMER (R230). -/
def execHbTimer (s : State) : Outc := coreEvent s (fun s => s.hbSend)

/-- A control block, bytes 1 to 7: one whose CRC-8 fails is ignored and counted (R215). -/
def State.blockIn (s : State) (body : List Nat) (k : State → List Nat → State) : State :=
  if s.pair.state = 0 then s
  else if body.length = 7 ∧ crc8 (body.take 6) = body.getD 6 0 then k s body
  else s.bump R.TSL_LINKCNT_BADFRAME

/-- A frame: one that is invalid is dropped and counted (R178, R216, R217); a valid header shows the partner's claim. -/
def State.frameIn (s : State) (ftype : Nat) (body : List Nat) (bad : State → State) (k : State → List Nat → State) : State :=
  if s.pair.state < 3 then s
  else match s.payloadIn 8 body with
    | (s, none) => bad (s.bump R.TSL_LINKCNT_BADFRAME)
    | (s, some b) =>
      if field b 8 1 ≠ ftype ∨ 2048 < field b 10 2 ∨ b.length < 16 + field b 10 2 then bad (s.bump R.TSL_LINKCNT_BADFRAME)
      else k (s.put R.TSL_PEER_CLAIM_CLAIM (field b 4 4)) b

/-- The data bytes of a frame. -/
def pairData (b : List Nat) : List Nat := (b.drop 16).take (field b 10 2)

/-! ## Heartbeats -/

/-- The standby has left the pair: the primary closes the log and continues unpaired (R245). -/
def State.leftBy (s : State) (old new : Nat) : State :=
  if s.logOpen && old % 16 == Mode.shadow.code && new % 16 != Mode.shadow.code && !bit new 4 then
    let s := s.logShut false
    ({ s with pair := { s.pair with join := 0 } } : State).appendKick
  else s

/-- An HB block (R230, R231): HBCNT, mode and role bits, line. -/
def State.hbIn (s : State) (b : List Nat) : State :=
  let m := field b 2 1
  let old := match s.pair.peerHb with | some h => field h 2 1 | none => 0
  let s := { s with pair := { s.pair with peerHb := some (b.take 6), peerT := some s.now } }
  let s := (s.put R.TSL_DETECT_D s.detectTime).put R.TSL_STAT_HB_OK 1
  if s.primary then
    let s := if bit m 5 then { s with pair := { s.pair with join := 0 } } else s
    s.leftBy old m
  else if s.mode = .shadow ∧ s.synced = false ∧ s.pair.join < 4 then { s with follow := Mode.ofCode (m % 16) }
  else s

/-- HB_BLOCK (R231). -/
def execHbBlock (body : List Nat) (s : State) : Outc := coreEvent s (fun s => s.blockIn body State.hbIn)

/-- The standby's checks against a STATE frame (R225), in synchronisation. -/
def State.stateCheck (s : State) (b : List Nat) : State :=
  let line := field b 5 5
  let p := field b 10 5
  let off := decide (1 < (sdiff40 s.encLine line).natAbs)
  let n := if off then s.pair.encBad + 1 else 0
  let s := { s with pair := { s.pair with encBad := n } }
  let far := match s.pair.posAt.find? (fun (e : Nat × Nat) => e.1 == line) with
    | some e => decide (max 1 (s.get R.TSL_CFG_POS_TOL) < (sdiff40 e.2 p).natAbs)
    | none => false
  if 2 ≤ n ∨ (s.path.armed = true ∧ far = true) then s.desync pcENCODER else s

/-- The coarse alignment of R243. -/
def State.coarse (s : State) (p : Nat) : State :=
  if s.pair.join = 4 ∧ s.pair.aligned = 0 then
    let src := s.lineSrc
    let d := unsigned 40 (sdiff40 p (s.posOf src))
    let s := (s.encLoad src p).put R.TSL_POS_DELTA_DELTA d
    { s with pair := { s.pair with aligned := if s.flag (R.ENC_CH_STAT_SPEED_VALID src) then 1 else 2 } }
  else s

/-- Axes compared with the primary's positions (R416). -/
def State.axCompare (s : State) (b : List Nat) : State :=
  s.forEach (List.range 8) (fun s n =>
    let d : Rat := ((s.axPos n - signed 32 (field b (48 + 4 * n) 4)).natAbs : Nat)
    if (2 : Rat) + absR (s.axis n).vel * 2 / 1000000 < d then s.setIn R.MOT_PAIR_DIFF n |>.ring srcMOT else s)

/-- A STATE frame on a standby (R141, R225, R243, R416).  The primary's line period travels in no frame: whether it differs by
more than 1 % is a free value. -/
def State.stateIn (s : State) (b : List Nat) : State :=
  let s := { s with pair := { s.pair with peerState := some b } }
  if s.mode ≠ .shadow then s
  else
    let s := s.put R.MOT_TOFF_TOFF (unsigned 32 (sdiff40 (field b 0 5) s.time40 + 300))
    let s := (s.coarse (field b 10 5)).axCompare b
    let s := if s.flag (R.ENC_CH_STAT_SPEED_VALID s.lineSrc) && s.freeVal 1 == 1 then s.took.raise R.ENC_STAT_PAIR_DIFF srcENC else s.took
    if s.synced then s.stateCheck b else s

/-- STATE_FRAME (R225). -/
def execStateFrame (body : List Nat) (s : State) : Outc :=
  coreEvent s (fun s => s.frameIn 0x23 body id (fun s b => s.stateIn (pairData b)))

/-- Loss of the partner's heartbeat (R231): PAIR_LIVE_I that still toggles means loss of the link alone. -/
def State.heartLost (s : State) : State :=
  let live := match s.pair.liveT with | some t => decide (s.now < t + s.detectTime) | none => false
  let s := s.put R.TSL_STAT_HB_OK 0
  if s.primary then (if s.pair.peerT.isSome then (({ s with pair := { s.pair with peerT := none } } : State).unpair) else s)
  else if s.mode = .shadow then
    let s := { s with pair := { s.pair with peerT := none } }
    if live then
      let s := s.linkLost
      if s.synced then s.desync pcLINK else if s.pair.join = 0 then s else s.joinFail pcLINK
    else (s.put R.TSL_STAT_PEER_LIVE 0).primaryLost
  else if s.pair.join ≠ 0 then s.linkLost.joinFail pcLINK
  else s

/-- HEARTBEAT_LOSS (R231): no HB has arrived for D. -/
def execHeartbeatLoss (s : State) : Outc := coreEvent s (fun s => s.heartLost)

/-- PAIR_LIVE_I_CHANGE (R231). -/
def execPairLiveIChange (level : Bool) (s : State) : Outc :=
  coreEvent s (fun s =>
    if s.pair.liveI = level then s
    else ({ s with pair := { s.pair with liveI := level, liveT := some s.now } } : State).put R.TSL_STAT_PEER_LIVE 1)

/-- FAULT_BLOCK (R224, R231): cause UNSYNC ends synchronisation, every other is the loss of the partner. -/
def State.faultIn (s : State) (b : List Nat) : State :=
  if field b 0 1 = 5 then (if s.primary then s else s.desync pcLOG_OVF)
  else if s.primary then s.unpair
  else if s.mode = .shadow then s.primaryLost
  else if s.pair.join ≠ 0 then s.joinFail pcNO_PRIMARY
  else s
def execFaultBlock (body : List Nat) (s : State) : Outc := coreEvent s (fun s => s.blockIn body State.faultIn)

/-! ## The log stream -/

/-- An ACK block (R217). -/
def State.ackOut (s : State) (nak : Bool) : State := s.pairBlock 0x71 (toBytes 4 (s.get R.TSL_LOG_RX_OFF) ++ [b2n nak, 0])

/-- Bytes of the stream at the expected offset (R217). -/
def State.logTake (s : State) (b : List Nat) : State :=
  let s := s.put R.TSL_LOG_RX_OFF (s.get R.TSL_LOG_RX_OFF + b.length)
  let s := { s with pair := { s.pair with rx := s.pair.rx ++ b } }
  (State.recordsIn (s.pair.rx.length / 16 + 1) s).ackOut false

/-- A LOG frame (R217): taken at the expected offset, NAKed beyond it.  The SYNCPT open that a join awaits gives the offset
the stream starts at (R241). -/
def State.logIn (s : State) (off : Nat) (b : List Nat) : State :=
  let opens := match recordOf b with | some (r, _) => r.opens | none => false
  if s.primary ∨ (s.mode ≠ .shadow ∧ s.pair.join ≠ 2) then s
  else if s.pair.join = 2 ∧ s.pair.items = [] ∧ opens = true then
    (({ s with pair := { s.pair with rx := [] } } : State).put R.TSL_LOG_RX_OFF off).logTake b
  else if s.mode ≠ .shadow ∧ s.pair.items = [] then s
  else if off = s.get R.TSL_LOG_RX_OFF then s.logTake b
  else s.ackOut (decide (0 < sdiff 32 off (s.get R.TSL_LOG_RX_OFF)))

/-- LOG_FRAME (R217): `valid` is false where the frame fails otherwise than by a code word. -/
def execLogFrame (body : List Nat) (valid : Bool) (s : State) : Outc :=
  coreEvent s (fun s =>
    let nak (s : State) : State := if s.mode = .shadow then s.ackOut true else s
    if valid then s.frameIn 0x21 body nak (fun s b => s.logIn (field b 0 4) (pairData b))
    else if s.pair.state < 3 then s else nak (s.bump R.TSL_LINKCNT_BADFRAME))

/-- The primary sends again from the acknowledged offset (R217). -/
def State.logAgain (s : State) : State :=
  let b := s.pair.buf.flatMap (fun (e : Nat × List Nat) => e.2)
  let ack := s.get R.TSL_LOG_ACK_OFF
  let have_ := (sdiff 32 (s.get R.TSL_LOG_TX_OFF) ack).toNat
  let b := b.drop (b.length - have_)
  if b.isEmpty then s else State.sendLog (b.length / 2048 + 1) (s.bump R.TSL_LINKCNT_RESEND) ack b

/-- The log steps the acknowledged offset has passed (R222). -/
def State.logSteps (s : State) : State :=
  let ack := s.get R.TSL_LOG_ACK_OFF
  let reached (e : Nat × LogStep) : Bool := decide (0 ≤ sdiff 32 ack e.1)
  let now := s.pair.steps.filter reached
  let rest := s.pair.steps.filter (fun (e : Nat × LogStep) => !reached e)
  let s := { s with pair := { s.pair with steps := rest, hold := s.pair.hold && !rest.isEmpty } }
  if now.any (fun (e : Nat × LogStep) => e.2 == .switchover) then s.switchOld else s

/-- An ACK block on the member whose log is open (R217, R222, R224). -/
def State.logAckIn (s : State) (off : Nat) (nak : Bool) : State :=
  if s.pair.logOpen = false then s
  else
    let ack := s.get R.TSL_LOG_ACK_OFF
    let tx := s.get R.TSL_LOG_TX_OFF
    let s := if 0 < sdiff 32 off ack ∧ sdiff 32 off tx ≤ 0 then
        let s := s.put R.TSL_LOG_ACK_OFF off
        let s := { s with pair := { s.pair with buf := s.pair.buf.filter (fun (e : Nat × List Nat) => decide (0 < sdiff 32 e.1 off)) } }
        s.ackBillets.logSteps
      else s
    if nak && s.pair.logOpen then s.logAgain else s

/-- LOG_ACK (R217). -/
def execLogAck (off : Nat) (nak : Bool) (s : State) : Outc := coreEvent s (fun s => s.logAckIn (off % 2 ^ 32) nak)

/-- LOG_RESEND (R217): 50 µs without progress of the ACK offset. -/
def execLogResend (s : State) : Outc := coreEvent s (fun s => if s.pair.logOpen then s.logAgain else s)

/-! ## Lines and verdicts -/

/-- An OCRC frame (R226–R228). -/
def State.ocrcIn (s : State) (b : List Nat) : State :=
  let n := field b 0 5
  let o : Ocrc := ⟨n, field b 5 3, field b 8 3, (List.range 24).map (fun (p : Nat) => field b (16 + 4 * p) 4)⟩
  let s := { s with pair := { s.pair with theirs := (o :: s.pair.theirs).take 32 } }
  let held := (s.pair.held.filter (fun (e : Nat × Nat) => e.1 == n)).map (fun (e : Nat × Nat) => e.2)
  (s.forEach held (fun s p => s.heldEnd n p)).ocrcCompare n

/-- OCRC_FRAME (R227). -/
def execOcrcFrame (body : List Nat) (s : State) : Outc :=
  coreEvent s (fun s => s.frameIn 0x22 body id (fun s b => s.ocrcIn (pairData b)))

/-- WITHHOLD_TIMEOUT (R228): 2.0 µs after the hand-off of a port-line held back. -/
def execWithholdTimeout (line p : Nat) (s : State) : Outc := coreEvent s (fun s => s.heldEnd line p)

/-- Verdicts of the standby's pipelines, logged as the primary's own (R209). -/
def State.verdIn (s : State) (b : List Nat) : State :=
  if s.primary && s.mode == .print then
    (pairWords b).foldl (fun (s : State) (e : Nat × Nat) =>
      if bits e.1 20 18 = 0 then s else s.verdictIn (bits e.1 17 0) (bits e.1 20 18) (bits e.1 23 21)) s
  else s

/-- VERD_FRAME (R209). -/
def execVerdFrame (body : List Nat) (s : State) : Outc :=
  coreEvent s (fun s => s.frameIn 0x24 body id (fun s b => s.verdIn (pairData b)))

/-! ## The link -/

/-- The lanes in use change. -/
def State.laneMask (s : State) (m : Nat) : State :=
  ({ s with pair := { s.pair with lanes := m } } : State).put R.TSL_STAT_LANES (popcount 4 m)

/-- A LANES block of this member. -/
def State.lanesOut (s : State) (m : Nat) : State := (s.laneMask m).pairBlock 0xE8 [m, 0, 0, 0, 0, 0]

/-- PAIR_LINK_TRAIN (R218): `k` below 4 is a lane, 4 the link.  A lane locks, or is restored to a link that is UP; the link
goes from LOCK to DESKEW, IDENT and UP, or starts again.  Two IDENT frames with one SIDE hold it in IDENT. -/
def State.linkTrain (s : State) (k : Nat) (ok : Bool) : State :=
  let go (n : Nat) (s : State) : State := { s with pair := { s.pair with state := n } }
  if s.acct.parted.any (fun (u : PartedUnit) => u.src == 42) then s
  else if k < 4 then
    if ok then
      let s := { s with pair := { s.pair with laneReady := setBit s.pair.laneReady k } }
      if s.pair.state = 4 then s.lanesOut (setBit s.pair.lanes k) else s
    else s
  else if !ok then { s with pair := { s.pair with state := 1, lanes := 0, laneReady := 0, ident := none } }
  else match s.pair.state with
    | 0 => go 1 s
    | 1 => if s.pair.laneReady = 0 then s else go 2 s
    | 2 => (go 3 s).sendIdent
    | 3 =>
      match s.pair.ident with
      | some b => if field b 24 1 = s.get R.TSL_STAT_SIDE then s else (go 4 s).laneMask s.pair.laneReady
      | none => s
    | _ => s
def execPairLinkTrain (k : Nat) (ok : Bool) (s : State) : Outc := coreEvent s (fun s => s.linkTrain k ok)

/-- IDENT_FRAME (R218). -/
def execIdentFrame (body : List Nat) (s : State) : Outc :=
  coreEvent s (fun s => s.frameIn 0x26 body id (fun s b => { s with pair := { s.pair with ident := some (pairData b) } }))

/-- LANES_BLOCK (R218): the partner's lanes in use. -/
def State.lanesIn (s : State) (m : Nat) : State :=
  let m := m % 16
  if s.pair.state ≠ 4 then s
  else
    let lost := decide (Nat.land s.pair.lanes m ≠ s.pair.lanes)
    let s := if lost then s.raise R.TSL_STAT_LANE_DOWN srcTSL else s
    if m = 0 then s.tslDown else s.laneMask m
def execLanesBlock (mask : Nat) (s : State) : Outc := coreEvent s (fun s => s.lanesIn mask)

/-- PAIR_LANE_LOST (R218). -/
def State.pairLaneLost (s : State) (k : Nat) : State :=
  let s := { s with pair := { s.pair with laneReady := clrBit s.pair.laneReady k } }
  if bit s.pair.lanes k = false then s
  else
    let m := clrBit s.pair.lanes k
    let s := s.raise R.TSL_STAT_LANE_DOWN srcTSL
    if m = 0 then s.tslDown else s.lanesOut m
def execPairLaneLost (k : Nat) (s : State) : Outc := coreEvent s (fun s => if k < 4 then s.pairLaneLost k else s)

/-! ## Joining -/

/-- RSYNC frames of an item (R242, log entry 48): offset it was read at, bytes of the whole copy, last part of the item. -/
def State.sendItem : Nat → State → Nat → Nat → List Nat → State
  | 0, s, _, _, _ => s
  | fuel + 1, s, off, all, b =>
    let s := s.pairFrame 0x25 0 (toBytes 4 off ++ toBytes 4 all ++ [b2n (decide (b.length ≤ 2032))] ++ b.take 2032)
    if b.length ≤ 2032 then s else State.sendItem fuel s off all (b.drop 2032)

/-- The primary opens the log for a join and sends its state (R224, R241, R242). -/
def State.joinOpen (s : State) : State :=
  let s := s.put R.TSL_LOG_ACK_OFF (s.get R.TSL_LOG_TX_OFF)
  let s := { s with pair := { s.pair with logOpen := true, buf := [], part := [], steps := [], hold := false, join := 2 } }
  let s := s.ackBillets
  let s := s.logOne 0x0A none 8 ([1, 0, 0, 0] ++ toBytes 5 s.encLine ++ toBytes 5 (s.get R.HLK_SEQ_SEQ) ++ [0, 0])
  let items := s.rsyncItems
  let all := (items.map List.length).foldl (· + ·) 0
  let off := s.get R.TSL_LOG_TX_OFF
  items.foldl (fun (s : State) (b : List Nat) => State.sendItem (b.length / 2032 + 1) s off all b) s

/-- The primary names boundary J, or the next log step where no line triggering is armed (R222, R241). -/
def State.joinAlign (s : State) : State :=
  let j := if s.path.armed then s.path.next + 64 else noLine
  let seq := if s.path.armed then s.nextSeq + (j - s.path.handed) else s.nextSeq
  let s := s.logOne 0x0A none 8 ([2, 0, 0, 0] ++ toBytes 5 j ++ toBytes 5 seq ++ [0, 0])
  let s := { s with pair := { s.pair with join := 4 } }
  if s.path.armed then s
  else { s with pair := { s.pair with steps := s.pair.steps ++ [(s.get R.TSL_LOG_TX_OFF, .align)], hold := true } }

/-- The partner is in SHADOW, as its last HB shows. -/
def State.peerShadow (s : State) : Bool :=
  match s.pair.peerHb with | some h => field h 2 1 % 16 == Mode.shadow.code | none => false

/-- The primary's part in a phase of its partner's join. -/
def State.joinServe (s : State) : State :=
  if !s.pairUp || !s.flag R.TSL_CFG_PAIR_EN || s.pairSynced then s
  else match s.pair.join with
    | 2 => if s.logOpen && s.peerShadow then s.joinAlign else s.joinOpen
    | 4 => { s with pair := { s.pair with join := 0 } }
    | _ => s.joinOpen

/-- HELLO (R241): the cause that ends a join, 0 for none. -/
def State.helloBad (s : State) : Nat :=
  match s.pair.ident with
  | none => pcMISMATCH
  | some b =>
    let prim := match s.pair.peerHb with | some h => bit (field h 2 1) 4 | none => field b 26 1 == 1
    if b.take 24 ≠ s.identBody.take 24 then pcMISMATCH else if prim then 0 else pcNO_PRIMARY

/-- The join's SYNCPT open has arrived. -/
def State.joinOpened (s : State) : Bool := s.pair.items.any (fun (e : Nat × List Nat) => e.2.take 3 == [0, 10, 1])

/-- A phase of this member's join ends and the next begins (R241, R243, R244); PROGRESS is 250 × the phase (R289). -/
def State.joinStep (s : State) : State :=
  match s.pair.join with
  | 1 => if s.helloBad ≠ 0 then s.joinFail s.helloBad else (s.joinPhase 2).setProgress opPAIR_JOIN 250
  | 2 =>
    if s.joinOpened then
      let s := (s.joinPhase 3).setProgress opPAIR_JOIN 500
      if s.mode = .shadow then s
      else
        let s := { s.setMode .shadow mcCOMMAND with synced := false }
        { s with follow := match s.pair.peerHb with | some h => Mode.ofCode (field h 2 1 % 16) | none => .idle }
    else s
  | 3 => if s.pair.copied = s.pair.copyAll ∧ s.pair.chunk = [] ∧ 0 < s.pair.copyAll then
      (s.copyDone.joinPhase 4).setProgress opPAIR_JOIN 750 else s
  | 4 => if s.pair.alignAt.isSome ∧ s.pair.aligned = 2 then (s.joinPhase 5).setProgress opPAIR_JOIN 1000 else s
  | 5 =>
    if s.path.armed then s
    else ({ s with pair := { s.pair with syncDue := true } } : State).syncNow
  | _ => s

/-- JOIN_PHASE_END (R241). -/
def execJoinPhaseEnd (s : State) : Outc := coreEvent s (fun s => if s.primary then s.joinServe else s.joinStep)

/-- An RSYNC frame (R242): parts of an item, each whole item with its offset. -/
def State.rsyncIn (s : State) (b : List Nat) : State :=
  if s.primary = true ∨ (s.pair.join ≠ 2 ∧ s.pair.join ≠ 3) then s
  else
    let part := b.drop 9
    let chunk := s.pair.chunk ++ part
    let all := field b 4 4
    let last := field b 8 1 == 1
    let n := s.pair.copied + part.length
    let s := { s with pair := { s.pair with
      copied := n, copyAll := all
      chunk := if last then [] else chunk
      items := if last then s.pair.items ++ [(field b 0 4, chunk)] else s.pair.items } }
    if s.pair.join = 3 ∧ 0 < all then s.setProgress opPAIR_JOIN (500 + 250 * n / all) else s

/-- RSYNC_FRAME (R242). -/
def execRsyncFrame (body : List Nat) (s : State) : Outc :=
  coreEvent s (fun s => s.frameIn 0x25 body id (fun s b => s.rsyncIn (pairData b)))

/-- ALIGN_TIMEOUT (R241). -/
def execAlignTimeout (s : State) : Outc :=
  coreEvent s (fun s => if s.primary = false ∧ s.pair.join = 4 then s.joinFail pcALIGN else s)

/-- VERIFY_TIMEOUT (R241). -/
def execVerifyTimeout (s : State) : Outc :=
  coreEvent s (fun s => if s.primary = false ∧ s.pair.join = 5 then s.joinFail pcDIVERGE else s)

/-! ## Commands -/

/-- PAIR_JOIN (R241, R289). -/
def State.cmdPairJoin (s : State) (c : Cmd) : State :=
  if s.primary then s.finish c 0x0171
  else if !s.flag R.TSL_CFG_PAIR_EN || !s.pairUp then s.finish c 0x0174
  else (s.startLong c).joinDrop.joinPhase 1
def execPairJoin (r : SlotRef) (s : State) : Outc := withCmd s r opPAIR_JOIN State.cmdPairJoin

/-- A transition is in progress on the partner, as its last HB shows (R45). -/
def State.peerTrans (s : State) : Bool := match s.pair.peerHb with | some h => bit (field h 2 1) 6 | none => false

/-- PAIR_SWITCHOVER (R45, R222, R245, R289). -/
def State.cmdPairSwitchover (s : State) (c : Cmd) : State :=
  let p := s.payloadOf c
  let at_ := bit (field p 0 1) 0
  let line := field p 3 5
  let far := s.path.next + 15
  let res (n : Nat) : List Nat := toBytes 5 n ++ [0, 0, 0]
  if !s.primary then s.finish c 0x0172
  else if !s.flag R.TSL_CFG_PAIR_EN || !s.pairUp then s.finish c 0x0174
  else if s.pairSynced = false ∨ s.logOpen = false ∨ s.trans = true ∨ s.peerTrans = true ∨ s.pair.switchAt.isSome = true then s.finish c stWRONG_MODE
  else if 2 ≤ field p 0 1 ∨ resv p [(1, 2)] = true ∨ (at_ = false ∧ line ≠ 0) then s.finish c stBAD_PARAM
  else if s.path.armed then
    if at_ = true ∧ line < far then s.finish c stBAD_PARAM
    else
      let n := if at_ then line else far
      let s := s.logAdd 0x07 (some (s.path.next - 1 + s.logLead)) 0 ([8, 0] ++ List.replicate 6 0 ++ toBytes 8 n)
      (({ s with pair := { s.pair with switchAt := some n } } : State).finish c stOK 0 (res n))
  else if at_ then s.finish c stBAD_PARAM
  else
    let s := (s.logAdd 0x07 none 0 ([8, 0] ++ List.replicate 14 0)).finish c stOK 0 (res 0)
    let s := ({ s with primary := false } : State).releaseGated
    { s with pair := { s.pair with steps := s.pair.steps ++ [(s.get R.TSL_LOG_TX_OFF, .switchover)], hold := true } }
def execPairSwitchover (r : SlotRef) (s : State) : Outc := withCmd s r opPAIR_SWITCHOVER State.cmdPairSwitchover

/-- PAIR_LEAVE (R245, R289): SHADOW ends in IDLE with PRIMARY = 0; a join in progress completes ABORTED. -/
def State.cmdPairLeave (s : State) (c : Cmd) : State :=
  if s.primary ∨ (s.mode ≠ .shadow ∧ s.pair.join = 0) then s.finish c 0x0173
  else
    let s := if s.pair.join = 0 then s
      else
        let s := ((s.put R.TSL_STAT_CAUSE pcABORTED).raise R.TSL_STAT_JOIN_FAIL srcTSL).pairEvent 6 pcABORTED s.encLine
        s.finishLong opPAIR_JOIN stABORTED pcABORTED
    let s := (s.joinPhase 0).joinDrop.dropSkew.discardAll.maintOff
    let s := ({ s with synced := false, pair := { s.pair with quiet := false, syncDue := false, due := [], rx := [], switchAt := none } } : State)
    let s := s.put R.HLK_CLAIM_CLAIM 0
    (if s.mode = .shadow then s.setMode .idle mcCOMMAND else s).finish c stOK
def execPairLeave (r : SlotRef) (s : State) : Outc := withCmd s r opPAIR_LEAVE State.cmdPairLeave

end Sys2Proof.Machine
end

