-- ==== Sys2Proof/Machine/Dispatch.lean ====
section
/-! DEFINITION. What each command does: one arm per row of the opcode table, each one call of its meaning. -/

namespace Sys2Proof.Machine

/-- The effect of a command on everything but the queue. -/
def exec (i : Instr) (s : State) : Host.Outcome State Fault Refusal :=
  match i with
  | .powerOnReset => Sys2Proof.Machine.execPowerOnReset s
  | .resetNAssert lowNs => Sys2Proof.Machine.execResetNAssert lowNs s
  | .resetRelease s0 s1 s2 => Sys2Proof.Machine.execResetRelease s0 s1 s2 s
  | .bootWatchdog => Sys2Proof.Machine.execBootWatchdog s
  | .bootStepEnd ok mask => Sys2Proof.Machine.execBootStepEnd ok mask s
  | .railPowerGood k => Sys2Proof.Machine.execRailPowerGood k s
  | .railPgTimeout k => Sys2Proof.Machine.execRailPgTimeout k s
  | .undervoltageTrip k => Sys2Proof.Machine.execUndervoltageTrip k s
  | .railRetention => Sys2Proof.Machine.execRailRetention s
  | .housekeepingSlot value valid => Sys2Proof.Machine.execHousekeepingSlot value valid s
  | .housekeepingRoundEnd => Sys2Proof.Machine.execHousekeepingRoundEnd s
  | .avsResponse ok => Sys2Proof.Machine.execAvsResponse ok s
  | .avsTimeout => Sys2Proof.Machine.execAvsTimeout s
  | .hvPgFall g => Sys2Proof.Machine.execHvPgFall g s
  | .hvPgTimeout g => Sys2Proof.Machine.execHvPgTimeout g s
  | .aliveToggle => Sys2Proof.Machine.execAliveToggle s
  | .aliveServiceTimeout => Sys2Proof.Machine.execAliveServiceTimeout s
  | .encoderCount n edge t => Sys2Proof.Machine.execEncoderCount n edge t s
  | .referenceMark n t => Sys2Proof.Machine.execReferenceMark n t s
  | .standstill n => Sys2Proof.Machine.execStandstill n s
  | .triggerInstant => Sys2Proof.Machine.execTriggerInstant s
  | .lineBoundary txLate => Sys2Proof.Machine.execLineBoundary txLate s
  | .hbTimer => Sys2Proof.Machine.execHbTimer s
  | .xchkWindowEnd => Sys2Proof.Machine.execXchkWindowEnd s
  | .xchkLoss => Sys2Proof.Machine.execXchkLoss s
  | .encPosSet n v => Sys2Proof.Machine.execEncPosSet n v s
  | .ceilPwmPeriod => Sys2Proof.Machine.execCeilPwmPeriod s
  | .overspeedRelease => Sys2Proof.Machine.execOverspeedRelease s
  | .cmpEnable k v => Sys2Proof.Machine.execCmpEnable k v s
  | .cmpEndWrite k v => Sys2Proof.Machine.execCmpEndWrite k v s
  | .cmpEntryFire k => Sys2Proof.Machine.execCmpEntryFire k s
  | .cmpPulseEnd k => Sys2Proof.Machine.execCmpPulseEnd k s
  | .laneRenderDone lane tau shadowOk => Sys2Proof.Machine.execLaneRenderDone lane tau shadowOk s
  | .paceStepDown => Sys2Proof.Machine.execPaceStepDown s
  | .paceLow => Sys2Proof.Machine.execPaceLow s
  | .spareRotate => Sys2Proof.Machine.execSpareRotate s
  | .katPeriodic => Sys2Proof.Machine.execKatPeriodic s
  | .katRun => Sys2Proof.Machine.execKatRun s
  | .katDone phys pass => Sys2Proof.Machine.execKatDone phys pass s
  | .stagingDone col band ok => Sys2Proof.Machine.execStagingDone col band ok s
  | .tileLineWritten dec => Sys2Proof.Machine.execTileLineWritten dec s
  | .decompressDone dec => Sys2Proof.Machine.execDecompressDone dec s
  | .decompInvalid dec cause pos => Sys2Proof.Machine.execDecompInvalid dec cause pos s
  | .decompDisagree dec => Sys2Proof.Machine.execDecompDisagree dec s
  | .sramScrub store loc word => Sys2Proof.Machine.execSramScrub store loc word s
  | .ingRingDoorbell n tail => Sys2Proof.Machine.execIngRingDoorbell n tail s
  | .descriptorTake => Sys2Proof.Machine.execDescriptorTake s
  | .hostReadDone ok bytes => Sys2Proof.Machine.execHostReadDone ok bytes s
  | .compressDone k mismatch => Sys2Proof.Machine.execCompressDone k mismatch s
  | .ringEnable n en => Sys2Proof.Machine.execRingEnable n en s
  | .ringFlush n => Sys2Proof.Machine.execRingFlush n s
  | .cqdoneWrite n v => Sys2Proof.Machine.execCqdoneWrite n v s
  | .skewWrite p v => Sys2Proof.Machine.execSkewWrite p v s
  | .skewArm p v => Sys2Proof.Machine.execSkewArm p v s
  | .commitGo v => Sys2Proof.Machine.execCommitGo v s
  | .ovlWrite e v => Sys2Proof.Machine.execOvlWrite e v s
  | .statFrame p body => Sys2Proof.Machine.execStatFrame p body s
  | .tempLost p => Sys2Proof.Machine.execTempLost p s
  | .normalDecision => Sys2Proof.Machine.execNormalDecision s
  | .resFrame p body => Sys2Proof.Machine.execResFrame p body s
  | .ackFrame p body => Sys2Proof.Machine.execAckFrame p body s
  | .memFrame p body => Sys2Proof.Machine.execMemFrame p body s
  | .waveAnswerTimeout => Sys2Proof.Machine.execWaveAnswerTimeout s
  | .waveCommitTimeout => Sys2Proof.Machine.execWaveCommitTimeout s
  | .waveReloadRetry p => Sys2Proof.Machine.execWaveReloadRetry p s
  | .linkTrainStep p ok body => Sys2Proof.Machine.execLinkTrainStep p ok body s
  | .trainRetry p => Sys2Proof.Machine.execTrainRetry p s
  | .linkLockLost p => Sys2Proof.Machine.execLinkLockLost p s
  | .laneRestore p => Sys2Proof.Machine.execLaneRestore p s
  | .hlkEnWrite p v => Sys2Proof.Machine.execHlkEnWrite p v s
  | .hlkRetrain p => Sys2Proof.Machine.execHlkRetrain p s
  | .usageInc p => Sys2Proof.Machine.execUsageInc p s
  | .usageTimeout p => Sys2Proof.Machine.execUsageTimeout p s
  | .headFrame h input body => Sys2Proof.Machine.execHeadFrame h input body s
  | .headMarker h input body => Sys2Proof.Machine.execHeadMarker h input body s
  | .headDecision h => Sys2Proof.Machine.execHeadDecision h s
  | .headLockTimeout h => Sys2Proof.Machine.execHeadLockTimeout h s
  | .frameStart n num => Sys2Proof.Machine.execFrameStart n num s
  | .imageLine n pixels flags => Sys2Proof.Machine.execImageLine n pixels flags s
  | .frameEnd n => Sys2Proof.Machine.execFrameEnd n s
  | .captureReq n v => Sys2Proof.Machine.execCaptureReq n v s
  | .captureDone n => Sys2Proof.Machine.execCaptureDone n s
  | .captureNoFrame n => Sys2Proof.Machine.execCaptureNoFrame n s
  | .hbBlock body => Sys2Proof.Machine.execHbBlock body s
  | .stateFrame body => Sys2Proof.Machine.execStateFrame body s
  | .logFrame body valid => Sys2Proof.Machine.execLogFrame body valid s
  | .logAck off nak => Sys2Proof.Machine.execLogAck off nak s
  | .logResend => Sys2Proof.Machine.execLogResend s
  | .ocrcFrame body => Sys2Proof.Machine.execOcrcFrame body s
  | .verdFrame body => Sys2Proof.Machine.execVerdFrame body s
  | .faultBlock body => Sys2Proof.Machine.execFaultBlock body s
  | .rsyncFrame body => Sys2Proof.Machine.execRsyncFrame body s
  | .identFrame body => Sys2Proof.Machine.execIdentFrame body s
  | .lanesBlock mask => Sys2Proof.Machine.execLanesBlock mask s
  | .pairLaneLost k => Sys2Proof.Machine.execPairLaneLost k s
  | .heartbeatLoss => Sys2Proof.Machine.execHeartbeatLoss s
  | .withholdTimeout line p => Sys2Proof.Machine.execWithholdTimeout line p s
  | .joinPhaseEnd => Sys2Proof.Machine.execJoinPhaseEnd s
  | .alignTimeout => Sys2Proof.Machine.execAlignTimeout s
  | .verifyTimeout => Sys2Proof.Machine.execVerifyTimeout s
  | .hostReset => Sys2Proof.Machine.execHostReset s
  | .cqHeadWrite v => Sys2Proof.Machine.execCqHeadWrite v s
  | .irqGapEnd vec => Sys2Proof.Machine.execIrqGapEnd vec s
  | .longProgress r => Sys2Proof.Machine.execLongProgress r s
  | .bilDatagram d => Sys2Proof.Machine.execBilDatagram d s
  | .bilTimeout => Sys2Proof.Machine.execBilTimeout s
  | .udpSessionTimeout => Sys2Proof.Machine.execUdpSessionTimeout s
  | .identify r => Sys2Proof.Machine.execIdentify r s
  | .udpOpen r => Sys2Proof.Machine.execUdpOpen r s
  | .udpClose r => Sys2Proof.Machine.execUdpClose r s
  | .echo r => Sys2Proof.Machine.execEcho r s
  | .jobDefine r => Sys2Proof.Machine.execJobDefine r s
  | .jobStart r => Sys2Proof.Machine.execJobStart r s
  | .jobStop r => Sys2Proof.Machine.execJobStop r s
  | .jobAbort r => Sys2Proof.Machine.execJobAbort r s
  | .jobPurge r => Sys2Proof.Machine.execJobPurge r s
  | .geometrySet r => Sys2Proof.Machine.execGeometrySet r s
  | .skewSet r => Sys2Proof.Machine.execSkewSet r s
  | .waveStage r => Sys2Proof.Machine.execWaveStage r s
  | .waveLoad r => Sys2Proof.Machine.execWaveLoad r s
  | .calStart r => Sys2Proof.Machine.execCalStart r s
  | .calSweepStep ok data => Sys2Proof.Machine.execCalSweepStep ok data s
  | .calCommit ok => Sys2Proof.Machine.execCalCommit ok s
  | .calAbort r => Sys2Proof.Machine.execCalAbort r s
  | .calStatus r => Sys2Proof.Machine.execCalStatus r s
  | .maintDefine r => Sys2Proof.Machine.execMaintDefine r s
  | .maintStart r => Sys2Proof.Machine.execMaintStart r s
  | .maintStepEnd ok => Sys2Proof.Machine.execMaintStepEnd ok s
  | .spitLine => Sys2Proof.Machine.execSpitLine s
  | .maintStop r => Sys2Proof.Machine.execMaintStop r s
  | .move r => Sys2Proof.Machine.execMove r s
  | .moveGroup r => Sys2Proof.Machine.execMoveGroup r s
  | .home r => Sys2Proof.Machine.execHome r s
  | .axisStop r => Sys2Proof.Machine.execAxisStop r s
  | .capture r => Sys2Proof.Machine.execCapture r s
  | .statsRing r => Sys2Proof.Machine.execStatsRing r s
  | .grainWrite r => Sys2Proof.Machine.execGrainWrite r s
  | .snapshot r => Sys2Proof.Machine.execSnapshot r s
  | .dropRead r => Sys2Proof.Machine.execDropRead r s
  | .pairJoin r => Sys2Proof.Machine.execPairJoin r s
  | .pairSwitchover r => Sys2Proof.Machine.execPairSwitchover r s
  | .pairLeave r => Sys2Proof.Machine.execPairLeave r s
  | .ptpConfig r => Sys2Proof.Machine.execPtpConfig r s
  | .regRead r => Sys2Proof.Machine.execRegRead r s
  | .regWrite r => Sys2Proof.Machine.execRegWrite r s
  | .blockRead r => Sys2Proof.Machine.execBlockRead r s
  | .faultClear r => Sys2Proof.Machine.execFaultClear r s
  | .softReset r => Sys2Proof.Machine.execSoftReset r s
  | .journalRead r => Sys2Proof.Machine.execJournalRead r s
  | .usageKey r => Sys2Proof.Machine.execUsageKey r s
  | .headMemRead r => Sys2Proof.Machine.execHeadMemRead r s
  | .hicDoorbell core v => Sys2Proof.Machine.execHicDoorbell core v s
  | .hicClaim core w v => Sys2Proof.Machine.execHicClaim core w v s
  | .hicEoi core v => Sys2Proof.Machine.execHicEoi core v s
  | .hicRouteWrite core src v => Sys2Proof.Machine.execHicRouteWrite core src v s
  | .hicPendSet core w v => Sys2Proof.Machine.execHicPendSet core w v s
  | .hicPendClr core w v => Sys2Proof.Machine.execHicPendClr core w v s
  | .hicEnSet core w v => Sys2Proof.Machine.execHicEnSet core w v s
  | .hicEnClr core w v => Sys2Proof.Machine.execHicEnClr core w v s
  | .hicExtWrite core n v => Sys2Proof.Machine.execHicExtWrite core n v s
  | .extIrqEdge n level => Sys2Proof.Machine.execExtIrqEdge n level s
  | .redirectTimeout src => Sys2Proof.Machine.execRedirectTimeout src s
  | .hicTimer n => Sys2Proof.Machine.execHicTimer n s
  | .coreSleep c => Sys2Proof.Machine.execCoreSleep c s
  | .accessFault core addr kind => Sys2Proof.Machine.execAccessFault core addr kind s
  | .alertFall c => Sys2Proof.Machine.execAlertFall c s
  | .alertRise c => Sys2Proof.Machine.execAlertRise c s
  | .refresh c => Sys2Proof.Machine.execRefresh c s
  | .zqcs c rank => Sys2Proof.Machine.execZqcs c rank s
  | .dramScrub c addr words => Sys2Proof.Machine.execDramScrub c addr words s
  | .relayout => Sys2Proof.Machine.execRelayout s
  | .syncMessage port msg => Sys2Proof.Machine.execSyncMessage port msg s
  | .announceMessage port msg => Sys2Proof.Machine.execAnnounceMessage port msg s
  | .delayMessage port msg => Sys2Proof.Machine.execDelayMessage port msg s
  | .announceTimeout port => Sys2Proof.Machine.execAnnounceTimeout port s
  | .tmbReacq => Sys2Proof.Machine.execTmbReacq s
  | .tmbCfgWrite v => Sys2Proof.Machine.execTmbCfgWrite v s
  | .errorReport src unit cause => Sys2Proof.Machine.execErrorReport src unit cause s
  | .unitRestore src unit => Sys2Proof.Machine.execUnitRestore src unit s
  | .fltClear mask => Sys2Proof.Machine.execFltClear mask s
  | .cntSnapReq v => Sys2Proof.Machine.execCntSnapReq v s
  | .snapshotComplete => Sys2Proof.Machine.execSnapshotComplete s
  | .drainReq => Sys2Proof.Machine.execDrainReq s
  | .drainDone => Sys2Proof.Machine.execDrainDone s
  | .profileTick => Sys2Proof.Machine.execProfileTick s
  | .moveStart ax => Sys2Proof.Machine.execMoveStart ax s
  | .stallAccept ax => Sys2Proof.Machine.execStallAccept ax s
  | .homeBackoff ax => Sys2Proof.Machine.execHomeBackoff ax s
  | .dfaultAccept ax => Sys2Proof.Machine.execDfaultAccept ax s
  | .ssiFrame k raw ok => Sys2Proof.Machine.execSsiFrame k raw ok s
  | .drvEnWrite ax v => Sys2Proof.Machine.execDrvEnWrite ax v s
  | .drvenFall ax => Sys2Proof.Machine.execDrvenFall ax s
  | .rebase ax => Sys2Proof.Machine.execRebase ax s
  | .registerWrite w addr v => Sys2Proof.Machine.execRegisterWrite w addr v s
  | .mbxDoorbell src => Sys2Proof.Machine.execMbxDoorbell src s
  | .pcieLinkUp => Sys2Proof.Machine.execPcieLinkUp s
  | .perstNRelease => Sys2Proof.Machine.execPerstNRelease s
  | .pairLinkTrain k ok => Sys2Proof.Machine.execPairLinkTrain k ok s
  | .pairLiveIChange level => Sys2Proof.Machine.execPairLiveIChange level s
  | .memReadTimeout p => Sys2Proof.Machine.execMemReadTimeout p s
  | .sweepLine => Sys2Proof.Machine.execSweepLine s
  | .dfaultInactive ax => Sys2Proof.Machine.execDfaultInactive ax s
  | .statNone h => Sys2Proof.Machine.execStatNone h s

end Sys2Proof.Machine
end

