-- ==== Sys2Proof/Machine/Idle.lean ====
section
/-! DEFINITION. What passes on an empty queue: one tick of 0.625 ns (log entry 1). -/

namespace Sys2Proof.Machine

/-- D after the last change or heartbeat, PEER_LIVE and HB_OK fall (R231, Table 10.8). -/
def State.liveAge (s : State) : State :=
  let old (t : Option Nat) : Bool := match t with | some t => decide (t + s.detectTime ≤ s.now) | none => true
  let s := if s.flag R.TSL_STAT_PEER_LIVE && old s.pair.liveT then s.put R.TSL_STAT_PEER_LIVE 0 else s
  if s.flag R.TSL_STAT_HB_OK && old s.pair.peerT then s.put R.TSL_STAT_HB_OK 0 else s

/-- One tick: the model's clock and TIME40 advance (R9, R349). -/
def State.idleTick (s : State) : State := s.timeTick.liveAge

end Sys2Proof.Machine
end

