-- ==== Sys2Proof/Safety.lean ====
section
/-! DEFINITION. The words the statements are written in: which registers a command leaves alone, what an accepted mailbox
command is, what its final completion shows, and the safety property of the thermal latch. -/

namespace Sys2Proof.Machine

/-- A key outside the registers of the interrupt controller (0x4000_0000) and the mailbox block (0x4010_0000): what an
interrupt ring, an event or a completion entry can change lies inside. -/
def outside (k : Nat) : Prop :=
  (k < 0x40000000 * 32 ∨ 0x40010000 * 32 ≤ k) ∧ (k < 0x40100000 * 32 ∨ 0x40120000 * 32 ≤ k)

/-- Every register field but those named reads as before. -/
def RegsKept (fs : List Fld) (s t : State) : Prop := ∀ f : Fld, (∀ g ∈ fs, f.key ≠ g.key) → t.get f = s.get f

/-- Every register field but those named and those of the interrupt controller and the mailbox block reads as before. -/
def RegsKeptOutside (fs : List Fld) (s t : State) : Prop :=
  ∀ f : Fld, outside f.key → (∀ g ∈ fs, f.key ≠ g.key) → t.get f = s.get f

/-- What a command's work answers: the always-on domain and the queue stay those of the state before. -/
def State.framed (s t : State) : State := { t with aon := s.aon, pending := s.pending }

/-- In the thermal latch the block is in SAFE (R47). -/
def LatchSafe (s : State) : Prop := s.aon.thermLatch = true → s.mode = .safe

/-- Rows of the always-on domain, which act, or may, where nothing else runs (R47, R297). -/
def alwaysOn : Instr → Bool
  | .powerOnReset => true
  | .railRetention => true
  | .housekeepingSlot _ _ => true
  | _ => false

/-- An accepted command stands in its slot and its turn has come: the core logic runs, the vendor firmware executes commands,
FENCE and the order of commit hold nothing up (R251, R256). -/
structure Turn (s : State) (c : Cmd) (op : Nat) : Prop where
  running : s.running = true
  slot : c.ref.slot < 64
  opcode : c.op = op
  found : s.mbx.cmds.find? (fun d => d.ref == c.ref && d.op == op && !d.running) = some c
  turn : s.mayRun c = true
  cores : s.boot.coresUp = true

/-- Such a command, which the mode admits (R36). -/
structure Waiting (s : State) (c : Cmd) (op : Nat) : Prop extends Turn s c op where
  admitted : s.admission op (s.payloadOf c) = 0

/-- The first six bytes of a completion entry (Table 11.6): tag, opcode, status. -/
def entryHead (c : Cmd) (status : Nat) : List Nat := toBytes 2 c.tag ++ toBytes 2 c.op ++ toBytes 2 status

/-- The final completion of a command (R252): its slot is free again, the completion is counted, a state-changing command
enters the tag table, and the entry is in the completion queue or leaves as a datagram.  Beside that it changes nothing: every
register outside the interrupt controller, the mailbox block and the virtual slots of UDP keeps its value, but for the count of
completions and the offset of the pair log; and of the rest only the host interface, the pair log and the output record move. -/
structure Completed (s t : State) (c : Cmd) (status detail : Nat) (result : List Nat) : Prop where
  cmds : t.mbx.cmds = s.mbx.cmds.filter (fun d => d.ref != c.ref)
  unlocked : t.isLocked c.ref = false
  counted : t.get R.CNT_MBX_FINAL_COUNT = (s.get R.CNT_MBX_FINAL_COUNT + 1) % 2 ^ 40
  tag : cmdChanges c.op = true → t.mbx.tags.head? = some ⟨c.tag, c.op, status, detail, result.take 240⟩
  answer : result.length ≤ 240 → (∀ b ∈ result, b < 256) → t.bytesAt (slotBase c.ref + 0x10) result.length = result
  entry : c.discard = false → c.ref.transport = .bar → ∃ i < 2048, t.bytesAt (0x40110000 + 32 * i) 6 = entryHead c status
  datagram : c.discard = false → c.ref.transport = .udp → ∃ d, .udp 2 d ∈ t.out ∧ (d.drop 16).take 6 = entryHead c status
  kept : ∀ f : Fld, outside f.key → f.key < 0x100000000 * 32 → f.key ≠ R.TSL_LOG_TX_OFF.key → f.key ≠ R.CNT_MBX_FINAL_COUNT.key →
    t.get f = s.get f
  rest : t = { s with regs := t.regs, mbx := t.mbx, pair := t.pair, out := t.out, aon := t.aon, pending := t.pending }

/-- A frame of the pair link that can be received (R216): the link is past DESKEW, no code word is uncorrectable, the type is the
one expected and the length is within the body. -/
structure PairFrameOk (s : State) (ftype : Nat) (body : List Nat) : Prop where
  running : s.running = true
  up : 3 ≤ s.pair.state
  clean : (codeWords body).any wordBad = false
  type : field (wordData (codeWords body)) 8 1 = ftype
  short : field (wordData (codeWords body)) 10 2 ≤ 2048
  inside : 16 + field (wordData (codeWords body)) 10 2 ≤ (wordData (codeWords body)).length

/-- The state in which the data of a received frame act: corrections are counted and the partner's claim is shown. -/
def State.received (s : State) (body : List Nat) : State :=
  (s.payloadIn 8 body).1.put R.TSL_PEER_CLAIM_CLAIM (field (wordData (codeWords body)) 4 4)

end Sys2Proof.Machine
end

