-- ==== Sys2Proof/Certificates/Slice0/Obligations.lean ====
section
/-! DEFINITION. The statements, each a proposition about the machine; OBLIGATIONS.json lists them with what they rest on. -/

open Sys2Proof Sys2Proof.Machine

/-! ## The machine as a whole -/

/-- A step takes the command at the front of the queue and runs it with the queue's rest. -/
def Obligations.StepRunsFront : Prop :=
  ∀ (c : Instr) (rest : List Instr) (s : State),
    Machine.step { s with pending := c :: rest } = exec c { s with pending := rest }

/-- On an empty queue one tick of 0.625 ns passes: TIME40 advances by TMB_RATE over its accumulator of 2⁻⁴³ ns, and beside the
clocks only the two flags of the partner's life can fall (that a step on an empty queue is a tick is the model's choice, log entry
1). -/
def Obligations.IdleTickPasses : Prop :=
  ∀ s : State, s.pending = [] → ∃ t, Machine.step s = .next t ∧ t.now = s.now + 1 ∧
    (let acc := s.subNs + (5 * ((2 ^ 40 : Nat) + signed 32 (s.get R.TMB_RATE_R))).toNat
     t.time40 = (s.time40 + acc / 2 ^ 43) % 2 ^ 40 ∧ t.subNs = acc % 2 ^ 43) ∧
    t = { s with regs := t.regs, now := t.now, time40 := t.time40, subNs := t.subNs, tmb := t.tmb } ∧
    RegsKept [R.TSL_STAT_PEER_LIVE, R.TSL_STAT_HB_OK] s t

/-- At reset the block is in BOOT at step 1 with nothing waiting, no cause of SAFE, no latch, in the register table's canonical form
with every register at its reset value. -/
def Obligations.ResetState : Prop :=
  State.reset.mode = .boot ∧ State.reset.pending = [] ∧ State.reset.safeCause = 0xFF ∧ State.reset.aon.thermLatch = false ∧
    (∀ f : Fld, State.reset.get f = dfltReg f.key % 2 ^ f.width) ∧ State.reset.get R.BTJ_STAT_STEP = 1 ∧
    Cells.wf dfltReg State.reset.regs = true

/-- The safety property of the thermal latch holds at reset. -/
def Obligations.LatchSafeAtReset : Prop := LatchSafe State.reset

/-- In every state that has the property, a step keeps it: with THERM_LATCH set the block is in SAFE, whatever command comes. -/
def Obligations.LatchSafeKept : Prop := ∀ s t : State, LatchSafe s → Machine.step s = .next t → LatchSafe t

/-- No command changes the queue of the commands that wait. -/
def Obligations.CommandsKeepQueue : Prop := ∀ (c : Instr) (s t : State), exec c s = .next t → t.pending = s.pending

/-- In the thermal latch a command outside the always-on domain has no effect at all: nothing but the always-on domain runs. -/
def Obligations.LatchStopsCommands : Prop :=
  ∀ (c : Instr) (s : State), s.aon.thermLatch = true → alwaysOn c = false → exec c s = .next s

/-- No command outside the always-on domain, the boot and the faults changes that domain: the latch, the cause of reset, the retention
of the core rails. -/
def Obligations.CommandsKeepAlwaysOn : Prop :=
  ∀ (c : Instr) (s t : State), exec c s = .next t →
    (match c with
      | .powerOnReset => True | .resetNAssert _ => True | .bootWatchdog => True | .bootStepEnd _ _ => True | .railRetention => True
      | .housekeepingRoundEnd => True | .errorReport _ _ _ => True | .softReset _ => True
      | _ => t.aon = s.aon)

/-! ## Reset and boot (chapter 13) -/

/-- Every reset source takes the chip to RESET and shows its own bit of BTJ_RSTCAUSE; the fuses and the flash keep their contents.
RESET_N resets from 1 µs, and from 1 s it is a clean reset; below 200 ns nothing happens; in the thermal latch RESET_N and the boot
watchdog have no effect, and removal of the always-on supply ends the latch. -/
def Obligations.ResetSources : Prop :=
  (∀ s : State, ∃ t, exec .powerOnReset s = .next t ∧ t.mode = .reset ∧ t.aon.thermLatch = false ∧ t.fuse = s.fuse ∧ t.flash = s.flash ∧
    t.get R.BTJ_RSTCAUSE_POR = 1 ∧ t.get R.BTJ_RSTCAUSE_PIN = 0 ∧ t.get R.BTJ_RSTCAUSE_SOFT = 0 ∧ t.get R.BTJ_RSTCAUSE_WDOG = 0) ∧
  (∀ (s : State) (n : Nat), s.aon.thermLatch = false → 1000 ≤ n →
    ∃ t, exec (.resetNAssert n) s = .next t ∧ t.mode = .reset ∧ t.fuse = s.fuse ∧ t.flash = s.flash ∧ t.get R.BTJ_RSTCAUSE_POR = 0 ∧
      t.get R.BTJ_RSTCAUSE_PIN = 1 ∧ t.get R.BTJ_RSTCAUSE_CLEAN = (if 1000000000 ≤ n then 1 else 0)) ∧
  (∀ (s : State) (n : Nat), n < 200 → exec (.resetNAssert n) s = .next s) ∧
  (∀ s : State, s.aon.thermLatch = false → s.mode = .boot →
    ∃ t, exec .bootWatchdog s = .next t ∧ t.mode = .reset ∧ t.fuse = s.fuse ∧ t.flash = s.flash ∧ t.get R.BTJ_RSTCAUSE_WDOG = 1 ∧
      t.get R.BTJ_RSTCAUSE_PIN = 0) ∧
  (∀ (s : State) (n : Nat), s.aon.thermLatch = true → exec (.resetNAssert n) s = .next s ∧ exec .bootWatchdog s = .next s)

/-- The release of reset starts BOOT: TIME40 runs from 0, the straps are the majority of three samples bit by bit, UNSTABLE says
that the samples differ. The first boot steps: step 1 shows the security versions of the fuses and step 2 begins with the enable of
rail 1; when all seven rails are good step 3 begins; step 3 that fails in its normal way is repeated in its alternative way, in
which PCIE_CAPPED shows it; step 4 that fails is repeated with the flash slow. -/
def Obligations.ReleaseAndBoot : Prop :=
  (∀ (s : State) (a b c : Nat), s.mode = .reset → s.aon.thermLatch = false →
    ∃ t, exec (.resetRelease a b c) s = .next t ∧ t.mode = .boot ∧ t.time40 = 0 ∧ t.subNs = 0 ∧
      t.get R.BTJ_STRAP_PAIR_SIDE = b2n (decide (2 ≤ a % 2 + b % 2 + c % 2)) ∧
      t.get R.TSL_STAT_SIDE = b2n (decide (2 ≤ a % 2 + b % 2 + c % 2)) ∧
      t.get R.BTJ_STRAP_UNSTABLE = b2n (decide (¬ (a % 16 = b % 16 ∧ b % 16 = c % 16))) ∧
      RegsKept [R.BTJ_STRAP_PAIR_SIDE, R.BTJ_STRAP_SMB_ADDR, R.BTJ_STRAP_FTEST, R.BTJ_STRAP_UNSTABLE, R.TSL_STAT_SIDE] s t) ∧
  (∀ (s : State) (m : Nat), s.running = true → s.mode = .boot → s.get R.BTJ_STAT_STEP = 1 →
    ∃ t, exec (.bootStepEnd true m) s = .next t ∧ t.mode = .boot ∧ t.get R.BTJ_STAT_STEP = 2 ∧
      t.get R.BTJ_SVN_VENDOR = s.fuse.svnVendor % 2 ^ 7 ∧ bit (t.get R.CHK_RAIL_EN) 0 = true ∧ t.chuck.seqRail = 1) ∧
  (∀ (s : State) (m : Nat), s.running = true → s.mode = .boot → s.get R.BTJ_STAT_STEP = 2 → s.get R.CHK_RAIL_PG = 0x7F →
    ∃ t, exec (.bootStepEnd true m) s = .next t ∧ t.mode = .boot ∧ t.get R.BTJ_STAT_STEP = 3 ∧ t.boot.way = 0) ∧
  (∀ (s : State) (m : Nat), s.running = true → s.mode = .boot → s.get R.BTJ_STAT_STEP = 3 → s.boot.way = 0 →
    ∃ t, exec (.bootStepEnd false m) s = .next t ∧ t.mode = .boot ∧ t.get R.BTJ_STAT_STEP = 3 ∧ t.boot.way = 1) ∧
  (∀ (s : State) (m : Nat), s.running = true → s.mode = .boot → s.get R.BTJ_STAT_STEP = 3 →
    ∃ t, exec (.bootStepEnd true m) s = .next t ∧ t.mode = .boot ∧ t.get R.BTJ_STAT_STEP = 4 ∧
      t.get R.BTJ_STAT_PCIE_CAPPED = s.boot.way % 2 ∧ t.boot.pcieUp = true)

/-! ## Chuck (chapter 18) -/

/-- Power-good of the rail that is awaited sets its bit and raises the enable of the next rail, in the order 1 to 7; the seventh
ends the sequence. A rail that fails takes the GY8 to SAFE with source 50, RAIL, in SAFE_CAUSE: no power-good in time, or the
comparator of a rail whose power-good has come, while RAIL is chip-level and the GY8 is not in SAFE already. In the thermal latch
the core rails go to 600 mV and the enables of rails 7 to 3 fall. -/
def Obligations.Rails : Prop :=
  (∀ (s : State) (k : Nat), s.running = true → 1 ≤ k → k < 7 → s.chuck.seqRail = k →
    ∃ t, exec (.railPowerGood k) s = .next t ∧ bit (t.get R.CHK_RAIL_PG) (k - 1) = true ∧ bit (t.get R.CHK_RAIL_EN) k = true ∧
      t.chuck = { s.chuck with seqRail := k + 1 } ∧ t.out = .pin .railEn (k + 1) 1 :: s.out ∧
      RegsKept [R.CHK_RAIL_PG, R.CHK_RAIL_EN] s t ∧ t = { s with regs := t.regs, chuck := t.chuck, out := t.out }) ∧
  (∀ s : State, s.running = true → s.chuck.seqRail = 7 →
    ∃ t, exec (.railPowerGood 7) s = .next t ∧ bit (t.get R.CHK_RAIL_PG) 6 = true ∧ t.chuck = { s.chuck with seqRail := 0 } ∧
      RegsKept [R.CHK_RAIL_PG] s t ∧ t = { s with regs := t.regs, chuck := t.chuck }) ∧
  (∀ (s : State) (k : Nat), s.running = true → s.mode ≠ .safe → s.chuck.seqRail = k → k ≠ 0 → s.bitIn R.FLT_CHIP_CHIP 50 = true →
    ∃ t, exec (.railPgTimeout k) s = .next t ∧ t.mode = .safe ∧ t.safeCause = 50) ∧
  (∀ (s : State) (k : Nat), s.running = true → s.mode ≠ .safe → 1 ≤ k → k ≤ 7 → s.bitIn R.CHK_RAIL_PG (k - 1) = true →
    s.bitIn R.FLT_CHIP_CHIP 50 = true → ∃ t, exec (.undervoltageTrip k) s = .next t ∧ t.mode = .safe ∧ t.safeCause = 50) ∧
  (∀ s : State, s.aon.thermLatch = true → s.aon.retention = 1 →
    ∃ t, exec .railRetention s = .next t ∧ t.aon = { s.aon with retention := 2 } ∧ t.get R.CHK_VCORE_TARGET = 600 ∧
      t.get R.CHK_VSP_TARGET = 600 ∧ (∀ i, 2 ≤ i → i ≤ 6 → bit (t.get R.CHK_RAIL_EN) i = false ∧ bit (t.get R.CHK_RAIL_PG) i = false) ∧
      RegsKept [R.CHK_VCORE_TARGET, R.CHK_VSP_TARGET, R.CHK_RAIL_EN, R.CHK_RAIL_PG] s t ∧
      t = { s with regs := t.regs, aon := t.aon, out := t.out })

/-- A converter channel's result replaces its previous value at the end of its slot, and the next slot is the next channel of 64; a
sensor that counts as broken keeps the value its neighbours give it. The end of a round at the die limit is the die shutdown: SAFE,
THERM_LATCH set, source 51 in SAFE_CAUSE; short of the limit the always-on domain is untouched. -/
def Obligations.Housekeeping : Prop :=
  (∀ (s : State) (v : Nat) (ok : Bool), s.mode ≠ .reset → s.aon.retention ≠ 2 → s.chuck.slot < 64 →
    ∃ t, exec (.housekeepingSlot v ok) s = .next t ∧ t.chuck.slot = (s.chuck.slot + 1) % 64 ∧
      (¬ (s.chuck.slot < 24 ∧ s.bitIn R.CHK_TS_BROKEN_BROKEN s.chuck.slot = true) →
        t.get (R.CHK_CH_VALUE s.chuck.slot) = v % 2 ^ 16 ∧ t.get (R.CHK_CH_VALID s.chuck.slot) = b2n ok) ∧
      (s.chuck.slot < 24 ∧ s.bitIn R.CHK_TS_BROKEN_BROKEN s.chuck.slot = true → t.get (R.CHK_CH_VALUE s.chuck.slot) = s.get (R.CHK_CH_VALUE s.chuck.slot)) ∧
      RegsKeptOutside [R.CHK_CH_VALUE s.chuck.slot, R.CHK_CH_VALID s.chuck.slot, R.CHK_VCORE_MEAS, R.CHK_VSP_MEAS, R.CHK_STAT_RD_BAD] s t) ∧
  (∀ s : State, s.running = true → s.roundForm.dieLimitReached = true →
    ∃ t, exec .housekeepingRoundEnd s = .next t ∧ t.mode = .safe ∧ t.aon.thermLatch = true ∧ t.safeCause = 51) ∧
  (∀ s : State, s.running = true → s.roundForm.dieLimitReached = false → ∃ t, exec .housekeepingRoundEnd s = .next t ∧ t.aon = s.aon)

/-- An acknowledged AVSBus transaction brings its target into force: VDD_CORE, or VDD_SP with its step and with the count of lines
since the last step at 0; a failed or unanswered one is counted and repeated, up to two times. Power-good of a head supply that
falls, or does not come, while its enable is high clears its bit and raises HV_PG_LOST. ALIVE toggles while it is served and the
block is not in SAFE; when the service fails it stops and is held low. -/
def Obligations.SupplyTransactions : Prop :=
  (∀ (s : State) (mv : Nat), s.running = true → s.chuck.avs = some (0, mv) →
    ∃ t, exec (.avsResponse true) s = .next t ∧ t.get R.CHK_VCORE_TARGET = mv % 2 ^ R.CHK_VCORE_TARGET.width ∧
      RegsKept [R.CHK_VCORE_TARGET] s t) ∧
  (∀ (s : State) (mv : Nat), s.running = true → s.chuck.avs = some (1, mv) →
    ∃ t, exec (.avsResponse true) s = .next t ∧ t.get R.CHK_VSP_TARGET = mv % 2 ^ R.CHK_VSP_TARGET.width ∧
      t.get R.SPN_PACE_VSTEP = (mv - 700) / 10 % 2 ^ R.SPN_PACE_VSTEP.width ∧ t.path = { s.path with sinceStep := 0 } ∧
      RegsKept [R.CHK_VSP_TARGET, R.SPN_PACE_VSTEP] s t) ∧
  (∀ (s : State) (rail mv : Nat), s.running = true → s.chuck.avs = some (rail, mv) → s.chuck.avsTries < 2 →
    ∃ t, exec .avsTimeout s = .next t ∧ exec (.avsResponse false) s = .next t ∧
      t.get R.CHK_CNT_AVS_RETRY = min (s.get R.CHK_CNT_AVS_RETRY + 1) (2 ^ R.CHK_CNT_AVS_RETRY.width - 1) ∧
      t.flag R.CHK_STAT_AVS_RETRY = true ∧ t.chuck = { s.chuck with avsTries := s.chuck.avsTries + 1 } ∧
      t.out.head? = some (.avs rail mv) ∧ RegsKeptOutside [R.CHK_CNT_AVS_RETRY, R.CHK_STAT_AVS_RETRY] s t) ∧
  (∀ (s : State) (g : Nat), s.running = true → g < 4 → bit s.chuck.hvOut g = true →
    ∃ t, exec (.hvPgFall g) s = .next t ∧ exec (.hvPgTimeout g) s = .next t ∧ bit (t.get R.CHK_HV_PG) g = false ∧
      t.flag R.CHK_STAT_HV_PG_LOST = true ∧ RegsKeptOutside [R.CHK_HV_PG, R.CHK_STAT_HV_PG_LOST] s t ∧
      t = { s with regs := t.regs, mbx := t.mbx, hic := t.hic, out := t.out }) ∧
  (∀ s : State, s.running = true → s.mode ≠ .safe → s.chuck.aliveOn = true →
    exec .aliveToggle s = .next { s with
      chuck := { s.chuck with aliveLevel := !s.chuck.aliveLevel }, out := .pin .alive 0 (b2n !s.chuck.aliveLevel) :: s.out }) ∧
  (∀ s : State, s.running = true →
    exec .aliveServiceTimeout s = .next { s with
      chuck := { s.chuck with aliveOn := false, aliveLevel := false }, out := .pin .alive 0 0 :: s.out })

/-! ## Encoder and line timing (chapter 6) -/

/-- An accepted count of a quadrature channel, or of a toothed wheel without a reference, moves POS40 by one count in its direction,
INVERT applied, and ends a standstill; the other channel's position does not move. An invalid transition moves nothing and raises
QERR. A reference mark of a quadrature channel latches POS40 in REFPOS and raises REF_SEEN. After the standstill time a channel's
speed is not valid: STANDSTILL is set, its period and speed read 0, its position and direction are kept. A write of ENCn_POS_SET
loads POS40 in IDLE, and does not in any other mode: there POS40 keeps its value. -/
def Obligations.EncoderInputs : Prop :=
  (∀ (s : State) (n : Nat) (e : EncEdge) (t : Nat), s.running = true → n < 2 → e ≠ .both →
    s.get (R.ENC_CH_CFG_TYPE n) = 1 ∨ (s.get (R.ENC_CH_CFG_TYPE n) = 2 ∧ s.get (R.ENC_CH_CFG_REFTYPE n) = 0 ∧ (s.ench n).held = none) →
    ∃ u, exec (.encoderCount n e t) s = .next u ∧
      u.get (R.ENC_CH_POS_POS n) = (s.get (R.ENC_CH_POS_POS n)
        + (if (e == .up) != s.flag (R.ENC_CH_CFG_INVERT n) then 65536 else 2 ^ 40 - 65536)) % 2 ^ 40 ∧
      u.get (R.ENC_CH_POS_POS (1 - n)) = s.get (R.ENC_CH_POS_POS (1 - n)) ∧ u.flag (R.ENC_CH_STAT_STANDSTILL n) = false) ∧
  (∀ (s : State) (n t : Nat), s.running = true → n < 2 → s.get (R.ENC_CH_CFG_TYPE n) = 1 →
    ∃ u, exec (.encoderCount n .both t) s = .next u ∧ u.get (R.ENC_CH_POS_POS n) = s.get (R.ENC_CH_POS_POS n) ∧
      u.flag (R.ENC_CH_STAT_QERR n) = true ∧ u.flag (R.ENC_CH_STAT_SPEED_VALID n) = false) ∧
  (∀ (s : State) (n t : Nat), s.running = true → n < 2 → s.get (R.ENC_CH_CFG_TYPE n) = 1 →
    ∃ u, exec (.referenceMark n t) s = .next u ∧ u.get (R.ENC_CH_REFPOS_POS n) = s.get (R.ENC_CH_POS_POS n) ∧
      u.flag (R.ENC_CH_STAT_REF_SEEN n) = true) ∧
  (∀ (s : State) (n : Nat), s.running = true → n < 2 → s.encType n ≠ 0 →
    ∃ u, exec (.standstill n) s = .next u ∧ u.flag (R.ENC_CH_STAT_STANDSTILL n) = true ∧
      u.flag (R.ENC_CH_STAT_SPEED_VALID n) = false ∧ u.get (R.ENC_CH_PERIOD_P n) = 0 ∧ u.get (R.ENC_CH_SPEED_V n) = 0 ∧
      RegsKept [R.ENC_CH_STAT_STANDSTILL n, R.ENC_CH_STAT_SPEED_VALID n, R.ENC_CH_PERIOD_P n, R.ENC_CH_SPEED_V n, R.ENC_LINE_T_T,
        R.ENC_LINE_TP_T] s u ∧ u = { s with regs := u.regs, enc := u.enc, line := u.line }) ∧
  (∀ (s : State) (n v : Nat), s.running = true → n < 2 → s.mode = .idle →
    ∃ t, exec (.encPosSet n v) s = .next t ∧ t.get (R.ENC_CH_POS_POS n) = v % 2 ^ 40 ∧
      RegsKept [R.ENC_CH_POS_POS n, R.TSL_LOG_TX_OFF] s t ∧ t = { s with regs := t.regs, enc := t.enc, pair := t.pair, out := t.out }) ∧
  (∀ (s : State) (n v : Nat), s.running = true → s.mode ≠ .idle →
    ∃ t, exec (.encPosSet n v) s = .next t ∧ RegsKept [R.TSL_LOG_TX_OFF] s t ∧ t = { s with regs := t.regs, pair := t.pair, out := t.out })

/-- A line whose instant inside the count comes triggers: its boundary is due ENC_LATENCY later, behind those already due, and the
next line is next. The cross-check of a window that ENC0 has moved in: ENC_XCHK_ERR shows the deviation of ENC1 from RATIO in 0.01
%, rounded, halves away from zero; within TOL nothing else happens, beyond it with ACTION 0 the DEV bit is raised and counted. When
ENC1 has moved 64 counts without one of ENC0 the LOSS bit is. At each period of the PWM the member that drives it puts SPEED_CEIL at
the duty ⌊2,500 × min(ceiling, FS) ÷ FS⌋ in the modes of the state Job, and at 0 in BOOT and SAFE; no register but those of events
changes. The over-speed source is released. -/
def Obligations.LineTiming : Prop :=
  (∀ (s : State) (i : Nat), s.running = true → s.line.sched = some i →
    ∃ u, exec .triggerInstant s = .next u ∧ u.line.due = s.line.due ++ [⟨s.line.trig, i + s.encLatency, false⟩] ∧
      u.line.trig = s.line.trig + 1 ∧ RegsKept [] s u ∧ u = { s with line := u.line }) ∧
  (∀ (s : State) (d0 d1 : Int) (bad : Bool), s.running = true → s.line.wdone = some (d0, d1, bad) → d0 ≠ 0 →
    s.get R.ENC_XCHK_RATIO_RATIO ≠ 0 →
    let dev : Rat := ((d1 : Rat) / ((s.get R.ENC_XCHK_RATIO_RATIO : Rat) / (2 ^ 24 : Nat)) - d0) / d0 * 10000
    let tol : Rat := (max 1 (min 10000 (s.get R.ENC_XCHK_CFG_TOL)) : Nat)
    (absR dev ≤ tol → ∃ t, exec .xchkWindowEnd s = .next t ∧ t.get R.ENC_XCHK_ERR_DEV = unsigned 32 (roundAway dev) % 2 ^ 32 ∧
      RegsKept [R.ENC_XCHK_ERR_DEV] s t ∧ t.line = { s.line with wdone := none } ∧ t = { s with regs := t.regs, line := t.line }) ∧
    (tol < absR dev → s.get R.ENC_XCHK_CFG_ACTION = 0 → ∃ t, exec .xchkWindowEnd s = .next t ∧
      t.get R.ENC_XCHK_ERR_DEV = unsigned 32 (roundAway dev) % 2 ^ 32 ∧ t.flag R.ENC_XCHK_STAT_DEV = true ∧
      t.get R.ENC_XCHK_CNT_COUNT = min (s.get R.ENC_XCHK_CNT_COUNT + 1) (2 ^ 16 - 1) ∧
      RegsKeptOutside [R.ENC_XCHK_ERR_DEV, R.ENC_XCHK_STAT_DEV, R.ENC_XCHK_CNT_COUNT] s t)) ∧
  (∀ s : State, s.running = true → s.flag R.ENC_XCHK_CFG_EN = true → 64 ≤ s.line.silent → s.get R.ENC_XCHK_CFG_ACTION = 0 →
    ∃ t, exec .xchkLoss s = .next t ∧ t.flag R.ENC_XCHK_STAT_LOSS = true ∧ t.line = { s.line with silent := 0 } ∧
      t.get R.ENC_XCHK_CNT_COUNT = min (s.get R.ENC_XCHK_CNT_COUNT + 1) (2 ^ 16 - 1) ∧
      RegsKeptOutside [R.ENC_XCHK_STAT_LOSS, R.ENC_XCHK_CNT_COUNT] s t) ∧
  (∀ s : State, s.running = true → s.ceilJob = true →
    ∃ t, exec .ceilPwmPeriod s = .next t ∧
      .pin .speedCeil 0 (2500 * min s.ceilNow.1 (max 1 (s.get R.ENC_CEIL_FS_FS)) / max 1 (s.get R.ENC_CEIL_FS_FS)) ∈ t.out ∧
      RegsKeptOutside [] s t) ∧
  (∀ s : State, s.running = true → s.primary = true → s.mode = .safe ∨ s.mode = .boot →
    ∃ t, exec .ceilPwmPeriod s = .next t ∧ .pin .speedCeil 0 0 ∈ t.out ∧ RegsKeptOutside [] s t) ∧
  (∀ s : State, s.running = true → exec .overspeedRelease s = .next { s with line := { s.line with speeding := none } })

/-- A boundary comes at its due instant or 2.5 µs (4,000 ticks) after the last, whichever is later, and ENC_LINE and ENC_LINE_GAP show
it; then the steps of R22 run on the oldest line that has triggered. -/
def Obligations.LineBoundaries : Prop :=
  (∀ (s : State) (d : Due), (s.boundaryTime d).2 = (match s.line.lastB with | some b => max d.at_ (b + 4000) | none => d.at_) ∧
    (s.boundaryTime d).1.get R.ENC_LINE_INDEX = d.line % 2 ^ 40 ∧ (s.boundaryTime d).1.line.due = s.line.due.drop 1 ∧
    (∀ b, s.line.lastB = some b → (s.boundaryTime d).1.get R.ENC_LINE_GAP_T = min 0xFFFFFF ((s.boundaryTime d).2 - b) ∧
      b + 4000 ≤ (s.boundaryTime d).2)) ∧
  (∀ (s : State) (d : Due) (rest : List Due) (late : Nat), s.running = true → s.encArmed = true → s.line.due = d :: rest →
    exec (.lineBoundary late) s = .next (s.framed ((s.jobLead.boundaryTime d).1.boundary
      ⟨d.line, (s.jobLead.boundaryTime d).2, s.line.lastB.map (fun b => (s.jobLead.boundaryTime d).2 - b), d.backlog, late⟩ State.jobHand)))

/-- ENABLE of a compare output: its list starts, or it stops with its output inactive; END is written. An armed entry that is
reached fires one pulse: FIRED counts, LASTI names the entry; the output falls when its last pulse ends. -/
def Obligations.CompareOutputs : Prop :=
  (∀ (s : State) (k v : Nat), s.running = true → s.mode ≠ .shadow → k < 8 → bit v 0 = true →
    ∃ t, exec (.cmpEnable k v) s = .next t ∧ t.flag (R.CMP_CTRL_ENABLE k) = true) ∧
  (∀ (s : State) (k v : Nat), s.running = true → s.mode ≠ .shadow → k < 8 → bit v 0 = false →
    ∃ t, exec (.cmpEnable k v) s = .next t ∧ t.flag (R.CMP_CTRL_ENABLE k) = false ∧ t.flag (R.CMP_STAT_LEVEL k) = false) ∧
  (∀ (s : State) (k v : Nat), s.running = true → s.mode ≠ .shadow → k < 8 →
    ∃ t, exec (.cmpEndWrite k v) s = .next t ∧ t.get (R.CMP_END_END k) = v % 2 ^ 10) ∧
  (∀ (s : State) (k i : Nat), s.running = true → s.cmpRuns = true → k < 8 → (s.cmpOut k).armed = true → (s.cmpOut k).late = false →
    (s.cmpOut k).reach = some i →
    ∃ t, exec (.cmpEntryFire k) s = .next t ∧ t.get (R.CMP_FIRED_COUNT k) = (s.get (R.CMP_FIRED_COUNT k) + 1) % 2 ^ 40 ∧
      t.get (R.CMP_LASTI_INDEX k) = s.get (R.CMP_INDEX_INDEX k) ∧ t.flag (R.CMP_STAT_LEVEL k) = true) ∧
  (∀ (s : State) (k : Nat), s.running = true → k < 8 → s.cmp.length = 8 → (s.cmpOut k).pulses = 1 →
    ∃ t, exec (.cmpPulseEnd k) s = .next t ∧ t.flag (R.CMP_STAT_LEVEL k) = false ∧ (t.cmpOut k).pulses = 0 ∧
      RegsKept [R.CMP_STAT_LEVEL k] s t)

/-! ## Spindle and the billet engines (chapters 1, 4, 5) -/

/-- The symbol code: a word as encoded is clean, and any error confined to one symbol, a data symbol or a check symbol, is found
at that symbol and corrected. -/
def Obligations.SymbolCode : Prop :=
  ∀ d : Nat, d < 2 ^ 128 → eccJudge (eccEncode d) = .clean ∧ eccEncode d % 2 ^ 128 = d ∧
    ∀ i e : Nat, i < 36 → 0 < e → e < 16 →
      eccJudge (Nat.xor (eccEncode d) (e * 16 ^ i)) = .fixed i e ∧ eccCorrect (Nat.xor (eccEncode d) (e * 16 ^ i)) = eccEncode d

/-- A word the scrubber reads: a clean one changes nothing, a corrected one counts in the corrected-error counter of its store and
nothing else, an uncorrectable one counts in the other counter; of the line queues of a port with no line of that number, and of the
job store's tables that are not held, nothing else changes. -/
def Obligations.ScrubbedWords : Prop :=
  (∀ (s : State) (k loc w : Nat), s.running = true → k < 7 → eccJudge w = .clean → exec (.sramScrub k loc w) s = .next s) ∧
  (∀ (s : State) (k loc w i e : Nat), s.running = true → k < 7 → eccJudge w = .fixed i e →
    ∃ t, exec (.sramScrub k loc w) s = .next t ∧ t.get (R.FLT_ECC_CE k) = min (s.get (R.FLT_ECC_CE k) + 1) (2 ^ 16 - 1) ∧
      RegsKept [R.FLT_ECC_CE k] s t ∧ t = { s with regs := t.regs }) ∧
  (∀ (s : State) (loc w : Nat), s.running = true → eccJudge w = .uncorrectable → loc < 65536 → s.path.parkWords.contains loc = false →
    ∃ t, exec (.sramScrub 4 loc w) s = .next t ∧ t.get (R.FLT_ECC_UE 4) = min (s.get (R.FLT_ECC_UE 4) + 1) (2 ^ 16 - 1) ∧
      t.path = { s.path with parkWords := loc :: s.path.parkWords } ∧ (∀ g, g / 3 = loc → t.fires g = false ∧ t.substMask g = 3) ∧
      RegsKept [R.FLT_ECC_UE 4, R.GMP_PARKWORDS_COUNT] s t)

/-- A lane takes the lowest open line that has a part it can render, and every port of it that it can render there; when it has
rendered its item its parts are done, the line's lane time is taken, a shadow that differs is noted, and the free lanes take on.
After 4,096 lines in a row with margin, when no step is under way and 64 lines have passed since the last, VDD_SP is requested 10 mV
lower, never below the floor of the die's band. After 64 low lines at 0.90 V PACE_LOW is raised and the speed ceiling takes the
pace. After 1,024 lines each spare shadows the next lane. -/
def Obligations.LanesAndPace : Prop :=
  (∀ (s : State) (lane : Nat) (i : LaneItem), s.laneWork lane = some i → i.ports ≠ [] ∧ i.line ∈ s.openLines ∧
    (∀ p, p ∈ i.ports ↔ p ∈ portsOf lane ∧ s.partDue p i.line lane = true) ∧
    (∀ m ∈ s.openLines, m < i.line → ∀ p ∈ portsOf lane, s.partDue p m lane = false)) ∧
  (∀ (s : State) (lane tau : Nat) (ok : Bool) (i : LaneItem), s.running = true → s.path.lanes.getD lane none = some i →
    let u : State := { s with path := { s.path with lanes := modifyNth s.path.lanes lane (fun _ => none) } }
    let v : State := (u.forEach i.ports (fun s p => s.partDone p i.line lane)).laneTime i.line tau
    exec (.laneRenderDone lane tau ok) s = .next (s.framed (if ok then v.renderKick else (v.shadowMiss lane).renderKick))) ∧
  (∀ (s : State) (lane tau : Nat) (ok : Bool), s.running = true → s.path.lanes.getD lane none = none →
    exec (.laneRenderDone lane tau ok) s = .next s) ∧
  (∀ s : State, s.running = true → 4096 ≤ s.path.highRun → s.stepFree = true → s.chuck.avs = none →
    700 + 10 * s.spFloor + 10 ≤ s.get R.CHK_VSP_TARGET →
    ∃ t, exec .paceStepDown s = .next t ∧
      t.chuck = { s.chuck with avs := some (1, s.get R.CHK_VSP_TARGET - 10), avsTries := 0, spWait := none } ∧
      t.path = { s.path with highRun := 0 } ∧ t.out = .avs 1 (s.get R.CHK_VSP_TARGET - 10) :: s.out ∧
      t = { s with chuck := t.chuck, path := t.path, out := t.out }) ∧
  (∀ s : State, s.running = true → s.get R.CHK_VSP_TARGET < 700 + 10 * s.spFloor + 10 → exec .paceStepDown s = .next s) ∧
  (∀ s : State, s.running = true → 64 ≤ s.path.lowRun →
    ∃ t, exec .paceLow s = .next t ∧ t.flag R.SPN_STAT_PACE_LOW = true ∧ t.get R.SPN_PACE_CEIL = 1 ∧
      RegsKeptOutside [R.SPN_STAT_PACE_LOW, R.SPN_PACE_CEIL] s t) ∧
  (∀ s : State, s.running = true → 1024 ≤ s.path.shadowLines →
    ∃ t, exec .spareRotate s = .next t ∧ (∀ (i x : Nat), s.path.shadowPos[i]? = some x → t.path.shadowPos[i]? = some ((x + 1) % s.nLanes)) ∧
      t.path = { s.path with shadowLines := 0, shadowPos := t.path.shadowPos } ∧ t = { s with path := t.path })

/-- The known-answer test: KAT_RUN demands it of every lane and shows BUSY; the periodic test demands it of the next lane in turn that is
present; a test that is over is no longer due, BUSY falls with the last demanded one, and a lane out of service that passes counts as
fit again. -/
def Obligations.KnownAnswerTests : Prop :=
  (∀ s : State, s.running = true → s.mode ≠ .shadow →
    ∃ t, exec .katRun s = .next t ∧ t.get R.SPN_KAT_BUSY = 1 ∧ t.path.katRun = s.allLanes ∧
      t.path.katDue = Nat.lor s.path.katDue s.allLanes ∧ RegsKept [R.SPN_KAT_BUSY, R.TSL_LOG_TX_OFF] s t) ∧
  (∀ (s : State) (l : Nat), s.running = true → s.get R.SPN_CTRL_KAT_PERIOD ≠ 0 → s.get R.SPN_CTRL_KAT_PERIOD * 1024 ≤ s.path.katLines →
    ((List.range 34).filter s.lanePresent)[s.path.katTurn % max 1 ((List.range 34).filter s.lanePresent).length]? = some l →
    ∃ t, exec .katPeriodic s = .next t ∧ t.path.katDue = setBit s.path.katDue l ∧ t.path.katLines = 0 ∧ s.lanePresent l = true ∧
      t = { s with path := { s.path with katDue := t.path.katDue, katLines := 0, katTurn := t.path.katTurn } }) ∧
  (∀ (s : State) (l : Nat), s.running = true → bit s.path.katDue l = true → s.lanePresent l = true → s.path.armed = false →
    s.path.misWait = [] → s.pair.judging = false →
    ∃ t, exec (.katDone l true) s = .next t ∧ t.path.katDue = clrBit s.path.katDue l ∧ t.path.katRun = clrBit s.path.katRun l ∧
      t.get R.SPN_KAT_BUSY = (if clrBit s.path.katRun l = 0 then 0 else s.get R.SPN_KAT_BUSY) ∧
      t.path.katOk = (if s.bitIn R.SPN_PARTED_PARTED l then setBit s.path.katOk l else s.path.katOk) ∧ RegsKept [R.SPN_KAT_BUSY] s t) ∧
  (∀ (s : State) (l : Nat) (pass : Bool), s.running = true → bit s.path.katDue l = true → s.lanePresent l = true →
    exec (.katDone l pass) s = .next (s.framed (s.katDone l pass)))

/-- Supply of the tiles: a requested billet that has come is staged; the next tile line of a decompressor becomes available; a whole
tile frees its decompressor and counts; a cause of Table 4.5 is recorded first and frees the decompressor; each then lets the supply and
the rendering go on.  A decompressor whose two copies differ is reported to its fault source. -/
def Obligations.TileSupply : Prop :=
  (∀ (s : State) (col band : Nat) (b : Billet), s.running = true → s.billetAt col band = some b → b.staging = .requested →
    exec (.stagingDone col band true) s = .next (s.framed (s.onBillet b.job col band (fun b => { b with staging := .arrived })).kick) ∧
    exec (.stagingDone col band false) s = .next (s.framed (s.stageBad b).kick)) ∧
  (∀ (s : State) (d : Nat) (j : DecJob), s.running = true → s.decJob d = some j → j.written < 64 →
    256 * (j.written + 1) ≤ j.bytes.length →
    exec (.tileLineWritten d) s = .next (s.framed (s.tileWritten d (j.written + 1) j).kick) ∧
    (∀ (k : Nat) (u : Tile), (s.port (j.col / 8)).tiles[k]? = some u → j.col / 8 < s.path.ports.length → u.col = j.col → u.band = j.band →
      ((s.tileWritten d (j.written + 1) j).port (j.col / 8)).tiles[k]? = some { u with written := j.written + 1 })) ∧
  (∀ (s : State) (d : Nat) (j : DecJob), s.running = true → s.decJob d = some j → j.whole = true → s.path.armed = false →
    s.firstDec j.col j.band = none →
    ∃ t, exec (.decompressDone d) s = .next t ∧ t.decJob d = none ∧
      t.get R.BLT_DEC_TILES_COUNT = (s.get R.BLT_DEC_TILES_COUNT + 1) % 2 ^ R.BLT_DEC_TILES_COUNT.width ∧
      RegsKept [R.BLT_DEC_TILES_COUNT] s t) ∧
  (∀ (s : State) (d cause pos : Nat) (j : DecJob), s.running = true → s.decJob d = some j → s.path.armed = false →
    s.flag R.BLT_DEC_ERR_VALID = false → s.firstDec j.col j.band = none → 2 ≤ s.decsUp →
    ∃ t, exec (.decompInvalid d cause pos) s = .next t ∧ t.decJob d = none ∧ t.get R.BLT_DEC_ERR_VALID = 1 ∧
      t.get R.BLT_DEC_ERR_CAUSE = cause % 2 ^ R.BLT_DEC_ERR_CAUSE.width ∧ t.get R.BLT_DEC_ERR_DEC = d % 2 ^ R.BLT_DEC_ERR_DEC.width ∧
      t.get R.BLT_DEC_ERR_BAND_BAND = j.band % 2 ^ 32 ∧ t.store.retry = (j.col, j.band, d) :: s.store.retry ∧
      RegsKept [R.BLT_DEC_ERR_VALID, R.BLT_DEC_ERR_CAUSE, R.BLT_DEC_ERR_DEC, R.BLT_DEC_ERR_COLUMN, R.BLT_DEC_ERR_BAND_BAND,
        R.BLT_DEC_ERR_POS_BITPOS] s t) ∧
  (∀ (s : State) (d : Nat), s.running = true → d < 32 → s.bitIn R.BLT_DEC_PART_PARTED d = false →
    exec (.decompDisagree d) s = .next (s.framed (s.report 25 d 2)))

/-! ## Ingest (chapters 3 and 4) -/

/-- The producer index of a descriptor ring moves with the doorbell; ring 3 is deaf to it while UDP feeds it.  A descriptor is taken
from the ring whose turn it is: its consumer index advances, it counts as accepted and in flight, and where its checks pass its billet is
read from the host; in a mode that takes none, or while the DRAM is hot, nothing is taken. -/
def Obligations.DescriptorRings : Prop :=
  (∀ (s : State) (n v : Nat), s.running = true → n < 4 → (n = 3 → s.flag R.MBX_UDP_CFG_INGEST = false) →
    ∃ t, exec (.ingRingDoorbell n v) s = .next t ∧ t.get (R.ING_RING_TAIL_TAIL n) = v % 2 ^ 10 ∧ t.get (R.MBX_INGDB_TAIL n) = v % 2 ^ 10 ∧
      RegsKept [R.ING_RING_TAIL_TAIL n, R.MBX_INGDB_TAIL n] s t ∧ t = { s with regs := t.regs }) ∧
  (∀ (s : State) (v : Nat), s.running = true → s.flag R.MBX_UDP_CFG_INGEST = true → exec (.ingRingDoorbell 3 v) s = .next s) ∧
  (∀ s : State, s.running = true → s.mode ≠ .idle ∧ s.mode ≠ .print ∨ s.flag R.BLT_STORE_STAT_HOT_HOLD = true →
    exec .descriptorTake s = .next s) ∧
  (∀ (s : State) (n : Nat) (b : List Nat), s.running = true → s.mode = .idle ∨ s.mode = .print →
    s.flag R.BLT_STORE_STAT_HOT_HOLD = false → s.acct.parted.any (fun (u : PartedUnit) => u.src == 27) = false → s.storeFull = false → s.nextRing = some n →
    s.offered n = some (b, none) → s.checksTaken (mkFlight s.store.flightNo n false b) b = 0 → bit (field b 10 2) 0 = false →
    ∃ t, exec .descriptorTake s = .next t ∧
      t.get (R.ING_RING_HEAD_HEAD n) = (s.get (R.ING_RING_HEAD_HEAD n) + 1) % s.ringSize n % 2 ^ 10 ∧
      t.get R.ING_ACCEPTED_COUNT = (s.get R.ING_ACCEPTED_COUNT + 1) % 2 ^ 40 ∧
      t.get R.ING_INFLIGHT_COUNT = (s.get R.ING_INFLIGHT_COUNT + 1) % 2 ^ 16 ∧
      t.store.flights = s.store.flights ++ [mkFlight s.store.flightNo n false b] ∧
      t.out = .hostRead (field b 0 8) (field b 8 2) :: s.out ∧
      RegsKept [R.ING_RING_HEAD_HEAD n, R.ING_ACCEPTED_COUNT, R.ING_INFLIGHT_COUNT, R.BLT_STORE_STAT_FULL] s t)

/-- The oldest host read ends: badly, its descriptor returns status 18h; well, its bytes are judged and go to the compressors or the store.
A compressor that ends a piece of a capture puts the compressed piece, or the raw one where it does not shrink, in its place and counts
it. -/
def Obligations.ReadsAndCompressors : Prop :=
  (∀ (s : State) (f : Flight) (bytes : List Nat), s.running = true →
    s.store.flights.find? (fun (f : Flight) => f.phase == 0 && !f.udp && !bit f.flags 0) = some f → f.noJob = false →
    exec (.hostReadDone false bytes) s = .next (s.framed (s.flightEnd f.id 0x18 0 0)) ∧
    exec (.hostReadDone true bytes) s
      = .next (s.framed (s.billetRead f ((bytes.map (· % 256) ++ List.replicate f.len 0).take f.len)))) ∧
  (∀ (s : State) (f : Flight), s.store.flights.find? (fun (g : Flight) => g.id == f.id) = some f →
    (s.store.flights.map (fun (g : Flight) => g.id)).Nodup → ∀ st, f.ring < 4 → f.udp = false → s.store.flights.find? (fun (g : Flight) => g.ring == f.ring && g.udp == false) = some f →
      f.quiet = false → s.cqRingFull f.ring = false →
      .hostWrite (s.get (R.ING_RING_CQHI_ADDR_HI f.ring) * 2 ^ 32 + s.get (R.ING_RING_CQLO_ADDR_LO f.ring) / 4096 * 4096
          + 16 * s.store.cqIndex.getD f.ring 0)
        ({ f with status := st, store := 0, slen := 0 }.record (s.store.cqPhase.getD f.ring true)) ∈ (s.flightEnd f.id st 0 0).out) ∧
  (∀ (s : State) (k cam piece depth : Nat) (c : CamCap) (tile : List Nat) (o : Option (List Nat)), s.running = true →
    s.store.cmp.getD k none = some (.capture cam piece depth) → s.store.cmpWait = [] → cam < s.cam.ports.length →
    (s.cport cam).cap = some c → c.pieces[piece]? = some (tile, o) →
    ∃ t, exec (.compressDone k false) s = .next t ∧ t.store.cmp.getD k none = none ∧
      (t.cport cam).cap.map (fun c => c.pieces[piece]?)
        = some (some (tile, some ((compressBillet 2 cam piece depth tile).getD (mkHeader 3 cam 0 16384 piece tile)))) ∧
      t.get R.BLT_CMP_BILLETS_COUNT = (s.get R.BLT_CMP_BILLETS_COUNT + 1) % 2 ^ R.BLT_CMP_BILLETS_COUNT.width ∧
      RegsKept [R.BLT_CMP_BILLETS_COUNT, R.BLT_CMP_NOSHRINK_COUNT] s t)

/-- The controls of a ring outside SHADOW: ENABLE is written; a flush of a ring that is not enabled empties it; a release of completions
moves DONE.  In SHADOW these registers of the sealed blocks, like every other of them, cannot be written: nothing happens. -/
def Obligations.RingControls : Prop :=
  (∀ (s : State) (n : Nat) (en : Bool), s.running = true → s.mode ≠ .shadow → n < 4 →
    ∃ t, exec (.ringEnable n en) s = .next t ∧ t.flag (R.ING_RING_CFG_ENABLE n) = en ∧
      RegsKept [R.ING_RING_CFG_ENABLE n, R.TSL_LOG_TX_OFF] s t) ∧
  (∀ (s : State) (n : Nat), s.running = true → s.mode ≠ .shadow → n < 4 → s.flag (R.ING_RING_CFG_ENABLE n) = false →
    ∃ t, exec (.ringFlush n) s = .next t ∧ t.get (R.ING_RING_HEAD_HEAD n) = s.get (R.ING_RING_TAIL_TAIL n) ∧
      RegsKeptOutside [R.ING_RING_HEAD_HEAD n, R.TSL_LOG_TX_OFF] s t) ∧
  (∀ (s : State) (n v : Nat), s.running = true → s.mode ≠ .shadow → n < 4 →
    ∃ t, exec (.cqdoneWrite n v) s = .next t ∧ t.get (R.ING_RING_CQDONE_DONE n) = v % 2 ^ 10 ∧
      RegsKeptOutside [R.ING_RING_CQDONE_DONE n, R.TSL_LOG_TX_OFF] s t) ∧
  (∀ (s : State) (n v : Nat) (en : Bool), s.mode = .shadow →
    exec (.ringEnable n en) s = .next s ∧ exec (.ringFlush n) s = .next s ∧ exec (.cqdoneWrite n v) s = .next s ∧
    exec (.skewWrite n v) s = .next s ∧ exec (.ovlWrite n v) s = .next s ∧ exec .katRun s = .next s ∧ exec (.encPosSet n v) s = .next s ∧
    exec (.cmpEnable n v) s = .next s ∧ exec (.cmpEndWrite n v) s = .next s)

/-- Skew and overlap: BLT_SKEW is written in IDLE, with one step of its generation, and not in another mode; arming a change in
PRINT is refused, or puts the change on the list of those not yet in force; an entry of the overlap table is written in IDLE. A
write of GMP_COMMIT: ignored while a commit waits; without GO the count is written; with GO a list that breaks a rule is refused
whole, with cause and index, and the grain map keeps every entry; any other list is accepted. -/
def Obligations.SkewOverlapAndGrain : Prop :=
  (∀ (s : State) (p v : Nat), s.running = true → s.mode = .idle → p < s.nPorts →
    ∃ t, exec (.skewWrite p v) s = .next t ∧ t.get (R.BLT_SKEW_OFFSET p) = v % 2 ^ 14 ∧
      t.get (R.BLT_SKEW_SUBLINE p) = v / 2 ^ 16 % 2 ^ 6 ∧ t.get R.BLT_SKEW_GEN_GEN = (s.get R.BLT_SKEW_GEN_GEN + 1) % 2 ^ 16 ∧
      RegsKept [R.BLT_SKEW_OFFSET p, R.BLT_SKEW_SUBLINE p, R.BLT_SKEW_GEN_GEN, R.TSL_LOG_TX_OFF] s t) ∧
  (∀ (s : State) (p v : Nat), s.running = true → s.mode ≠ .idle →
    ∃ t, exec (.skewWrite p v) s = .next t ∧ RegsKept [R.TSL_LOG_TX_OFF] s t) ∧
  (∀ (s : State) (p v : Nat), s.running = true → s.mode = .print → p < s.nPorts → s.flag (R.BLT_SKEW_PEND_ARM p) = false → bit v 31 = true →
    let u := (if bit v 30 then s.put (R.BLT_SKEW_PEND_REFUSED p) 0 else s).put (R.BLT_SKEW_PEND_OFFSET p) v
    let line := max (s.get (R.BLT_SKEW_AT_LINE p)) s.firstLine
    (s.skewRefusal p (v % 2 ^ 14) ≠ 0 →
      ∃ t, exec (.skewArm p v) s = .next t ∧ t.flag (R.BLT_SKEW_PEND_REFUSED p) = true ∧ t.flag (R.BLT_SKEW_PEND_ARM p) = false ∧
        t.path = s.path ∧ RegsKept [R.BLT_SKEW_PEND_REFUSED p, R.BLT_SKEW_PEND_OFFSET p, R.TSL_LOG_TX_OFF] s t) ∧
    (s.skewRefusal p (v % 2 ^ 14) = 0 →
      exec (.skewArm p v) s = .next (s.framed (((u.skewArmed p (v % 2 ^ 14) line).logAdd 0x04 (u.effOf line) 0
        ([4, 0, 0] ++ toBytes 5 line ++ toBytes 8 (p + v % 2 ^ 14 * 2 ^ 8))).logClose)))) ∧
  (∀ (s : State) (e v : Nat), s.running = true → s.mode = .idle → e < 4096 →
    ∃ t, exec (.ovlWrite e v) s = .next t ∧ t.get (R.SPN_OVL_NOZ_A e) = v % 2 ^ 13 ∧ t.get (R.SPN_OVL_NOZ_B e) = v / 2 ^ 13 % 2 ^ 13 ∧
      t.get (R.SPN_OVL_PORT e) = v / 2 ^ 26 % 2 ^ 5 ∧ t.get (R.SPN_OVL_VALID e) = v / 2 ^ 31 % 2 ∧
      RegsKeptOutside [R.SPN_OVL_NOZ_A e, R.SPN_OVL_NOZ_B e, R.SPN_OVL_PORT e, R.SPN_OVL_VALID e, R.SPN_STAT_OVL_DUP, R.TSL_LOG_TX_OFF] s t) ∧
  (∀ (s : State) (v : Nat), s.running = true → s.flag R.GMP_CSTAT_BUSY = true → exec (.commitGo v) s = .next s) ∧
  (∀ (s : State) (v : Nat), s.running = true → s.flag R.GMP_CSTAT_BUSY = false →
    let u := (s.put R.GMP_COMMIT_COUNT v).put R.GMP_COMMIT_ASAP (v / 2 ^ 13)
    let n := v % 2 ^ 13
    let recs := u.changeList (min n 4096)
    (bit v 31 = false → exec (.commitGo v) s = .next u) ∧
    (∀ cause i, bit v 31 = true → u.commitRefusal n recs = some (cause, i) →
      ∃ t, exec (.commitGo v) s = .next t ∧ t.flag R.GMP_CSTAT_REFUSED = true ∧ t.get R.GMP_CSTAT_CAUSE = cause % 2 ^ R.GMP_CSTAT_CAUSE.width ∧
        t.get R.GMP_CSTAT_INDEX = i % 2 ^ R.GMP_CSTAT_INDEX.width ∧ t.path = s.path ∧
        RegsKeptOutside [R.GMP_CSTAT_REFUSED, R.GMP_CSTAT_CAUSE, R.GMP_CSTAT_INDEX, R.GMP_COMMIT_COUNT, R.GMP_COMMIT_ASAP,
          R.TSL_LOG_TX_OFF] s t) ∧
    (bit v 31 = true → u.commitRefusal n recs = none →
      exec (.commitGo v) s = .next (s.framed (((u.put R.GMP_CSTAT_CAUSE 0).put R.GMP_CSTAT_INDEX 0).commitIn (recs.map grecOf)
        (if u.flag R.GMP_COMMIT_ASAP then none else some (s.get R.GMP_COMMIT_AT_LINE))).1.logClose)))

/-! ## Head links and heads (chapters 7 and 8) -/

/-- A frame from a head whose link is not UP is not received; one with an uncorrectable word is lost and only counts; any other has the
effect of its type.  A reading of resistance inside the window of its rank counts and clears what was held of its nozzle.  A
temperature that has not come for 64 lines parts the port as hot; the decision for the normal class falls after 1,024 boundaries; a read
of head memory that stays unanswered ends its command. -/
def Obligations.HeadAnswers : Prop :=
  (∀ (s : State) (p : Nat) (body : List Nat), s.linkUp p = false → exec (.statFrame p body) s = .next s ∧
    exec (.resFrame p body) s = .next s ∧ exec (.ackFrame p body) s = .next s ∧ exec (.memFrame p body) s = .next s) ∧
  (∀ (s : State) (p : Nat) (body : List Nat), s.running = true → s.linkUp p = true → (codeWords body).any wordBad = true →
    ∃ t, exec (.statFrame p body) s = .next t ∧ exec (.resFrame p body) s = .next t ∧ exec (.ackFrame p body) s = .next t ∧
      exec (.memFrame p body) s = .next t ∧
      t.get (R.FLT_ECC_UE 7) = min (s.get (R.FLT_ECC_UE 7) + ((codeWords body).filter wordBad).length) (2 ^ 16 - 1) ∧
      t.get (R.FLT_ECC_CE 7) = min (s.get (R.FLT_ECC_CE 7) + ((codeWords body).filter wordFixed).length) (2 ^ 16 - 1) ∧
      RegsKept [R.FLT_ECC_UE 7, R.FLT_ECC_CE 7] s t ∧ t = { s with regs := t.regs }) ∧
  (∀ (s : State) (p : Nat) (body : List Nat), s.running = true → s.linkUp p = true → (codeWords body).any wordBad = false →
    let u := (s.payloadIn 7 body).1
    let b := wordData (codeWords body)
    exec (.statFrame p body) s = .next (s.framed (u.statIn p b)) ∧
    exec (.resFrame p body) s = .next (s.framed ((u.upHeader p b).resFrame p b)) ∧
    exec (.ackFrame p body) s = .next (s.framed (u.ackIn p b)) ∧ exec (.memFrame p body) s = .next (s.framed (u.memIn p b))) ∧
  (∀ (s : State) (p n v : Nat), p < s.path.ports.length → s.calRun = none → s.inWindow (s.link p).rank v = true →
    (s.resIn p n v).get R.FIR_RES_READS_COUNT = (s.get R.FIR_RES_READS_COUNT + 1) % 2 ^ R.FIR_RES_READS_COUNT.width ∧
      Cells.look dfltZero ((s.resIn p n v).port p).resHeld n = 0 ∧ RegsKept [R.FIR_RES_READS_COUNT] s (s.resIn p n v)) ∧
  (∀ (s : State) (p : Nat), s.running = true → p < s.nPorts → 64 ≤ (s.port p).noTemp →
    exec (.tempLost p) s = .next (s.framed ((s.raise R.FIR_STAT_TEMP_LOST srcFIR).hotPart p).headCeil)) ∧
  (∀ s : State, s.running = true → 1024 ≤ s.path.normRun → s.heading = 1 → s.mayDecide 0 = true → s.flag R.FIR_CTRL_PEND = false →
    exec .normalDecision s = .next (s.framed (s.classDecide 0 (s.path.next - 1)))) ∧
  (∀ (s : State) (p : Nat) (c : Cmd), s.running = true → s.memCmd p = some c → c.ref.slot < 64 →
    ∃ t, exec (.memReadTimeout p) s = .next t ∧ Completed (s.linkTake p (c.progress - 1)) t c stNO_HEAD_ANSWER 0 [])

/-- A load of class tables: without its answers in time it fails and every head keeps what it held; without its commits in time it
completes all the same, and the class is in force with its TMIN and greatest rate.  A reload that waits goes on with its next class. -/
def Obligations.ClassLoads : Prop :=
  (∀ (s : State) (w : WaveLoad), s.running = true → s.load = some w → w.sent ≠ 0 → w.committing = false →
    exec .waveAnswerTimeout s = .next (s.framed (s.loadFail w))) ∧
  (∀ s : State, s.running = true → s.load = none → exec .waveAnswerTimeout s
    = .next (s.framed (s.forEach ((List.range s.nPorts).filter (fun (p : Nat) => (s.link p).stage != 0)) State.reloadFail))) ∧
  (∀ (s : State) (w : WaveLoad), s.running = true → s.load = some w → w.committing = true →
    exec .waveCommitTimeout s = .next (s.framed (s.loadDone w))) ∧
  (∀ (s : State) (p : Nat), s.running = true → s.linkUp p = true → (s.link p).stage = 0 → (s.link p).reload ≠ [] →
    exec (.waveReloadRetry p) s = .next (s.framed (s.reloadNext p))) ∧
  (∀ (s : State) (w : WaveLoad), ((members 24 w.sent).any (fun (p : Nat) => !bit w.ok p && !bit w.refused p) = false → w.refused = 0 →
    s.loadJudge w = s.loadCommit w) ∧ (∀ p, p < 24 → bit w.sent p = true → bit w.ok p = false → bit w.refused p = false →
    s.loadJudge w = { s with load := some w })) ∧
  (∀ (s : State) (t : ClassTab), (s.classInForce 0 t).get R.FIR_TMIN_TMIN_N = t.tmin % 2 ^ R.FIR_TMIN_TMIN_N.width ∧
    (s.classInForce 0 t).get R.FIR_RATE_RATE_N = t.rate % 2 ^ R.FIR_RATE_RATE_N.width ∧
    (s.classInForce 1 t).get R.FIR_TMIN_TMIN_S = t.tmin % 2 ^ R.FIR_TMIN_TMIN_S.width ∧
    RegsKept [R.FIR_TMIN_TMIN_N, R.FIR_RATE_RATE_N] s (s.classInForce 0 t) ∧ t.tmin = t.span + 3 * t.off + 320 ∧
    t.rate = min 192000 (1600000000 / t.tmin))

/-- Training goes LOCK, IDENT, LATENCY and UP: each step that ends well moves STATE on; each that ends badly shows FAILED with its own
cause, and so does an identity block that breaks a rule, or a cable above 288.  A failed port that is enabled trains again from LOCK, as
does one that is enabled or told to retrain while its link is not UP. -/
def Obligations.LinkTraining : Prop :=
  (∀ (s : State) (p : Nat) (body : List Nat), s.running = true → p < s.nPorts → s.get (R.HLK_STAT_STATE p) = 1 ∨ s.get (R.HLK_STAT_STATE p) = 2 →
    (∃ t, exec (.linkTrainStep p true body) s = .next t ∧ t.get (R.HLK_STAT_STATE p) = s.get (R.HLK_STAT_STATE p) + 1 ∧
      RegsKept [R.HLK_STAT_STATE p] s t ∧ t = { s with regs := t.regs }) ∧
    (∃ t, exec (.linkTrainStep p false body) s = .next t ∧ t.get (R.HLK_STAT_STATE p) = 6 ∧
      t.get (R.HLK_STAT_FAILCAUSE p) = s.get (R.HLK_STAT_STATE p) ∧ RegsKept [R.HLK_STAT_STATE p, R.HLK_STAT_FAILCAUSE p] s t ∧
      t = { s with regs := t.regs })) ∧
  (∀ (s : State) (p : Nat) (ok : Bool) (body : List Nat), s.running = true → p < s.nPorts → s.get (R.HLK_STAT_STATE p) = 3 →
    ∃ t, exec (.linkTrainStep p ok body) s = .next t ∧
      t.get (R.HLK_STAT_STATE p) = (if ok = true ∧ headIdOk body = true then 4 else 6) ∧
      (ok = true → headIdOk body = true → t.get (R.HLK_LAT_RXLAT p) = field body 0x15 1 % 2 ^ 7 ∧
        t.get (R.HLK_USTAT_GY5 p) = field body 3 1 % 2 ∧ ∀ w, w < 32 → t.get (R.HLK_HMEM_DATA p w) = field body (4 * w) 4 % 2 ^ 32) ∧
      (¬ (ok = true ∧ headIdOk body = true) → t.get (R.HLK_STAT_FAILCAUSE p) = 3)) ∧
  (∀ (s : State) (p : Nat) (ok : Bool) (body : List Nat), s.running = true → p < s.nPorts → s.get (R.HLK_STAT_STATE p) = 4 →
    (ok = true → field body 0 2 ≤ 288 →
      exec (.linkTrainStep p ok body) s = .next (s.framed ((s.linkReachUp p (field body 0 2)).portQuiet p).loadKick)) ∧
    (ok = false ∨ 288 < field body 0 2 → ∃ t, exec (.linkTrainStep p ok body) s = .next t ∧ t.get (R.HLK_STAT_STATE p) = 6 ∧
      t.get (R.HLK_STAT_FAILCAUSE p) = (if ok then 4 else 5) ∧ RegsKept [R.HLK_STAT_STATE p, R.HLK_STAT_FAILCAUSE p] s t)) ∧
  (∀ (s : State) (p : Nat), s.running = true → p < s.nPorts → s.flag (R.HLK_CTRL_EN p) = true → s.get (R.HLK_STAT_STATE p) = 6 →
    ∃ t, exec (.trainRetry p) s = .next t ∧ t.get (R.HLK_STAT_STATE p) = 1 ∧ t.get (R.HLK_STAT_FAILCAUSE p) = 0 ∧
      t.flag (R.FIR_HTEMP_VALID p) = false ∧
      RegsKept [R.HLK_STAT_STATE p, R.HLK_STAT_FAILCAUSE p, R.HLK_STAT_LANES p, R.FIR_HTEMP_VALID p, R.FIR_HTEMP_BAND p] s t) ∧
  (∀ (s : State) (p v : Nat), s.running = true → p < s.nPorts → s.mode ≠ .safe → s.load = none →
    (s.flag (R.HLK_CTRL_EN p) = false → bit v 0 = true → bit v 1 = false →
      ∃ t, exec (.hlkEnWrite p v) s = .next t ∧ t.flag (R.HLK_CTRL_EN p) = true ∧ t.get (R.HLK_STAT_STATE p) = 1) ∧
    (s.flag (R.HLK_CTRL_EN p) = true → s.linkUp p = false →
      ∃ t, exec (.hlkRetrain p) s = .next t ∧ t.get (R.HLK_STAT_STATE p) = 1 ∧ t.get (R.HLK_STAT_FAILCAUSE p) = 0)) ∧
  (∀ (s : State) (p v : Nat), s.running = true → p < s.nPorts → s.flag (R.HLK_CTRL_EN p) = true → bit v 0 = false → bit v 1 = false →
    exec (.hlkEnWrite p v) s = .next (s.framed
      (((((s.put (R.HLK_CTRL_EN p) v).put (R.HLK_CTRL_ONE_LANE_OK p) (v / 4)).linkForget p).linkOff p).report p p 3).loadKick))

/-- Lock lost on a link that is UP is a LINK fault: the port is parted with its cause and trains anew.  A dropped lane comes back after 64
reports of both lanes locked, unless it stays dropped, and LANESEL names both. -/
def Obligations.LinkFaults : Prop :=
  (∀ (s : State) (p : Nat), s.running = true → s.linkUp p = true → exec (.linkLockLost p) s = .next (s.framed ((s.report p p 1).retrain p))) ∧
  (∀ (s : State) (p : Nat), s.linkUp p = false → exec (.linkLockLost p) s = .next s) ∧
  (∀ (s : State) (p : Nat), s.running = true → p < s.nPorts → s.linkUp p = true → exec (.hlkRetrain p) s = .next (s.framed
    (((if s.primary && s.linkSender then s.sendCredit p 4 (s.downHeader p (s.link p).cseq 4 0 1 0 ++ cmdBody 7 []) else s).report p p 5).retrain p))) ∧
  (∀ (s : State) (p : Nat), s.running = true → p < s.links.length → s.linkUp p = true → (s.link p).mask ≠ 3 → 64 ≤ (s.link p).both →
    (s.link p).sticky = false →
    ∃ t, exec (.laneRestore p) s = .next t ∧ t.get (R.HLK_STAT_LANES p) = 2 ∧ (t.link p).mask = 3 ∧ (t.link p).backT = some s.now ∧
      t.out = .down p 0xE8 [3, 0, 0, 0, 0, 0, crc8 [3, 0, 0, 0, 0, 0]] :: s.out ∧ RegsKept [R.HLK_STAT_LANES p] s t) ∧
  (∀ (s : State) (p : Nat), s.running = true → s.primary = true → s.linkUp p = true → s.flag (R.HLK_USTAT_GY5 p) = true →
    s.flag (R.HLK_USTAT_PENDING p) = false → 2 ^ 20 ≤ s.get (R.HLK_UACC_ACC p) →
    exec (.usageInc p) s = .next (s.framed ((s.put (R.HLK_UACC_ACC p) (s.get (R.HLK_UACC_ACC p) - 2 ^ 20)).usageSend p 6 false))) ∧
  (∀ (s : State) (p op nonce : Nat) (again : Bool), s.running = true → (s.link p).usage = some (op, nonce, again) → p < s.links.length →
    (op = 6 → exec (.usageTimeout p) s = .next (s.framed ((s.usageDone p).usageSend p 5 (!again)))) ∧
    (op ≠ 6 → ∃ t, exec (.usageTimeout p) s = .next t ∧ (t.link p).usage = none ∧ t.get (R.HLK_USTAT_PENDING p) = 0 ∧
      RegsKept [R.HLK_USTAT_PENDING p] s t))

/-- The heads as receivers: a frame that is not well formed sets the ERR bit of its kind and stages nothing; a marker with a wrong check
sets its own; a marker of the epoch in force for a line not yet decided joins the marks of that line.  A head that has lost lock on both
inputs forgets its claims, its slots and its marks.  Without a marker a STAT with outcome 7 leaves on both inputs and ERR starts again. -/
def Obligations.HeadReceivers : Prop :=
  (∀ (s : State) (h i : Nat) (b : List Nat), s.running = true → h < 24 → i < 2 → h < s.heads.length → i < (s.head h).ins.length →
    (frameWords b).any wordBad = false → headJudge b = .invalid → ¬ (2 ≤ field b 1 1 ∧ field b 1 1 ≤ 4) →
    ∃ t, exec (.headFrame h i b) s = .next t ∧ bit (((t.head h).ins.getD i {}).err) 0 = true ∧ t = { s with heads := t.heads } ∧
      (t.head h).slots = (s.head h).slots ∧ ∀ g, g ≠ h → t.head g = s.head g) ∧
  (∀ (s : State) (h i : Nat) (b : List Nat), s.running = true → h < 24 → i < 2 → (frameWords b).any wordBad = false → headJudge b = .valid →
    exec (.headFrame h i b) s = .next (s.framed (s.headAct h i b false))) ∧
  (∀ (s : State) (h i : Nat) (b : List Nat), s.running = true → h < 24 → i < 2 → h < s.heads.length → i < (s.head h).ins.length →
    field b 0 1 ≠ 0x96 ∨ crc8 ((b.drop 1).take 6) ≠ field b 7 1 →
    ∃ t, exec (.headMarker h i b) s = .next t ∧ bit (((t.head h).ins.getD i {}).err) 3 = true ∧ (t.head h).marks = (s.head h).marks ∧
      t = { s with heads := t.heads }) ∧
  (∀ (s : State) (h i c f : Nat) (b : List Nat), s.running = true → h < 24 → i < 2 → h < s.heads.length → field b 0 1 = 0x96 →
    crc8 ((b.drop 1).take 6) = field b 7 1 → (s.head h).cl i = some c → (s.head h).fired = some f → c / 2 = (s.head h).high →
    0 < sdiff 32 (seqExtend f (field b 5 2)) f → (s.head h).marks = [] →
    ∃ t, exec (.headMarker h i b) s = .next t ∧ (t.head h).marks = [(seqExtend f (field b 5 2), [⟨i, bit (field b 1 1) 5, field b 2 3⟩])] ∧
      t = { s with heads := t.heads }) ∧
  (∀ (s : State) (h : Nat), s.running = true → (s.head h).marks = [] → exec (.headDecision h) s = .next s) ∧
  (∀ (s : State) (h : Nat), s.running = true → exec (.headDecision h) s = .next (s.framed (s.headDecide h))) ∧
  (∀ (s : State) (h : Nat), s.running = true → h < s.heads.length →
    ∃ t, exec (.headLockTimeout h) s = .next t ∧ (t.head h).high = 0 ∧ (t.head h).top = 0 ∧ (t.head h).fired = none ∧ (t.head h).slots = [] ∧
      (t.head h).marks = [] ∧ (t.head h).staged = [none, none] ∧ (∀ g, g ≠ h → t.head g = s.head g) ∧ t = { s with heads := t.heads }) ∧
  (∀ (s : State) (h : Nat), s.running = true → h < 24 →
    ∃ t a b, exec (.statNone h) s = .next t ∧ t.out = .up h 0x81 b :: .up h 0x81 a :: s.out ∧ t.freeCtr = s.freeCtr + 4 ∧
      field a 16 1 = 7 ∧ field b 16 1 = 7 ∧ t = { s with heads := t.heads, out := t.out, freeCtr := t.freeCtr })

/-! ## Cameras (chapter 9) -/

/-- Frames: in a mode that takes none nothing happens.  A frame start numbers a new frame with its time and its size; an image line of the
right length joins the frame in progress; a header beyond correction counts and a line past the height is flagged and dropped; the end
closes the frame. -/
def Obligations.CameraFrames : Prop :=
  (∀ (s : State) (n num : Nat) (px : List Nat) (fl : Nat), s.camOn n = false →
    exec (.frameStart n num) s = .next s ∧ exec (.imageLine n px fl) s = .next s ∧ exec (.frameEnd n) s = .next s) ∧
  (∀ (s : State) (n num : Nat), s.running = true → s.camOn n = true → s.flag (R.CAM_CFG_EN n) = true → (s.cport n).frame = none →
    n < s.cam.ports.length → s.acct.parted = [] → s.cam.slots = [] →
    ∃ t f, exec (.frameStart n num) s = .next t ∧
      t.get (R.CAM_FRAMENO_FRAMENO n) = (s.get (R.CAM_FRAMENO_FRAMENO n) + 1) % 2 ^ (R.CAM_FRAMENO_FRAMENO n).width ∧
      (t.cport n).frame = some f ∧ f.num = t.get (R.CAM_FRAMENO_FRAMENO n) ∧ f.time = s.time40 ∧ f.rows = [] ∧
      f.width = s.camWidth n ∧ f.height = s.camHeight n ∧ f.dropped = false ∧ f.shared = false ∧
      RegsKept [R.CAM_FRAMENO_FRAMENO n, R.CAM_STAT_SHARED n, R.CAM_PIPE_STAT_SERVING (partnerPipe n)] s t) ∧
  (∀ (s : State) (n : Nat) (px : List Nat) (fl : Nat), s.running = true → s.camOn n = true → bit fl 2 = true →
    ∃ t, exec (.imageLine n px fl) s = .next t ∧ t.flag (R.CAM_STAT_HDR_ERR n) = true ∧
      t.get (R.CAM_ERRCNT_HDR n) = min (s.get (R.CAM_ERRCNT_HDR n) + 1) (2 ^ (R.CAM_ERRCNT_HDR n).width - 1) ∧
      RegsKeptOutside [R.CAM_STAT_HDR_ERR n, R.CAM_ERRCNT_HDR n] s t) ∧
  (∀ (s : State) (n : Nat) (px : List Nat) (f : CamFrame), s.running = true → s.camOn n = true → (s.cport n).frame = some f →
    n < s.cam.ports.length → f.dropped = false →
    (f.height ≤ f.rows.length → ∃ t, exec (.imageLine n px 0) s = .next t ∧ t.flag (R.CAM_STAT_LONG_FRAME n) = true ∧
      (t.cport n).frame = some { f with flags := setBit f.flags 3 } ∧ RegsKeptOutside [R.CAM_STAT_LONG_FRAME n] s t) ∧
    (f.rows.length < f.height → px.length = f.width →
      let row := s.mkRow n f f.rows.length px 0
      let g : CamFrame := if f.rows.isEmpty && !s.flag (R.CAM_CFG_SCAN n) then { f with pos := s.camPos n } else f
      let g : CamFrame := { g with rows := f.rows ++ [row] }
      exec (.imageLine n px 0) s = .next (s.framed (if f.shared then s.onCam n (fun c => { c with frame := some g })
        else (s.camScan n g row).1.onCam n (fun c => { c with frame := some (s.camScan n g row).2 }))) ∧ row.raw.length = f.width)) ∧
  (∀ (s : State) (n : Nat), s.running = true → s.camOn n = true → exec (.frameEnd n) s = .next (s.framed (s.closeFrame n false)))

/-- Captures: a request while one is in hand, or with captures off, is refused; any other makes the port busy.  When every piece has its
stored form the record leaves for host memory, within its size, the port is free and DONE is raised; when no frame comes the request is
withdrawn and the port is free. -/
def Obligations.CameraCaptures : Prop :=
  (∀ (s : State) (n v : Nat), s.running = true → n < s.nCams → bit v 0 = true →
    (s.flag (R.CAM_CAP_BUSY n) = true ∨ s.flag R.BLT_ENG_CFG_CAP_ENABLE = false →
      ∃ t, exec (.captureReq n v) s = .next t ∧ t.flag (R.CAM_CAP_REFUSED n) = true ∧ t.flag (R.CAM_CAP_BUSY n) = s.flag (R.CAM_CAP_BUSY n) ∧
        t.cam = s.cam) ∧
    (s.flag (R.CAM_CAP_BUSY n) = false → s.flag R.BLT_ENG_CFG_CAP_ENABLE = true → n < s.cam.ports.length →
      ∃ t, exec (.captureReq n v) s = .next t ∧ t.flag (R.CAM_CAP_BUSY n) = true ∧ (t.cport n).wanted = false ∧
        (t.cport n).capRaw = bit v 1 ∧
        RegsKept [R.CAM_CAP_BUSY n, R.CAM_CAP_RAWMODE n, R.CAM_CAP_DONE n, R.CAM_CAP_TRUNC n, R.CAM_CAP_REFUSED n] s t)) ∧
  (∀ (s : State) (n : Nat) (c : CamCap), s.running = true → n < 4 → n < s.cam.ports.length → (s.cport n).cap = some c →
    c.pieces.all (fun (p : List Nat × Option (List Nat)) => p.2.isSome) = true →
    ∃ t b, exec (.captureDone n) s = .next t ∧ .hostWrite (s.get (R.CAM_CAPADDR_ADDR n) / 64 * 64) b ∈ t.out ∧
      b.length ≤ s.get (R.CAM_CAPSIZE_SIZE n) ∧ t.get (R.CAM_CAPLEN_LEN n) = b.length % 2 ^ (R.CAM_CAPLEN_LEN n).width ∧
      t.flag (R.CAM_CAP_BUSY n) = false ∧ t.flag (R.CAM_CAP_DONE n) = true ∧ (t.cport n).cap = none ∧
      RegsKeptOutside [R.CAM_CAPLEN_LEN n, R.CAM_CAP_BUSY n, R.CAM_CAP_TRUNC n, R.CAM_CAP_DONE n] s t) ∧
  (∀ (s : State) (n : Nat), s.running = true → n < 4 → n < s.cam.ports.length → s.flag (R.CAM_CAP_BUSY n) = true → (s.cport n).cap = none →
    ∃ t, exec (.captureNoFrame n) s = .next t ∧ t.flag (R.CAM_CAP_BUSY n) = false ∧ (t.cport n).wanted = false ∧
      RegsKeptOutside [R.CAM_CAP_BUSY n] s t)

/-! ## Pair operation (chapter 10) -/

/-- The heartbeat of a member whose link is UP: HBCNT advances, an HB block, the inverted PAIR_LIVE_O and a STATE frame leave.  A block
with a wrong CRC-8 is ignored and counted.  A heartbeat received shows HB_OK and the detection time and is remembered with its tick; a
FAULT block ends synchronisation where its cause is UNSYNC and is the loss of the partner otherwise. -/
def Obligations.Heartbeats : Prop :=
  (∀ s : State, s.running = true → s.pairUp = true → s.mode ≠ .boot →
    ∃ t b d, exec .hbTimer s = .next t ∧ t.pair = { s.pair with hbCnt := (s.pair.hbCnt + 1) % 2 ^ 16, liveO := !s.pair.liveO } ∧
      t.out = .pair 0x23 d :: .pin .pairLiveO 0 (b2n !s.pair.liveO) :: .pair 0x3C (b ++ [crc8 b]) :: s.out ∧
      b.take 2 = toBytes 2 ((s.pair.hbCnt + 1) % 2 ^ 16) ∧ t = { s with pair := t.pair, out := t.out }) ∧
  (∀ s : State, s.pairUp = false ∨ s.mode = .boot → exec .hbTimer s = .next s) ∧
  (∀ (s : State) (b : List Nat), s.running = true → s.pair.state ≠ 0 → b.length ≠ 7 ∨ crc8 (b.take 6) ≠ b.getD 6 0 →
    ∃ t, exec (.hbBlock b) s = .next t ∧ exec (.faultBlock b) s = .next t ∧
      t.get R.TSL_LINKCNT_BADFRAME = min (s.get R.TSL_LINKCNT_BADFRAME + 1) (2 ^ 16 - 1) ∧ RegsKept [R.TSL_LINKCNT_BADFRAME] s t ∧
      t = { s with regs := t.regs }) ∧
  (∀ (s : State) (b : List Nat), s.running = true → s.pair.state ≠ 0 → b.length = 7 → crc8 (b.take 6) = b.getD 6 0 →
    (s.primary = false → s.mode ≠ .shadow ∨ s.synced = true →
      ∃ t, exec (.hbBlock b) s = .next t ∧ t.pair = { s.pair with peerHb := some (b.take 6), peerT := some s.now } ∧
        t.flag R.TSL_STAT_HB_OK = true ∧ t.get R.TSL_DETECT_D = s.detectTime % 2 ^ 16 ∧
        RegsKept [R.TSL_STAT_HB_OK, R.TSL_DETECT_D] s t ∧ t = { s with regs := t.regs, pair := t.pair }) ∧
    exec (.hbBlock b) s = .next (s.framed (s.hbIn b)) ∧
    (field b 0 1 ≠ 5 → s.primary = true → exec (.faultBlock b) s = .next (s.framed s.unpair)) ∧
    (field b 0 1 ≠ 5 → s.primary = false → s.mode = .shadow → exec (.faultBlock b) s = .next (s.framed s.primaryLost)) ∧
    (field b 0 1 = 5 → s.primary = false → exec (.faultBlock b) s = .next (s.framed (s.desync pcLOG_OVF)))) ∧
  (∀ s : State, 6400 ≤ s.detectTime ∧ s.detectTime ≤ 19200)

/-- Frames of the pair link: one that arrives before IDENT is not received; one with an uncorrectable word, a wrong type or a wrong
length is dropped and counted; any other acts by its type on the state in which its claim is shown. -/
def Obligations.PairFrames : Prop :=
  (∀ (s : State) (b : List Nat) (v : Bool), s.pair.state < 3 →
    exec (.stateFrame b) s = .next s ∧ exec (.logFrame b v) s = .next s ∧ exec (.ocrcFrame b) s = .next s ∧
    exec (.verdFrame b) s = .next s ∧ exec (.rsyncFrame b) s = .next s ∧ exec (.identFrame b) s = .next s) ∧
  (∀ (s : State) (b : List Nat), s.running = true → 3 ≤ s.pair.state → (codeWords b).any wordBad = true →
    ∃ t, exec (.stateFrame b) s = .next t ∧ exec (.ocrcFrame b) s = .next t ∧ exec (.verdFrame b) s = .next t ∧
      exec (.rsyncFrame b) s = .next t ∧ exec (.identFrame b) s = .next t ∧ (s.mode ≠ .shadow → exec (.logFrame b true) s = .next t) ∧
      t.get R.TSL_LINKCNT_BADFRAME = min (s.get R.TSL_LINKCNT_BADFRAME + 1) (2 ^ 16 - 1) ∧
      RegsKept [R.TSL_LINKCNT_BADFRAME, R.FLT_ECC_CE 8, R.FLT_ECC_UE 8] s t ∧ t = { s with regs := t.regs }) ∧
  (∀ (s : State) (b : List Nat), let d := pairData (wordData (codeWords b))
    (PairFrameOk s 0x21 b → exec (.logFrame b true) s
      = .next (s.framed ((s.received b).logIn (field (wordData (codeWords b)) 0 4) d))) ∧
    (PairFrameOk s 0x22 b → exec (.ocrcFrame b) s = .next (s.framed ((s.received b).ocrcIn d))) ∧
    (PairFrameOk s 0x23 b → exec (.stateFrame b) s = .next (s.framed ((s.received b).stateIn d))) ∧
    (PairFrameOk s 0x24 b → exec (.verdFrame b) s = .next (s.framed ((s.received b).verdIn d))) ∧
    (PairFrameOk s 0x25 b → exec (.rsyncFrame b) s = .next (s.framed ((s.received b).rsyncIn d))) ∧
    (PairFrameOk s 0x26 b → ∃ t, exec (.identFrame b) s = .next t ∧ t.pair = { s.pair with ident := some d } ∧
      t.get R.TSL_PEER_CLAIM_CLAIM = field (wordData (codeWords b)) 4 4 % 2 ^ 32 ∧
      RegsKept [R.TSL_PEER_CLAIM_CLAIM, R.FLT_ECC_CE 8, R.FLT_ECC_UE 8] s t))

/-- The log stream on its sender: an ACK of a new offset moves ACK_OFF and frees what it covers; without progress the stream is sent
again from ACK_OFF; with the log closed neither has an effect.  A frame whose check fails is counted and NAKed by a standby, and a record
beyond the expected offset is NAKed and taken by none. -/
def Obligations.LogStream : Prop :=
  (∀ (s : State) (off : Nat) (nak : Bool), s.pair.logOpen = false → exec (.logAck off nak) s = .next s ∧ exec .logResend s = .next s) ∧
  (∀ (s : State) (off : Nat), s.running = true → s.pair.logOpen = true → s.store.flights = [] → s.pair.steps = [] →
    0 < sdiff 32 (off % 2 ^ 32) (s.get R.TSL_LOG_ACK_OFF) → sdiff 32 (off % 2 ^ 32) (s.get R.TSL_LOG_TX_OFF) ≤ 0 →
    ∃ t, exec (.logAck off false) s = .next t ∧ t.get R.TSL_LOG_ACK_OFF = off % 2 ^ 32 ∧
      t.pair.buf = s.pair.buf.filter (fun (e : Nat × List Nat) => decide (0 < sdiff 32 e.1 (off % 2 ^ 32))) ∧
      RegsKept [R.TSL_LOG_ACK_OFF] s t ∧ t = { s with regs := t.regs, pair := t.pair }) ∧
  (∀ (s : State) (off : Nat) (nak : Bool), s.running = true → exec (.logAck off nak) s = .next (s.framed (s.logAckIn (off % 2 ^ 32) nak))) ∧
  (∀ s : State, s.running = true → s.pair.logOpen = true → exec .logResend s = .next (s.framed s.logAgain)) ∧
  (∀ (s : State) (b : List Nat), s.running = true → 3 ≤ s.pair.state → s.mode = .shadow →
    ∃ t, exec (.logFrame b false) s = .next t ∧ t.get R.TSL_LINKCNT_BADFRAME = min (s.get R.TSL_LINKCNT_BADFRAME + 1) (2 ^ 16 - 1) ∧
      (let a := toBytes 4 (s.get R.TSL_LOG_RX_OFF) ++ [1, 0]
       t.out = .pair 0x71 (a ++ [crc8 a]) :: s.out) ∧ RegsKept [R.TSL_LINKCNT_BADFRAME] s t) ∧
  (∀ (s : State) (off : Nat) (b : List Nat), s.primary = false → s.mode = .shadow → s.pair.join ≠ 2 → off ≠ s.get R.TSL_LOG_RX_OFF →
    let a := toBytes 4 (s.get R.TSL_LOG_RX_OFF) ++ [b2n (decide (0 < sdiff 32 off (s.get R.TSL_LOG_RX_OFF))), 0]
    s.logIn off b = s.emit (.pair 0x71 (a ++ [crc8 a])))

/-- The pair link: training goes from off to LOCK, DESKEW, IDENT and UP, and starts again where a stage fails; a lane that locks is ready.
The lanes in use follow the partner's LANES block, a lane that is lost is taken out of use with LANE_DOWN, and the last one takes the
link down.  PAIR_LIVE_I that changes shows the partner alive; a port-line that was not held back is left alone. -/
def Obligations.PairLink : Prop :=
  (∀ s : State, s.running = true → s.acct.parted.any (fun (u : PartedUnit) => u.src == 42) = false →
    (exec (.pairLinkTrain 4 false) s = .next { s with pair := { s.pair with state := 1, lanes := 0, laneReady := 0, ident := none } }) ∧
    (s.pair.state = 0 → exec (.pairLinkTrain 4 true) s = .next { s with pair := { s.pair with state := 1 } }) ∧
    (s.pair.state = 1 → s.pair.laneReady ≠ 0 → exec (.pairLinkTrain 4 true) s = .next { s with pair := { s.pair with state := 2 } }) ∧
    (s.pair.state = 2 → ∃ t d, exec (.pairLinkTrain 4 true) s = .next t ∧ t.pair = { s.pair with state := 3 } ∧
      t.out = .pair 0x26 d :: s.out ∧ d.drop 16 = s.identBody) ∧
    (∀ b, s.pair.state = 3 → s.pair.ident = some b → field b 24 1 ≠ s.get R.TSL_STAT_SIDE →
      ∃ t, exec (.pairLinkTrain 4 true) s = .next t ∧ t.pair = { s.pair with state := 4, lanes := s.pair.laneReady } ∧
        t.get R.TSL_STAT_LANES = popcount 4 s.pair.laneReady % 2 ^ 3) ∧
    (∀ k, k < 4 → s.pair.state ≠ 4 → exec (.pairLinkTrain k true) s
      = .next { s with pair := { s.pair with laneReady := setBit s.pair.laneReady k } })) ∧
  (∀ (s : State) (m : Nat), s.running = true → s.pair.state = 4 → m % 16 ≠ 0 →
    ∃ t, exec (.lanesBlock m) s = .next t ∧ t.pair = { s.pair with lanes := m % 16 } ∧ t.get R.TSL_STAT_LANES = popcount 4 (m % 16) ∧
      (Nat.land s.pair.lanes (m % 16) ≠ s.pair.lanes → t.flag R.TSL_STAT_LANE_DOWN = true) ∧
      RegsKeptOutside [R.TSL_STAT_LANES, R.TSL_STAT_LANE_DOWN] s t) ∧
  (∀ (s : State) (k : Nat), s.running = true → k < 4 → bit s.pair.lanes k = true →
    (clrBit s.pair.lanes k ≠ 0 → ∃ t, exec (.pairLaneLost k) s = .next t ∧ t.flag R.TSL_STAT_LANE_DOWN = true ∧
      t.pair = { s.pair with lanes := clrBit s.pair.lanes k, laneReady := clrBit s.pair.laneReady k } ∧
      t.get R.TSL_STAT_LANES = popcount 4 (clrBit s.pair.lanes k) ∧ RegsKeptOutside [R.TSL_STAT_LANES, R.TSL_STAT_LANE_DOWN] s t) ∧
    (clrBit s.pair.lanes k = 0 → exec (.pairLaneLost k) s = .next (s.framed
      ((({ s with pair := { s.pair with laneReady := clrBit s.pair.laneReady k } } : State).raise R.TSL_STAT_LANE_DOWN srcTSL).tslDown)))) ∧
  (∀ (s : State) (l : Bool), s.running = true → s.pair.liveI ≠ l →
    ∃ t, exec (.pairLiveIChange l) s = .next t ∧ t.flag R.TSL_STAT_PEER_LIVE = true ∧
      t.pair = { s.pair with liveI := l, liveT := some s.now } ∧ RegsKept [R.TSL_STAT_PEER_LIVE] s t) ∧
  (∀ (s : State) (n p : Nat), s.pair.held.contains (n, p) = false → exec (.withholdTimeout n p) s = .next s) ∧
  (∀ (s : State) (n p : Nat) (c : CLine), s.running = true → s.pair.held.contains (n, p) = true → s.theirOcrc n = none → s.cline p n = some c →
    exec (.withholdTimeout n p) s = .next (s.framed
      (({ s with pair := { s.pair with held := s.pair.held.filter (fun (e : Nat × Nat) => e != (n, p)) } } : State).frameOut p c)))

/-- Loss of the heartbeat: a primary that had a partner runs on unpaired; a standby whose partner's PAIR_LIVE still toggles has lost the link
alone, one whose partner is silent has lost its primary.  A join: HELLO that finds nothing against it goes on to OPEN, one that does fails
with the cause; ALIGN and VERIFY fail with ALIGN and DIVERGE at their time-outs. -/
def Obligations.PairLossAndJoin : Prop :=
  (∀ s : State, s.running = true → s.primary = true →
    (s.pair.peerT = none → ∃ t, exec .heartbeatLoss s = .next t ∧ t.flag R.TSL_STAT_HB_OK = false ∧ RegsKept [R.TSL_STAT_HB_OK] s t ∧
      t = { s with regs := t.regs }) ∧
    (s.pair.peerT ≠ none → exec .heartbeatLoss s = .next (s.framed
      (({ (s.put R.TSL_STAT_HB_OK 0) with pair := { s.pair with peerT := none } } : State).unpair)))) ∧
  (∀ s : State, s.running = true → s.primary = false → s.mode = .shadow → s.synced = true →
    let u : State := { (s.put R.TSL_STAT_HB_OK 0) with pair := { s.pair with peerT := none } }
    ((∀ x, s.pair.liveT = some x → x + s.detectTime ≤ s.now) →
      exec .heartbeatLoss s = .next (s.framed (u.put R.TSL_STAT_PEER_LIVE 0).takeover)) ∧
    (∀ x, s.pair.liveT = some x → s.now < x + s.detectTime → exec .heartbeatLoss s = .next (s.framed (u.linkLost.desync pcLINK)))) ∧
  (∀ s : State, s.running = true → s.primary = false → s.pair.join = 1 →
    (s.helloBad = 0 → ∃ t, exec .joinPhaseEnd s = .next t ∧ t.pair = { s.pair with join := 2 } ∧ t.get R.TSL_STAT_JOIN = 0 ∧
      RegsKept [R.TSL_STAT_JOIN] s t) ∧
    (s.helloBad ≠ 0 → exec .joinPhaseEnd s = .next (s.framed (s.joinFail s.helloBad)))) ∧
  (∀ s : State, s.running = true → s.primary = true → exec .joinPhaseEnd s = .next (s.framed s.joinServe)) ∧
  (∀ s : State, s.running = true → s.primary = false → s.pair.join = 4 → exec .alignTimeout s = .next (s.framed (s.joinFail pcALIGN))) ∧
  (∀ s : State, s.running = true → s.primary = false → s.pair.join = 5 → exec .verifyTimeout s = .next (s.framed (s.joinFail pcDIVERGE)))

/-- The Pair commands: PAIR_JOIN is refused to a primary and to a member that is not paired, and otherwise begins with HELLO; a planned
switchover while lines run is accepted for the line it names, at the default 15 boundaries ahead; PAIR_LEAVE is refused to a member that
neither follows nor joins, and otherwise takes the standby to IDLE. -/
def Obligations.PairCommands : Prop :=
  (∀ (s : State) (c : Cmd), Waiting s c opPAIR_JOIN →
    (s.primary = true → ∃ t, exec (.pairJoin c.ref) s = .next t ∧ Completed s t c stIS_PRIMARY 0 []) ∧
    (s.primary = false → s.flag R.TSL_CFG_PAIR_EN = false ∨ s.pairUp = false →
      ∃ t, exec (.pairJoin c.ref) s = .next t ∧ Completed s t c stNOT_PAIRED 0 []) ∧
    (s.primary = false → s.flag R.TSL_CFG_PAIR_EN = true → s.pairUp = true →
      ∃ t, exec (.pairJoin c.ref) s = .next t ∧ t.pair.join = 1 ∧ t.get R.TSL_STAT_JOIN = 0 ∧ t.pair.items = [] ∧
        (∃ d ∈ t.mbx.cmds, d.ref = c.ref ∧ d.running = true))) ∧
  (∀ (s : State) (c : Cmd), Waiting s c opPAIR_SWITCHOVER → s.primary = true → s.flag R.TSL_CFG_PAIR_EN = true → s.pairUp = true →
    s.pairSynced = true → s.logOpen = true → s.trans = false → s.peerTrans = false → s.pair.switchAt = none →
    resv (s.payloadOf c) [(1, 2)] = false → field (s.payloadOf c) 0 1 = 0 → field (s.payloadOf c) 3 5 = 0 →
    (s.path.armed = true → ∃ t, exec (.pairSwitchover c.ref) s = .next t ∧
      Completed ({ (s.logAdd 0x07 (some (s.path.next - 1 + s.logLead)) 0 ([8, 0] ++ List.replicate 6 0 ++ toBytes 8 (s.path.next + 15))) with
          pair := { (s.logAdd 0x07 (some (s.path.next - 1 + s.logLead)) 0 ([8, 0] ++ List.replicate 6 0 ++ toBytes 8 (s.path.next + 15))).pair with
            switchAt := some (s.path.next + 15) } })
        t c stOK 0 (toBytes 5 (s.path.next + 15) ++ [0, 0, 0])) ∧
    (s.path.armed = false → ∃ t, exec (.pairSwitchover c.ref) s = .next t ∧ t.primary = false)) ∧
  (∀ (s : State) (c : Cmd), Waiting s c opPAIR_LEAVE →
    (s.primary = true → ∃ t, exec (.pairLeave c.ref) s = .next t ∧ Completed s t c stNOT_STANDBY 0 []) ∧
    (s.primary = false → s.mode = .shadow → s.pair.join = 0 →
      let u : State := (s.joinPhase 0).joinDrop.dropSkew.discardAll.maintOff
      let v : State := ({ u with synced := false, pair := { u.pair with quiet := false, syncDue := false, due := [], rx := [], switchAt := none } } : State).put R.HLK_CLAIM_CLAIM 0
      ∃ t, exec (.pairLeave c.ref) s = .next t ∧ Completed (v.setMode .idle mcCOMMAND) t c stOK 0 []))

/-! ## Host interface (chapters 11 and 12) -/

/-- A doorbell of an unlocked slot that passes checks 1 to 8 locks its slot, counts, and its command waits with the tag and opcode of the
slot; one of a locked slot adds no command.  Before anything serves the mailbox a doorbell is only latched, and with PCIe down it is lost.
PERST_N lets the link train, and the link that comes up lets doorbells in. -/
def Obligations.Doorbells : Prop :=
  (∀ (s : State) (r : SlotRef) (note : List Nat), r.slot < 64 → s.isLocked r = false →
    let b := s.slotBytes r
    let p := (b.drop 16).take (field b 4 2)
    field b 6 1 < 4 → field b 7 1 < 64 → field b 8 8 = 0 → field b 4 2 ≤ 240 → (cmdInfo (field b 0 2)).isSome = true →
    plenOk (field b 0 2) (field b 4 2) p = true →
    s.mbx.cmds.any (fun d => (d.ref.transport == r.transport) && (d.tag == field b 2 2)) = false →
    s.mbx.tags.find? (fun t => t.tag == field b 2 2 && t.op == field b 0 2) = none → s.admission (field b 0 2) p = 0 →
    s.conflicts (field b 0 2) = false →
    ∃ c, (s.take r 0 note).mbx.cmds = s.mbx.cmds ++ [c] ∧ c.ref = r ∧ c.op = field b 0 2 ∧ c.tag = field b 2 2 ∧ c.running = false ∧
      c.discard = false ∧ (s.take r 0 note).isLocked r = true ∧
      (s.take r 0 note).get R.CNT_MBX_LOCK_COUNT = (s.get R.CNT_MBX_LOCK_COUNT + 1) % 2 ^ R.CNT_MBX_LOCK_COUNT.width) ∧
  (∀ (s : State) (r : SlotRef) (note : List Nat), s.isLocked r = true → (s.take r 0 note).mbx.cmds = s.mbx.cmds) ∧
  (∀ (s : State) (k : Nat), s.running = true → s.mbx.pcieUp = true → s.serving = true →
    exec (.mbxDoorbell (.bar k)) s = .next (s.framed ((s.ring 80).take ⟨.bar, k % 64⟩ 0 []))) ∧
  (∀ (s : State) (k : Nat), s.running = true → s.mbx.pcieUp = true → s.serving = false →
    exec (.mbxDoorbell (.bar k)) s = .next { s with mbx := { s.mbx with latched := s.mbx.latched ++ [.bar k] } }) ∧
  (∀ (s : State) (k : Nat), s.mbx.pcieUp = false → exec (.mbxDoorbell (.bar k)) s = .next s) ∧
  (∀ (s : State) (d : Datagram), s.running = true → s.serving = true → exec (.mbxDoorbell (.udp d)) s = .next (s.framed (s.takeUdp d))) ∧
  (∀ s : State, s.running = true → exec .perstNRelease s = .next { s with mbx := { s.mbx with perst := true } }) ∧
  (∀ s : State, s.running = true → s.mbx.resetPending = none → exec .pcieLinkUp s = .next { s with mbx := { s.mbx with pcieUp := true } }) ∧
  (∀ (s : State) (n : Nat), s.running = true → s.mbx.resetPending = some n →
    ∃ t, exec .pcieLinkUp s = .next t ∧ t.mbx.pcieUp = true ∧ t.mbx.resetPending = none ∧ RegsKeptOutside [] s t)

/-- The host's side: a write of CQ_HEAD releases entries; a gap that ends sends the merged message,
or closes, and a message whose vector is masked waits in the pending bits (log entry 69); a running long command
posts IN_PROGRESS where there is room.  A host-side reset takes PCIe down, stops every ring at its beginning, shows HOSTRESET pending and
lets the commands of the slots run on with their completions discarded. -/
def Obligations.HostEvents : Prop :=
  (∀ (s : State) (v : Nat), s.running = true → ∃ t, exec (.cqHeadWrite v) s = .next t ∧ t.get R.MBX_CQ_HEAD_HEAD = v % 2 ^ 11 ∧
    RegsKeptOutside [] s t) ∧
  (∀ (s : State) (v w : Nat), s.running = true →
    (s.mbx.gaps.find? (fun g => g.1 == v) = some (w, true) → s.msixMasked v = false →
      ∃ t, exec (.irqGapEnd v) s = .next t ∧ t.out = .msix v :: s.out ∧ RegsKept [] s t) ∧
    (s.mbx.gaps.find? (fun g => g.1 == v) = some (w, true) → s.msixMasked v = true →
      ∃ t, exec (.irqGapEnd v) s = .next t ∧ t.out = s.out ∧ bit (t.get (pbaFld v)) (v % 32) = true ∧ RegsKept [pbaFld v] s t) ∧
    (s.mbx.gaps.find? (fun g => g.1 == v) = some (w, false) →
      exec (.irqGapEnd v) s = .next { s with mbx := { s.mbx with gaps := s.mbx.gaps.filter (fun g => g.1 != v) } })) ∧
  (∀ (s : State) (c : Cmd), s.running = true → s.mbx.cmds.find? (fun d => d.ref == c.ref && d.running) = some c →
    (c.discard = true → exec (.longProgress c.ref) s = .next s) ∧
    (c.discard = false → c.ref.transport = .bar → c.ref.slot < 256 → s.mbx.resetPending = none → s.mbx.lost = 0 → s.cqRoom = true →
      ∃ t, exec (.longProgress c.ref) s = .next t ∧ (∃ i < 2048, t.bytesAt (0x40110000 + 32 * i) 6 = entryHead c stIN_PROGRESS) ∧
        RegsKeptOutside [] s t) ∧
    (c.discard = false → c.ref.transport = .udp → ∃ t d, exec (.longProgress c.ref) s = .next t ∧ t.out = .udp 2 d :: s.out ∧
      (d.drop 16).take 6 = entryHead c stIN_PROGRESS)) ∧
  (∀ s : State, s.running = true →
    ∃ t, exec .hostReset s = .next t ∧ t.mbx.pcieUp = false ∧ t.mbx.resetPending = some 0 ∧ t.mbx.gaps = [] ∧ t.mbx.phase = true ∧
      (∀ c ∈ t.mbx.cmds, c.ref.transport = .bar → c.discard = true) ∧
      (∀ n < 4, t.flag (R.ING_RING_CFG_ENABLE n) = false ∧ t.get (R.ING_RING_TAIL_TAIL n) = 0 ∧ t.get (R.ING_RING_HEAD_HEAD n) = 0) ∧
      t.mode = s.mode)

/-- UDP: a BIL datagram while UDP is off counts as dropped; a part of a billet that opens no assembly joins the one of its descriptor, and
opens one where there is room; a billet not whole in time is discarded and counted.  A session opens with a number of its own, ends with
its command or its time-out, and on PCIe both commands are refused. -/
def Obligations.UdpSessions : Prop :=
  (∀ (s : State) (d : Datagram), s.running = true → s.flag R.MBX_UDP_CFG_EN = false →
    ∃ t, exec (.bilDatagram d) s = .next t ∧ t.get R.MBX_UDP_STAT_DROP = min (s.get R.MBX_UDP_STAT_DROP + 1) (2 ^ 16 - 1) ∧
      RegsKept [R.MBX_UDP_STAT_DROP] s t ∧ t = { s with regs := t.regs }) ∧
  (∀ (s : State) (d : Datagram), s.running = true → let b := d.bytes; let body := b.drop 16
    field b 0 2 = 0x5547 → field b 2 1 = 1 → field b 3 1 = 4 → field b 6 2 = body.length →
    field b 12 4 = crc32c (b.take 12 ++ [0, 0, 0, 0] ++ body) → s.flag R.MBX_UDP_CFG_EN = true → 32 ≤ body.length →
    s.flag R.MBX_UDP_SESS_OPEN = true → field b 4 2 = s.get R.MBX_UDP_SESS_SESSION → d.host = s.get R.MBX_UDP_HOST_ADDR →
    d.port = s.get R.MBX_UDP_SESS_PORT → s.flag R.MBX_UDP_CFG_INGEST = true → field (body.take 32) 2 2 = (body.drop 32).length →
    field (body.take 32) 4 4 = 0 → exec (.bilDatagram d) s = .next (s.framed (s.bilPart d.host (body.take 32) (body.drop 32)))) ∧
  (∀ (s : State) (host : Nat) (desc data : List Nat), s.store.bils = [] → s.store.flights = [] →
    s.bilPart host desc data = { s with store := { s.store with
      bils := [⟨host, List.replicate 8 0 ++ desc.drop 8, field desc 8 2, [(field desc 0 2, data)], s.now⟩] } }) ∧
  (∀ (s : State) (a : BilAsm), s.running = true → s.store.bils.find? (fun (a : BilAsm) => !a.whole) = some a →
    ∃ t, exec .bilTimeout s = .next t ∧ t.store = { s.store with bils := s.store.bils.erase a } ∧
      t.get R.MBX_UDP_STAT_BILDROP = min (s.get R.MBX_UDP_STAT_BILDROP + 1) (2 ^ 16 - 1) ∧ RegsKept [R.MBX_UDP_STAT_BILDROP] s t) ∧
  (∀ s : State, s.running = true → s.flag R.MBX_UDP_SESS_OPEN = true →
    ∃ t, exec .udpSessionTimeout s = .next t ∧ t.flag R.MBX_UDP_SESS_OPEN = false ∧ t.get R.MBX_UDP_SESS_SESSION = 0 ∧
      (∀ c ∈ t.mbx.cmds, c.ref.transport = .udp → c.discard = true) ∧
      RegsKept [R.MBX_UDP_SESS_OPEN, R.MBX_UDP_SESS_SESSION, R.MBX_UDP_HOST_ADDR] s t) ∧
  (∀ (s : State) (c : Cmd), (Waiting s c opUDP_OPEN → c.ref.transport = .bar → ∃ t, exec (.udpOpen c.ref) s = .next t ∧ Completed s t c stNOT_UDP 0 []) ∧
    (Waiting s c opUDP_CLOSE → c.ref.transport = .bar → ∃ t, exec (.udpClose c.ref) s = .next t ∧ Completed s t c stNOT_UDP 0 []) ∧
    (Waiting s c opUDP_OPEN → c.ref.transport = .udp → s.flag R.MBX_UDP_SESS_OPEN = false ∨ s.get R.MBX_UDP_HOST_ADDR = field c.atTake 0 4 →
      ∃ t n, exec (.udpOpen c.ref) s = .next t ∧ 1 ≤ n ∧ n < 2 ^ 16 ∧ Completed ((((s.took.put R.MBX_UDP_SESS_SESSION n).put R.MBX_UDP_SESS_OPEN 1).put
        R.MBX_UDP_SESS_PORT (field c.atTake 4 1)).put R.MBX_UDP_HOST_ADDR (field c.atTake 0 4)) t c stOK n []) ∧
    (Waiting s c opUDP_CLOSE → c.ref.transport = .udp → c.discard = false → ∃ t, exec (.udpClose c.ref) s = .next t ∧
      t.flag R.MBX_UDP_SESS_OPEN = false ∧ ∃ d, .udp 2 d ∈ t.out ∧ (d.drop 16).take 6 = entryHead c stOK))

/-- Register access: a host write outside BAR0 and BAR2 does nothing, one of a locked slot is ignored, one in BAR2 is only flagged; a core
that does not run writes nothing.  REG_READ, REG_WRITE and BLOCK_READ refuse a list with an address outside their range, naming its first,
and touch nothing; otherwise they take the words in list order. -/
def Obligations.RegisterAccess : Prop :=
  (∀ (s : State) (a v : Nat), s.running = true →
    (a / 4 * 4 < 0x40100000 ∨ 0x40200000 ≤ a / 4 * 4 ∧ a / 4 * 4 < 0x200000000 → exec (.registerWrite .host a v) s = .next s) ∧
    (0x40100000 ≤ a / 4 * 4 → a / 4 * 4 < 0x40104000 → s.bitIn R.MBX_SLOTS_LOCKED ((a / 4 * 4 - 0x40100000) / 0x100) = true →
      exec (.registerWrite .host a v) s = .next s) ∧
    (0x200000000 ≤ a / 4 * 4 → a / 4 * 4 < 0x201000000 → ∃ t, exec (.registerWrite .host a v) s = .next t ∧
      t.flag R.MBX_STAT_BAR2_WR = true ∧ RegsKept [R.MBX_STAT_BAR2_WR] s t ∧ t = { s with regs := t.regs })) ∧
  (∀ (s : State) (v : Nat), s.running = true → ∃ t, exec (.registerWrite .host 0x40104040 v) s = .next t ∧
    t.get R.MBX_IRQMOD_GAP = v % 2 ^ 16 ∧ RegsKept [R.MBX_IRQMOD_GAP] s t) ∧
  (∀ (s : State) (c a v : Nat), s.running = true →
    (s.coreRuns c = false → exec (.registerWrite (.core c) a v) s = .next s) ∧
    (s.coreRuns c = true → s.denied c (a / 4 * 4) .write = true →
      exec (.registerWrite (.core c) a v) s = .next (s.framed (s.violation c (a / 4 * 4) .write))) ∧
    (s.coreRuns c = true → s.denied c (a / 4 * 4) .write = false → isOpenCore c = false → logged (a / 4 * 4) = false →
      exec (.registerWrite (.core c) a v) s = .next (s.framed (s.regApply (some c) (a / 4 * 4) (v % 2 ^ 32))))) ∧
  (∀ (s : State) (c : Cmd) (i : Nat), Waiting s c opREG_READ →
    let n := field (s.slotBytes c.ref) 4 2 / 4
    let l := (List.range n).map (fun (i : Nat) => s.arg c (4 * i) 4)
    ((List.range n).find? (fun (i : Nat) => !readable (l.getD i 0)) = some i →
      ∃ t, exec (.regRead c.ref) s = .next t ∧ Completed s t c stADDR_DENIED i []) ∧
    ((List.range n).find? (fun (i : Nat) => !readable (l.getD i 0)) = none →
      ∃ t, exec (.regRead c.ref) s = .next t ∧
        Completed (s.regReads c.core l).1 t c stOK 0 ((s.regReads c.core l).2.flatMap (toBytes 4)))) ∧
  (∀ (s : State) (c : Cmd) (i : Nat), Waiting s c opREG_WRITE →
    let n := field (s.slotBytes c.ref) 4 2 / 8
    let l := (List.range n).map (fun (i : Nat) => (s.arg c (8 * i) 4, s.arg c (8 * i + 4) 4))
    ((List.range n).find? (fun (i : Nat) => !writable (l.getD i (0, 0)).1) = some i →
      ∃ t, exec (.regWrite c.ref) s = .next t ∧ Completed s t c stADDR_DENIED i []) ∧
    ((List.range n).find? (fun (i : Nat) => !writable (l.getD i (0, 0)).1) = none →
      let u : State := l.foldl (fun (s : State) (e : Nat × Nat) => s.regApply (some c.core) e.1 e.2) s
      let k := l.filter (fun (e : Nat × Nat) => logged e.1 && !skewPendAddr e.1)
      ∃ t, exec (.regWrite c.ref) s = .next t ∧ Completed (if k.isEmpty then u else u.logAdd 0x01 none 0 (regwBody k)) t c stOK 0 [])) ∧
  (∀ (s : State) (c : Cmd), Waiting s c opBLOCK_READ → let p := s.payloadOf c
    field p 4 4 ≠ 0 → field p 4 4 ≤ 1048576 → field p 8 8 % 64 = 0 →
    (∀ i, (List.range (field p 4 4)).find? (fun (i : Nat) => !readable (field p 0 4 + 4 * i)) = some i →
      ∃ t, exec (.blockRead c.ref) s = .next t ∧ Completed s t c stADDR_DENIED i []) ∧
    ((List.range (field p 4 4)).find? (fun (i : Nat) => !readable (field p 0 4 + 4 * i)) = none →
      let r := s.regReads c.core ((List.range (field p 4 4)).map (fun (i : Nat) => field p 0 4 + 4 * i))
      let d := r.1.dmaOut (field p 8 8) (r.2.flatMap (toBytes 4))
      ∃ t, exec (.blockRead c.ref) s = .next t ∧ Completed d.1 t c (if d.2 then stOK else stDMA_ERROR) 0 []))

/-- Commands that answer at once: IDENTIFY with the identity of the take, ECHO with its own payload, SNAPSHOT with its bank and the next
generation, DROP_READ of a complete bank, JOURNAL_READ, FAULT_CLEAR, USAGE_KEY with the table it leaves; SOFT_RESET with its word resets
the chip, and without it is refused. -/
def Obligations.ServiceCommands : Prop :=
  (∀ (s : State) (c : Cmd), Waiting s c opIDENTIFY → ∃ t, exec (.identify c.ref) s = .next t ∧ Completed s t c stOK 0 c.atTake) ∧
  (∀ (s : State) (c : Cmd), Waiting s c opECHO →
    ∃ t, exec (.echo c.ref) s = .next t ∧ Completed s t c stOK 0 ((s.payloadOf c).take (field (s.slotBytes c.ref) 4 2))) ∧
  (∀ (s : State) (c : Cmd), Waiting s c opSNAPSHOT → let p := s.payloadOf c
    field p 0 1 < 2 → resv p [(1, 2)] = false → (bit (field p 0 1) 0 = true → field p 3 5 = 0) →
    (s.flag R.CNT_SNAP_PENDING = true → ∃ t, exec (.snapshot c.ref) s = .next t ∧ Completed s t c stSNAP_PENDING 0 []) ∧
    (s.flag R.CNT_SNAP_PENDING = false → s.path.armed = false → bit (field p 0 1) 0 = false →
      ∃ t, exec (.snapshot c.ref) s = .next t ∧ Completed s t c stNO_LINES 0 []) ∧
    (s.flag R.CNT_SNAP_PENDING = false → s.path.armed = true ∨ bit (field p 0 1) 0 = true → ∃ t, exec (.snapshot c.ref) s = .next t ∧
      Completed (s.snapRequest (bit (field p 0 1) 0) (field p 3 5)) t c stOK 0 ([s.snapBank, 0] ++ toBytes 2 (s.acct.snapGen + 1) ++ [0, 0, 0, 0]))) ∧
  (∀ (s : State) (c : Cmd), Waiting s c opDROP_READ → let p := s.payloadOf c
    field p 0 1 < 2 → resv p [(1, 3), (12, 4)] = false → field p 8 4 ≠ 0 → field p 4 4 + field p 8 4 ≤ 196608 → field p 16 8 % 64 = 0 →
    let b := s.bankOf (field p 0 1)
    (b.complete = false → ∃ t, exec (.dropRead c.ref) s = .next t ∧ Completed s t c stBAD_PARAM 0 []) ∧
    (b.complete = true →
      let r := s.dmaOut (field p 16 8) ((List.range (field p 8 4)).flatMap (fun (i : Nat) => toBytes 8 (Cells.look dfltZero b.drops (field p 4 4 + i))))
      ∃ t, exec (.dropRead c.ref) s = .next t ∧ Completed r.1 t c (if r.2 then stOK else stDMA_ERROR) 0 [])) ∧
  (∀ (s : State) (c : Cmd), Waiting s c opJOURNAL_READ → let p := s.payloadOf c
    resv p [(12, 4)] = false → field p 0 8 % 64 = 0 →
    let b := (s.flash.journal.flatMap JEntry.bytes).take (field p 8 4)
    let r := s.dmaOut (field p 0 8) b
    (r.2 = true → ∃ t, exec (.journalRead c.ref) s = .next t ∧ Completed r.1 t c stOK 0 (toBytes 4 b.length ++ [0, 0, 0, 0])) ∧
    (r.2 = false → ∃ t, exec (.journalRead c.ref) s = .next t ∧ Completed r.1 t c stDMA_ERROR 0 [])) ∧
  (∀ (s : State) (c : Cmd), Waiting s c opFAULT_CLEAR →
    ∃ t, exec (.faultClear c.ref) s = .next t ∧ Completed (s.fltClear (field (s.payloadOf c) 0 8)) t c stOK 0 []) ∧
  (∀ (s : State) (c : Cmd), Waiting s c opUSAGE_KEY → let p := s.payloadOf c
    let rest := s.flash.usageKeys.filter (fun (e : Nat × Nat) => e.1 != field p 0 8)
    field p 8 1 = 0 → resv p [(9, 7)] = false →
    (64 ≤ rest.length → ∃ t, exec (.usageKey c.ref) s = .next t ∧ Completed s t c stKEY_TABLE_FULL 0 []) ∧
    (rest.length < 64 → ∃ t, exec (.usageKey c.ref) s = .next t ∧ Completed (({ s with flash := { s.flash with
      usageKeys := rest ++ [(field p 0 8, field p 16 32)] } } : State).forEach (List.range s.nPorts) State.keyShow) t c stOK 0 [])) ∧
  (∀ (s : State) (c : Cmd), Waiting s c opSOFT_RESET →
    (field (s.payloadOf c) 0 4 ≠ 0x5AA5 → ∃ t, exec (.softReset c.ref) s = .next t ∧ Completed s t c stBAD_PARAM 0 []) ∧
    (field (s.payloadOf c) 0 4 = 0x5AA5 → ∃ t, exec (.softReset c.ref) s = .next t ∧ t.mode = .reset ∧ t.get R.BTJ_RSTCAUSE_SOFT = 1 ∧
      t.get R.BTJ_RSTCAUSE_PIN = 0 ∧ t.fuse = s.fuse ∧ t.flash = s.flash))

/-! ## Faults and accounting (chapter 17) -/

/-- Reports: sources 57 to 63 never set; a chip-level source takes the GY8 to SAFE with itself in SAFE_CAUSE, source 51 with the thermal
latch; in SAFE a chip source only latches; a unit of DMA, PCIe, PTP, MOT or CMP that is not chip-level is parted, with STATUS, PARTED, UNIT
and CAUSE showing it, and its first report in FIRST. -/
def Obligations.ErrorReports : Prop :=
  (∀ (s : State) (src unit cause : Nat), 57 ≤ src → exec (.errorReport src unit cause) s = .next s) ∧
  (∀ (s : State) (src unit cause : Nat), s.running = true → 48 ≤ src → src ≤ 56 → src ≠ 51 → s.bitIn R.FLT_CHIP_CHIP src = true →
    s.mode ≠ .safe → ∃ t, exec (.errorReport src unit cause) s = .next t ∧ t.mode = .safe ∧ t.safeCause = src ∧ t.aon = s.aon) ∧
  (∀ (s : State) (unit cause : Nat), s.running = true → s.bitIn R.FLT_CHIP_CHIP 51 = true →
    ∃ t, exec (.errorReport 51 unit cause) s = .next t ∧ t.mode = .safe ∧ t.aon.thermLatch = true) ∧
  (∀ (s : State) (src unit cause : Nat), s.running = true → 48 ≤ src → src ≤ 56 → src ≠ 51 → s.mode = .safe →
    ∃ t, exec (.errorReport src unit cause) s = .next t ∧ t.bitIn R.FLT_STATUS_STATUS src = true ∧
      t.get (R.FLT_SRC_UNIT src) = unit % 2 ^ 8 ∧ t.get (R.FLT_SRC_CAUSE src) = cause % 2 ^ 6 ∧
      RegsKept [R.FLT_STATUS_STATUS, R.FLT_SRC_UNIT src, R.FLT_SRC_CAUSE src, R.FLT_FIRST_SRC, R.FLT_FIRST_UNIT, R.FLT_FIRST_CAUSE,
        R.FLT_FIRST_VALID, R.FLT_FIRST_T_T] s t ∧ t = { s with regs := t.regs }) ∧
  (∀ (s : State) (src unit cause : Nat), s.running = true → src = 44 ∨ src = 45 → s.bitIn R.FLT_CHIP_CHIP src = false →
    s.unitParted src unit = false →
    ∃ t, exec (.errorReport src unit cause) s = .next t ∧ t.bitIn R.FLT_STATUS_STATUS src = true ∧ t.bitIn R.FLT_PARTED_PARTED src = true ∧
      t.get (R.FLT_SRC_UNIT src) = unit % 2 ^ 8 ∧ t.get (R.FLT_SRC_CAUSE src) = cause % 2 ^ 6 ∧ t.flag (R.FLT_SRC_PARTED src) = true ∧
      t.acct.parted = ⟨src, unit, cause, false, false⟩ :: s.acct.parted ∧
      (s.flag R.FLT_FIRST_VALID = false → t.get R.FLT_FIRST_SRC = src ∧ t.get R.FLT_FIRST_T_T = s.time40 % 2 ^ 40) ∧
      (s.flag R.FLT_FIRST_VALID = true → t.get R.FLT_FIRST_SRC = s.get R.FLT_FIRST_SRC ∧ t.get R.FLT_FIRST_T_T = s.get R.FLT_FIRST_T_T) ∧
      t.mode = s.mode ∧ RegsKeptOutside [R.FLT_STATUS_STATUS, R.FLT_PARTED_PARTED, R.FLT_SRC_UNIT src, R.FLT_SRC_CAUSE src,
        R.FLT_SRC_PARTED src, R.FLT_FIRST_SRC, R.FLT_FIRST_UNIT, R.FLT_FIRST_CAUSE, R.FLT_FIRST_VALID, R.FLT_FIRST_T_T] s t)

/-- Restoration and clearing: a unit that is not parted, or may not be restored yet, stays as it is; one that may is restored and counts,
unless its source has been restored HOLD_N times within the hour, when it is held.  FLT_CLEAR clears the status of the sources of its mask
whose line is not asserted and ends their hold, and leaves every other source's status. -/
def Obligations.Restoration : Prop :=
  (∀ (s : State) (src unit : Nat), s.acct.parted.find? (fun (u : PartedUnit) => u.src == src && u.unit == unit) = none →
    exec (.unitRestore src unit) s = .next s) ∧
  (∀ (s : State) (src unit : Nat) (u : PartedUnit), s.running = true →
    s.acct.parted.find? (fun (u : PartedUnit) => u.src == src && u.unit == unit) = some u →
    (s.restorable u = false → exec (.unitRestore src unit) s = .next s) ∧
    (s.restorable u = true → s.get R.FLT_QUIET_HOLD_N = 0 → src = 27 ∨ 42 ≤ src ∧ src ≤ 47 →
      ∃ t, exec (.unitRestore src unit) s = .next t ∧ t.unitParted src unit = false ∧
        t.get (R.FLT_SRC_RECOV src) = min (s.get (R.FLT_SRC_RECOV src) + 1) (2 ^ 16 - 1) ∧
        t.acct.restored = (src, s.now) :: s.acct.restored ∧
        RegsKeptOutside [R.FLT_SRC_RECOV src, R.FLT_PARTED_PARTED, R.FLT_SRC_PARTED src] s t) ∧
    (s.restorable u = true → s.get R.FLT_QUIET_HOLD_N ≠ 0 → s.get R.FLT_QUIET_HOLD_N ≤ s.recentRestores src → src < 57 →
      ∃ t, exec (.unitRestore src unit) s = .next t ∧ t.bitIn R.FLT_HELD_HELD src = true ∧ t.flag (R.FLT_SRC_HELD src) = true ∧
        (∀ v ∈ t.acct.parted, v.src = src → v.unit = unit → v.held = true))) ∧
  (∀ (s : State) (mask : Nat), s.running = true → ∃ t, exec (.fltClear mask) s = .next t ∧
    (∀ src, src < 57 → bit mask src = true →
      (s.acct.parted.any (fun (u : PartedUnit) => u.src == src && u.asserted) = false → t.bitIn R.FLT_STATUS_STATUS src = false) ∧
      t.bitIn R.FLT_HELD_HELD src = false ∧ t.flag (R.FLT_SRC_HELD src) = false) ∧
    (∀ src, src < 64 → bit mask src = false ∨ 57 ≤ src → t.bitIn R.FLT_STATUS_STATUS src = s.bitIn R.FLT_STATUS_STATUS src ∧
      t.bitIn R.FLT_HELD_HELD src = s.bitIn R.FLT_HELD_HELD src) ∧ t.mode = s.mode)

/-- Snapshots and drains: a request while lines run is pending for its boundary, and with none armed is taken at once where NEXT is set; the
copy that is whole is shown in BANK and GEN; a drain runs once at a time, adds every drop counter into its total and leaves each total as it
read. -/
def Obligations.SnapshotsAndDrains : Prop :=
  (∀ (s : State) (v : Nat), s.running = true →
    (bit v 0 = false → ∃ t, exec (.cntSnapReq v) s = .next t ∧ t.get R.CNT_SNAP_NEXT = v / 2 % 2 ∧ RegsKept [R.CNT_SNAP_NEXT] s t ∧
      t = { s with regs := t.regs }) ∧
    (bit v 0 = true → s.flag R.CNT_SNAP_PENDING = false → s.path.armed = true → ∃ t, exec (.cntSnapReq v) s = .next t ∧
      t.flag R.CNT_SNAP_PENDING = true ∧ t.acct.snapAt ≠ none ∧ (bit v 1 = true → t.acct.snapAt = some none) ∧
      RegsKept [R.CNT_SNAP_NEXT, R.CNT_SNAP_PENDING] s t) ∧
    (bit v 0 = true → bit v 1 = true → s.flag R.CNT_SNAP_PENDING = false → s.path.armed = false → ∃ t, exec (.cntSnapReq v) s = .next t ∧
      t.flag R.CNT_SNAP_BUSY = true ∧ t.flag R.CNT_SNAP_PENDING = true ∧ t.acct.busy = some s.snapBank ∧
      t.acct.snapGen = (s.acct.snapGen + 1) % 2 ^ 16 ∧ RegsKept [R.CNT_SNAP_NEXT, R.CNT_SNAP_PENDING, R.CNT_SNAP_BUSY] s t)) ∧
  (∀ (s : State) (k : Nat), s.running = true → s.acct.busy = some k → k < 2 → ∃ t, exec .snapshotComplete s = .next t ∧
    t.acct.busy = none ∧ t.get R.CNT_SNAP_BANK = k ∧ t.flag R.CNT_SNAP_BUSY = false ∧
    t.get R.CNT_SNAP_GEN = (if k = 0 then s.acct.bank0.gen else s.acct.bank1.gen) % 2 ^ 16 ∧
    (if k = 0 then t.acct.bank0.complete = true else t.acct.bank1.complete = true) ∧
    RegsKeptOutside [R.CNT_SNAP_BUSY, R.CNT_SNAP_PENDING, R.CNT_SNAP_BANK, R.CNT_SNAP_GEN] s t) ∧
  (∀ s : State, s.running = true →
    (s.flag R.CNT_DRAIN_BUSY = true → exec .drainReq s = .next s) ∧
    (s.flag R.CNT_DRAIN_BUSY = false → ∃ t, exec .drainReq s = .next t ∧ t.flag R.CNT_DRAIN_BUSY = true ∧ RegsKept [R.CNT_DRAIN_BUSY] s t ∧
      dropTotals t.acct.accum t.acct.drops = dropTotals s.acct.accum s.acct.drops) ∧
    (s.flag R.CNT_DRAIN_BUSY = true → ∃ t, exec .drainDone s = .next t ∧ t.flag R.CNT_DRAIN_BUSY = false ∧ t.acct.drops = [] ∧
      dropTotals t.acct.accum t.acct.drops = dropTotals s.acct.accum s.acct.drops ∧
      t.get R.CNT_DRAINS_COUNT = min (s.get R.CNT_DRAINS_COUNT + 1) (2 ^ 16 - 1) ∧ t.get R.CNT_DRAIN_T_T = s.time40 % 2 ^ 40 ∧
      RegsKept [R.CNT_DRAIN_BUSY, R.CNT_DRAINS_COUNT, R.CNT_DRAIN_T_T] s t))

/-! ## Interrupt controller (chapter 14) -/

/-- Transactions of a core that runs: a doorbell of an SW source and a PEND_SET make an edge source pending, EN_SET enables; a claim of a
source deliverable to the core takes it into service and clears its pending bit, any other claim is recorded; a core that does
not run has no effect. -/
def Obligations.HicTransactions : Prop :=
  (∀ (s : State) (core w v : Nat), s.coreRuns core = false →
    exec (.hicDoorbell core v) s = .next s ∧ exec (.hicClaim core w v) s = .next s ∧ exec (.hicEoi core v) s = .next s ∧
    exec (.hicRouteWrite core w v) s = .next s ∧ exec (.hicPendSet core w v) s = .next s ∧ exec (.hicPendClr core w v) s = .next s ∧
    exec (.hicEnSet core w v) s = .next s ∧ exec (.hicEnClr core w v) s = .next s ∧ exec (.hicExtWrite core w v) s = .next s) ∧
  (∀ (s : State) (core src : Nat), s.running = true → s.coreRuns core = true → src < 512 →
    (128 ≤ src → src ≤ 191 → core < 4 ∨ 176 ≤ src →
      ∃ t, exec (.hicDoorbell core src) s = .next t ∧ t.pend src = true ∧ RegsKeptOutside [] s t ∧ t = { s with regs := t.regs, hic := t.hic }) ∧
    (src < 128 ∨ 191 < src ∨ (4 ≤ core ∧ src < 176) →
      ∃ t, exec (.hicDoorbell core src) s = .next t ∧ t.flag R.HIC_STAT_BADDB = true ∧ RegsKeptOutside [] s t ∧
        t = { s with regs := t.regs, hic := t.hic })) ∧
  (∀ (s : State) (core src : Nat), s.running = true → s.coreRuns core = true → hicExists src = true →
    (s.deliverable src core = true → ∃ t, exec (.hicClaim core (src / 32) (2 ^ (src % 32))) s = .next t ∧ t.insvc src = true ∧
      t.pend src = false ∧ t.get (R.HIC_ROUTE_CLAIMER src) = core ∧ t.flag (R.HIC_CORE_INFAST core)
        = (s.flag (R.HIC_CORE_INFAST core) || s.flag (R.HIC_ROUTE_CLASS src)) ∧ RegsKeptOutside [] s t ∧ t = { s with regs := t.regs, hic := t.hic }) ∧
    (s.deliverable src core = false → ∃ t, exec (.hicClaim core (src / 32) (2 ^ (src % 32))) s = .next t ∧
      t.flag (R.HIC_CORE_BAD_CLAIM core) = true ∧ t.insvc src = s.insvc src ∧ RegsKeptOutside [] s t)) ∧
  (∀ (s : State) (core src v : Nat), s.running = true → s.coreRuns core = true → core < 4 → hicExists src = true →
    ∃ t, exec (.hicRouteWrite core src v) s = .next t ∧ t.get (R.HIC_ROUTE_CORE src) = v % 8 ∧ t.get (R.HIC_ROUTE_ALT src) = v / 8 % 8 ∧
      t.get (R.HIC_ROUTE_CLASS src) = v / 64 % 2 ∧ t.get (R.HIC_ROUTE_WAKE src) = v / 128 % 2 ∧ RegsKeptOutside [] s t) ∧
  (∀ (s : State) (core src : Nat), s.running = true → s.coreRuns core = true → core < 4 → hicExists src = true →
    (∃ t, exec (.hicEnSet core (src / 32) (2 ^ (src % 32))) s = .next t ∧ t.enab src = true ∧ RegsKeptOutside [] s t) ∧
    (∃ t, exec (.hicEnClr core (src / 32) (2 ^ (src % 32))) s = .next t ∧ t.enab src = false ∧ RegsKeptOutside [] s t) ∧
    (s.isLevel src = false →
      (∃ t, exec (.hicPendSet core (src / 32) (2 ^ (src % 32))) s = .next t ∧ t.pend src = true ∧ RegsKeptOutside [] s t) ∧
      (∃ t, exec (.hicPendClr core (src / 32) (2 ^ (src % 32))) s = .next t ∧ t.pend src = false ∧ RegsKeptOutside [] s t)) ∧
    (s.isLevel src = true → exec (.hicPendSet core (src / 32) (2 ^ (src % 32))) s = .next s ∧
      exec (.hicPendClr core (src / 32) (2 ^ (src % 32))) s = .next s))

/-- A write of HIC_EOI by a core that runs ends the service of its source where that core is its CLAIMER, with one count in HIC_SPUR_s where
SPURIOUS is set; any other write of it, or one for a source not in service, ends nothing and sets the writer's BAD_EOI, whose event alone
becomes pending. -/
def Obligations.EndOfService : Prop :=
  ∀ (s : State) (core v : Nat), s.running = true → s.coreRuns core = true →
    let src := v % 512
    (hicExists src = true → s.insvc src = true → s.get (R.HIC_ROUTE_CLAIMER src) = core →
      ∃ t, exec (.hicEoi core v) s = .next t ∧ t.insvc src = false ∧ t.get (R.HIC_ROUTE_CLAIMER src) = 0 ∧
        t.get (R.HIC_SPUR_COUNT src) = (if bit v 31 then min (s.get (R.HIC_SPUR_COUNT src) + 1) (2 ^ 16 - 1) else s.get (R.HIC_SPUR_COUNT src)) ∧
        (∀ d, d < 192 → d ≠ src → t.insvc d = s.insvc d) ∧ t.flag (R.HIC_CORE_BAD_EOI core) = s.flag (R.HIC_CORE_BAD_EOI core) ∧
        RegsKeptOutside [] s t ∧ t = { s with regs := t.regs, hic := t.hic }) ∧
    (hicExists src = false ∨ s.insvc src = false ∨ s.get (R.HIC_ROUTE_CLAIMER src) ≠ core →
      ∃ t, exec (.hicEoi core v) s = .next t ∧ t.flag (R.HIC_CORE_BAD_EOI core) = true ∧ (∀ d, d < 192 → t.insvc d = s.insvc d) ∧
        (∀ d, d < 192 → d ≠ 105 → t.pend d = s.pend d) ∧ (∀ d, t.get (R.HIC_SPUR_COUNT d) = s.get (R.HIC_SPUR_COUNT d)) ∧
        RegsKeptOutside [] s t ∧ t = { s with regs := t.regs, hic := t.hic })

/-- Events at the interrupt controller: the filter and the sense of an external input are written, and a level it accepts is shown; the
redirect timer moves a source to ALT, whose core wakes; a timer that has come to its compare value rings and advances by whole periods, or
stops with a period of 0; a core that sleeps is shown asleep; an access that is denied is recorded once and its core takes the fault entry. -/
def Obligations.HicEvents : Prop :=
  (∀ (s : State) (core n v : Nat), s.running = true → s.coreRuns core = true → n < 16 →
    (core < 4 → ∃ t, exec (.hicExtWrite core n v) s = .next t ∧ t.get (R.HIC_EXT_FILT n) = v % 2 ^ 8 ∧ t.get (R.HIC_EXT_SENSE n) = v / 2 ^ 8 % 4 ∧
      t.get (R.HIC_ROUTE_LEVEL n) = b2n (decide (v / 2 ^ 8 % 4 < 2)) ∧ RegsKeptOutside [] s t) ∧
    (4 ≤ core → exec (.hicExtWrite core n v) s = .next (s.framed (s.violation core (0x40003000 + 4 * n) .write)))) ∧
  (∀ (s : State) (n : Nat) (level : Bool), s.running = true → n < 16 →
    (bit s.hic.extLevel n = level → exec (.extIrqEdge n level) s = .next s) ∧
    (bit s.hic.extLevel n ≠ level → ∃ t, exec (.extIrqEdge n level) s = .next t ∧ bit t.hic.extLevel n = level ∧
      t.flag (R.HIC_EXT_LINE n) = (level == (s.get (R.HIC_EXT_SENSE n) % 2 == 0)) ∧
      (s.isLevel n = false → level = (s.get (R.HIC_EXT_SENSE n) == 2) → t.pend n = true) ∧ RegsKeptOutside [] s t)) ∧
  (∀ (s : State) (src c : Nat), s.running = true → s.curCore src = some c → s.hic.redirect.contains src = true → s.deliverable src c = true →
    s.coreAsleep c = true → s.get (R.HIC_ROUTE_ALT src) < 6 →
    ∃ t, exec (.redirectTimeout src) s = .next t ∧ t.get (R.HIC_ROUTE_CUR src) = s.get (R.HIC_ROUTE_ALT src) ∧ t.flag (R.HIC_ROUTE_REDIR src) = true ∧
      t.flag R.HIC_STAT_REDIRECT = true ∧ t.coreAsleep (s.get (R.HIC_ROUTE_ALT src)) = false ∧ RegsKeptOutside [] s t) ∧
  (∀ (s : State) (n : Nat), s.running = true → n < 16 →
    (s.flag (R.HIC_TMR_CTRL_EN n) = true → 0 ≤ sdiff40 s.time40 (s.get (R.HIC_TMR_CMP_CMP n)) →
      ∃ t, exec (.hicTimer n) s = .next t ∧ t.pend (112 + n) = true ∧
        (s.get (R.HIC_TMR_PERIOD_PERIOD n) = 0 → t.flag (R.HIC_TMR_CTRL_EN n) = false ∧
          t.get (R.HIC_TMR_CMP_CMP n) = s.get (R.HIC_TMR_CMP_CMP n)) ∧
        (∀ p, s.get (R.HIC_TMR_PERIOD_PERIOD n) = p → p ≠ 0 → t.flag (R.HIC_TMR_CTRL_EN n) = true ∧ t.get (R.HIC_TMR_CMP_CMP n)
          = (s.get (R.HIC_TMR_CMP_CMP n) + p * ((sdiff40 s.time40 (s.get (R.HIC_TMR_CMP_CMP n))).toNat / p + 1)) % 2 ^ 40) ∧
        RegsKeptOutside [] s t) ∧
    (s.flag (R.HIC_TMR_CTRL_EN n) = false ∨ sdiff40 s.time40 (s.get (R.HIC_TMR_CMP_CMP n)) < 0 → exec (.hicTimer n) s = .next s)) ∧
  (∀ (s : State) (c : Nat), s.running = true → s.coreRuns c = true → (∀ src, hicExists src = true → s.deliverable src c = false) →
    ∃ t, exec (.coreSleep c) s = .next t ∧ t.coreAsleep c = true ∧ RegsKeptOutside [] s t) ∧
  (∀ (s : State) (core addr : Nat) (kind : AccessKind), s.running = true →
    (s.coreRuns core = false ∨ s.denied core addr kind = false → exec (.accessFault core addr kind) s = .next s) ∧
    (s.coreRuns core = true → s.denied core addr kind = true →
      (s.flag R.HIC_AVIOL_INFO_VALID = true → exec (.accessFault core addr kind) s = .next { s with out := .coreEntry core 0x80 :: s.out }) ∧
      (s.flag R.HIC_AVIOL_INFO_VALID = false → ∃ t, exec (.accessFault core addr kind) s = .next t ∧
        t.out = .coreEntry core 0x80 :: s.out ∧ t.get R.HIC_AVIOL_ADDR_ADDR = addr % 2 ^ 32 ∧ t.get R.HIC_AVIOL_INFO_CORE = core ∧
        t.get R.HIC_AVIOL_INFO_WRITE = b2n (kind == .write) ∧ t.get R.HIC_AVIOL_INFO_EXEC = b2n (kind == .exec) ∧
        t.flag R.HIC_AVIOL_INFO_VALID = true ∧ RegsKeptOutside [] s t)))

/-! ## DRAM (chapter 15) -/

/-- A channel that runs takes refreshes and calibrations, and nothing else is changed; a parity alert stops it, counts and is shown, and
its end issues precharge-all to every rank, then the commands of the window in their order, and lets it run again; the second alert in the
wake of attempt 3 parts the channel.  A clean scrubbed unit changes no error register; a single error is counted.  A relayout with
its conditions met takes the channels that run. -/
def Obligations.DramCommands : Prop :=
  (∀ (s : State) (c rank : Nat), s.dramRuns c = false → exec (.refresh c) s = .next s ∧ exec (.zqcs c rank) s = .next s ∧
    exec (.alertFall c) s = .next s) ∧
  (∀ (s : State) (c rank : Nat), s.running = true → s.dramRuns c = true →
    (∃ t, exec (.refresh c) s = .next t ∧ t.out = .dram c 1 :: s.out ∧ t = { s with drc := t.drc, out := t.out }) ∧
    (rank < field s.dramDesc 5 1 → ∃ t, exec (.zqcs c rank) s = .next t ∧ t.out = .dram c 2 :: s.out ∧ t = { s with drc := t.drc, out := t.out })) ∧
  (∀ (s : State) (c : Nat), s.running = true → s.dramRuns c = true → c < s.drc.chans.length →
    ((s.chan c).attempt = 0 ∨ (s.chan c).replayT + 64 < s.now ∨ (s.chan c).attempt < 3 →
      ∃ t, exec (.alertFall c) s = .next t ∧ t.get (R.DRC_CH_ALERT_ALERTS c) = min (s.get (R.DRC_CH_ALERT_ALERTS c) + 1) (2 ^ 16 - 1) ∧
        t.flag (R.DRC_CH_STAT_ALERT c) = true ∧ (t.chan c).low = true ∧ (t.chan c).fallT = s.now ∧
        (t.chan c).attempt = (if 1 ≤ (s.chan c).attempt ∧ s.now ≤ (s.chan c).replayT + 64 then (s.chan c).attempt + 1 else 1) ∧
        RegsKeptOutside [R.DRC_CH_ALERT_ALERTS c, R.DRC_CH_STAT_ALERT c] s t) ∧
    (3 ≤ (s.chan c).attempt → s.now ≤ (s.chan c).replayT + 64 →
      exec (.alertFall c) s = .next (s.framed ((((s.bump (R.DRC_CH_ALERT_ALERTS c)).raise (R.DRC_CH_STAT_ALERT c) srcDRC).raise
        (R.DRC_CH_STAT_REPLAY_FAIL c) srcDRC).report (32 + c) c 2)))) ∧
  (∀ (s : State) (c : Nat), s.running = true →
    ((s.chan c).low = false → exec (.alertRise c) s = .next s) ∧
    ((s.chan c).low = true → ∃ t, exec (.alertRise c) s = .next t ∧ (t.chan c).low = false ∧ (t.chan c).attempt = (s.chan c).attempt ∧
      t.get (R.DRC_CH_ALERT_REPLAYS c) = min (s.get (R.DRC_CH_ALERT_REPLAYS c) + 1) (2 ^ 16 - 1) ∧
      t.out = ((s.chan c).cmds.filter (fun (e : Nat × Nat) => decide ((s.chan c).fallT ≤ e.2 + Config.tParAlertOn + 8))).map
        (fun (e : Nat × Nat) => .dram c e.1) ++ List.replicate (max 1 (field s.dramDesc 5 1)) (.dram c 3) ++ s.out ∧
      RegsKept [R.DRC_CH_ALERT_REPLAYS c] s t)) ∧
  (∀ (s : State) (c addr : Nat) (words : List Nat), s.running = true → s.flag R.DRC_CTRL_SCRUB_EN = true → s.dramRuns c = true →
    s.drc.layout.contains c = true → addr / 64 * 64 + 64 < s.get (R.DRC_CH_SIZE_MB c) * 2 ^ 20 →
    ((∀ w ∈ words.take 4, eccJudge w = .clean) → ∃ t, exec (.dramScrub c addr words) s = .next t ∧ t.out = .dram c 4 :: s.out ∧
      t = { s with drc := t.drc, out := t.out }) ∧
    (∀ w i d, words = [w] → eccJudge w = .fixed i d → ∃ t, exec (.dramScrub c addr words) s = .next t ∧ t.out = .dram c 5 :: .dram c 4 :: s.out ∧
      t.get (R.DRC_CH_CNT_CE c) = min (s.get (R.DRC_CH_CNT_CE c) + 1) (2 ^ 16 - 1) ∧ t.flag (R.DRC_CH_STAT_CE c) = true ∧
      (s.flag (R.DRC_CH_STAT_CE c) = false → s.flag (R.DRC_CH_STAT_UE c) = false → t.get (R.DRC_CH_ERRADDR_CA c)
        = (addr / 64 * 64) % 2 ^ (R.DRC_CH_ERRADDR_CA c).width))) ∧
  (∀ s : State, s.running = true → (s.relayoutOk = false → exec .relayout s = .next s) ∧
    (s.relayoutOk = true → ∃ t, exec .relayout s = .next t ∧ t.flag R.DRC_STAT_RELAYOUT_DUE = false ∧
      t.drc.layout = (List.range s.nChans).filter (fun (c : Nat) => s.get (R.DRC_CH_STAT_STATE c) == 2 && !s.bitIn R.DRC_STAT_PARTED c) ∧
      t.drc.grain = min 8 (s.get R.DRC_CTRL_GRAIN) ∧ (∀ b ∈ t.store.billets, b.consumed = false)))

/-! ## Network time (chapter 16) -/

/-- Network time: a message of a port that takes no part is ignored, one outside the subset is dropped and counted.  An Announce is
judged with the others and sent on by a port that is MASTER; when the last master is gone the state is HOLDOVER and LOST_GM is
shown.  A Sync of the port that is SLAVE gives its offset.  A change of the configuration, PTP_CONFIG and TMB_CTRL begin acquisition. -/
def Obligations.NetworkTime : Prop :=
  (∀ (s : State) (p : Nat) (a : PtpAnnounce) (d : PtpDelay) (y : PtpSync), s.running = true →
    (s.ptpEnabled p = false → exec (.announceMessage p a) s = .next s ∧ exec (.delayMessage p d) s = .next s ∧
      exec (.syncMessage p y) s = .next s ∧ exec (.announceTimeout p) s = .next s) ∧
    (s.ptpEnabled p = true →
      (s.ptpBad a.head (-3) 4 = true → exec (.announceMessage p a) s = .next (s.bump R.TMB_CNT_BADMSG)) ∧
      (s.ptpBad d.head (-7) 5 = true → exec (.delayMessage p d) s = .next (s.bump R.TMB_CNT_BADMSG)) ∧
      (s.ptpBad y.head (-7) 1 = true → exec (.syncMessage p y) s = .next (s.bump R.TMB_CNT_BADMSG)))) ∧
  (∀ (s : State) (p : Nat) (a : PtpAnnounce), s.running = true → s.ptpEnabled p = true → s.ptpBad a.head (-3) 4 = false →
    exec (.announceMessage p a) s = .next (s.framed
      ((({ s with tmb := { s.tmb with heard := modifyNth s.tmb.heard p (fun _ => some a) } } : State).bmca).ptpRelay 0xB))) ∧
  (∀ (s : State) (p : Nat), s.running = true → s.ptpEnabled p = true → (s.tmb.heard.getD p none).isSome = true →
    let u : State := { s with tmb := { s.tmb with heard := modifyNth s.tmb.heard p (fun _ => none) } }
    (u.bestPort ≠ none → exec (.announceTimeout p) s = .next (s.framed u.bmca)) ∧
    (u.bestPort = none → ∃ t, exec (.announceTimeout p) s = .next t ∧ t.get R.TMB_STAT_STATE = 3 ∧ t.get R.TMB_STAT_SLAVE = 0 ∧
      t.flag R.TMB_STAT_LOST_GM = true ∧ t.tmb.ports = [0, 0] ∧
      RegsKeptOutside [R.TMB_STAT_STATE, R.TMB_STAT_SLAVE, R.TMB_STAT_LOST_GM, R.TMB_RATE_R] s t)) ∧
  (∀ (s : State) (p : Nat) (d : PtpDelay), s.running = true → s.ptpEnabled p = true → s.ptpBad d.head (-7) 5 = false →
    s.tmb.ports.getD p 0 = 1 → ∃ t, exec (.delayMessage p d) s = .next t ∧ t.get R.TMB_PATHDLY_D = unsigned 32 (s.pathDelay p d) % 2 ^ 32 ∧
      t.tmb = { s.tmb with delay := modifyNth s.tmb.delay p (fun _ => some (s.pathDelay p d)) } ∧ RegsKept [R.TMB_PATHDLY_D] s t) ∧
  (∀ (s : State) (p : Nat) (y : PtpSync) (delay : Int), s.running = true → s.ptpEnabled p = true → s.ptpBad y.head (-7) 1 = false →
    (s.tmb.ports.getD p 0 ≠ 1 → exec (.syncMessage p y) s = .next s) ∧
    (s.tmb.ports.getD p 0 = 1 → s.tmb.delay.getD p none = some delay →
      exec (.syncMessage p y) s = .next (s.framed ((s.ptpRelay 0).offsetIn (s.syncOffset p y delay) (masterTime y delay))))) ∧
  (∀ (s : State) (o m : Int), s.get R.TMB_STAT_STATE = 2 → s.tmb.meanDone = true →
    (s.offsetIn o m).time40 = s.time40 ∧
    ((1000000 * 65536 < o.natAbs → s.tmb.large < 3 → (s.offsetIn o m).tmb.large = s.tmb.large + 1) ∧
      (o.natAbs ≤ 1000000 * 65536 → (s.offsetIn o m).tmb.large = 0))) ∧
  (∀ s : State, s.running = true →
    (s.ptpEnabled 0 = false → s.ptpEnabled 1 = false → exec .tmbReacq s = .next s) ∧
    (s.ptpEnabled 0 = true ∨ s.ptpEnabled 1 = true → ∃ t, exec .tmbReacq s = .next t ∧ t.get R.TMB_STAT_STATE = 1 ∧ t.time40 = s.time40 ∧
      t.tmb = { s.tmb with offs := [], meanDone := false, inLock := 0, large := 0 } ∧ RegsKept [R.TMB_STAT_STATE] s t)) ∧
  (∀ (s : State) (v : Nat), s.running = true → s.get R.TMB_CFG_P0EN ≠ v % 2 →
    ∃ t, exec (.tmbCfgWrite v) s = .next t ∧ t.get R.TMB_CFG_P0EN = v % 2 ∧ t.get R.TMB_CFG_P1EN = v / 2 % 2 ∧
      t.get R.TMB_CFG_BOUNDARY = v / 4 % 2 ∧ t.get R.TMB_CFG_TWO_STEP = v / 8 % 2 ∧ t.get R.TMB_CFG_PROFILE = v / 16 % 2 ^ R.TMB_CFG_PROFILE.width ∧
      t.get R.TMB_CFG_DOMAIN = v / 256 % 2 ^ 8 ∧ t.get R.TMB_CFG_LOCK_NS = v / 65536 % 2 ^ 8 ∧ t.tmb.ports = [0, 0] ∧
      t.get R.TMB_STAT_STATE = (if v % 4 = 0 then 0 else 1)) ∧
  (∀ (s : State) (c : Cmd), Waiting s c opPTP_CONFIG → let p := s.payloadOf c
    field p 0 1 < 16 → resv p [(3, 1), (20, 4)] = false →
    (4 ≤ field p 1 1 → ∃ t, exec (.ptpConfig c.ref) s = .next t ∧ Completed s t c stPROFILE 0 []) ∧
    (field p 1 1 < 4 →
      let u := s.forEach [0, 1] (fun s n =>
        (s.put (R.TMB_ASYM_IN_ASYM n) (field p (4 + 8 * n) 4)).put (R.TMB_ASYM_EG_ASYM n) (field p (8 + 8 * n) 4))
      let w := (u.put R.TMB_CFG_BOUNDARY (field p 0 1 / 4)).put R.TMB_CFG_TWO_STEP (field p 0 1 / 8)
      ∃ t, exec (.ptpConfig c.ref) s = .next t ∧ Completed
        (w.tmbCfg (field p 0 1 + field p 1 1 * 2 ^ 4 + field p 2 1 * 2 ^ 8 + s.get R.TMB_CFG_LOCK_NS * 2 ^ 16)) t c stOK 0 []))

/-! ## Motion (chapter 19) -/

/-- The profile.  A tick leaves every axis at rest where it is; toward a goal that lies ahead a tick never passes the goal and never moves
away from it, and it reports the goal reached exactly there and at rest.  A logged move starts when its START has come, and not before. -/
def Obligations.AxisProfile : Prop :=
  (∀ s : State, s.running = true → exec .profileTick s = .next (s.framed (s.forEach (List.range 8) State.axTick)) ∧
    ((∀ n, n < 8 → (s.axis n).run = .rest) → exec .profileTick s = .next s)) ∧
  (∀ (a : Axis) (d : Rat), 0 ≤ a.speed → 0 ≤ a.acc → a.overrun = false → (a.vel = 0 ∨ sgn a.vel = sgn ((a.goal : Rat) - a.pos)) →
    (a.pos ≤ a.goal → a.pos ≤ (a.seek d).1.pos ∧ (a.seek d).1.pos ≤ a.goal) ∧
    ((a.goal : Rat) ≤ a.pos → (a.goal : Rat) ≤ (a.seek d).1.pos ∧ (a.seek d).1.pos ≤ a.pos) ∧
    ((a.seek d).2 = true → (a.seek d).1.pos = a.goal ∧ (a.seek d).1.vel = 0)) ∧
  (∀ (s : State) (ax t : Nat) (req : AxReq) (rest : List (Nat × AxReq)), s.running = true → ax < 8 → (s.axis ax).wait = (t, req) :: rest →
    (reached40 t s.axTime = true → exec (.moveStart ax) s = .next (s.framed ((s.onAxis ax (fun a => { a with wait := rest })).axDo ax req))) ∧
    (reached40 t s.axTime = false → exec (.moveStart ax) s = .next s)) ∧
  (∀ (s : State) (ax : Nat), (s.axis ax).wait = [] → exec (.moveStart ax) s = .next s)

/-- Events at an axis: a stall ends a homing at HOME_POS with the position known, and its back-off ends homed; a driver fault stops the axis
where it is with its position lost, and FAULT ends with the input; a sensor frame is shown, or counted where it is bad; the driver's enable
goes up at once, falls at rest, and otherwise after the axis has stopped. -/
def Obligations.AxisEvents : Prop :=
  (∀ (s : State) (ax : Nat) (up : Bool), s.running = true → ax < 8 → s.mode ≠ .shadow → (s.axis ax).run = .home up → s.stallCounts ax = true →
    ∃ t, exec (.stallAccept ax) s = .next t ∧ (t.axis ax).run = .homeWait ∧ t.get (R.MOT_AX_POS_POS ax) = s.get (R.MOT_AX_W8_HOME_POS ax) ∧
      t.get (R.MOT_AX_STAT_LOST ax) = 0 ∧ t.get (R.MOT_AX_STAT_STALL ax) = 1 ∧ t.get (R.MOT_AX_VEL_VEL ax) = 0 ∧
      RegsKept [R.MOT_AX_POS_POS ax, R.MOT_AX_STAT_LOST ax, R.MOT_AX_STAT_UNCERTAIN ax, R.MOT_AX_UNCERT_E ax, R.MOT_AX_STAT_STALL ax,
        R.MOT_AX_STAT_STATE ax, R.MOT_AX_VEL_VEL ax, R.TSL_LOG_TX_OFF] s t) ∧
  (∀ (s : State) (ax : Nat), s.running = true → ax < 8 → (s.axis ax).run = .homeWait →
    ((s.axis ax).backoff = 0 → ∃ t, exec (.homeBackoff ax) s = .next t ∧ (t.axis ax).run = .rest ∧ t.flag (R.MOT_AX_STAT_HOMED ax) = true ∧
      t.get (R.MOT_AX_POS_POS ax) = s.get (R.MOT_AX_POS_POS ax)) ∧
    ((s.axis ax).backoff ≠ 0 → ∃ t, exec (.homeBackoff ax) s = .next t ∧ (t.axis ax).run = .back ∧
      (t.axis ax).goal = s.axPos ax + (if (s.axis ax).homeUp then -((s.axis ax).backoff : Int) else ((s.axis ax).backoff : Int)) ∧
      RegsKept [R.MOT_AX_STAT_STALL ax, R.MOT_AX_STAT_STATE ax, R.MOT_AX_VEL_VEL ax] s t)) ∧
  (∀ (s : State) (ax : Nat), s.running = true → ax < 8 → s.mode ≠ .shadow →
    (∃ t, exec (.dfaultAccept ax) s = .next t ∧ (t.axis ax).run = .rest ∧ t.flag (R.MOT_AX_STAT_FAULT ax) = true ∧
      t.flag (R.MOT_AX_STAT_LOST ax) = true ∧ t.get (R.MOT_AX_POS_POS ax) = s.get (R.MOT_AX_POS_POS ax)) ∧
    (s.flag (R.MOT_AX_STAT_FAULT ax) = true → ∃ t, exec (.dfaultInactive ax) s = .next t ∧ t.flag (R.MOT_AX_STAT_FAULT ax) = false ∧
      RegsKept [R.MOT_AX_STAT_FAULT ax, R.TSL_LOG_TX_OFF] s t) ∧
    (s.flag (R.MOT_AX_STAT_FAULT ax) = false → exec (.dfaultInactive ax) s = .next s)) ∧
  (∀ (s : State) (k raw : Nat), s.running = true → k < 4 →
    (s.flag (R.MOT_SSI_CFG_EN k) = false → ∀ ok, exec (.ssiFrame k raw ok) s = .next s) ∧
    (s.flag (R.MOT_SSI_CFG_EN k) = true →
      (∃ t, exec (.ssiFrame k raw false) s = .next t ∧ t.get (R.MOT_SSI_ERR_COUNT k) = min (s.get (R.MOT_SSI_ERR_COUNT k) + 1) (2 ^ 16 - 1) ∧
        RegsKept [R.MOT_SSI_ERR_COUNT k] s t ∧ t = { s with regs := t.regs }) ∧
      (∀ v, v = (if s.flag (R.MOT_SSI_CFG_GRAY k) then grayOf (raw % 2 ^ max 8 (min 32 (s.get (R.MOT_SSI_CFG_BITS k))))
          else raw % 2 ^ max 8 (min 32 (s.get (R.MOT_SSI_CFG_BITS k)))) →
        ((∀ n, n < 8 → s.get (R.MOT_AX_W0_SSI n) ≠ k) → ∃ t, exec (.ssiFrame k raw true) s = .next t ∧
          t.get (R.MOT_SSI_DATA_VALUE k) = v % 2 ^ 32 ∧ RegsKept [R.MOT_SSI_DATA_VALUE k] s t ∧ t = { s with regs := t.regs }) ∧
        exec (.ssiFrame k raw true) s = .next (s.framed ((s.put (R.MOT_SSI_DATA_VALUE k) v).forEach
          ((List.range 8).filter (fun (n : Nat) => s.get (R.MOT_AX_W0_SSI n) == k)) (fun s n => s.axSsi n v)))))) ∧
  (∀ (s : State) (ax v : Nat), s.running = true → ax < 8 → s.mode ≠ .shadow →
    (v % 2 = 1 → ∃ t, exec (.drvEnWrite ax v) s = .next t ∧ t.flag (R.MOT_AX_CMD_DRV_EN ax) = true ∧ t.flag (R.MOT_AX_STAT_DRV_ON ax) = true ∧
      RegsKept [R.MOT_AX_CMD_DRV_EN ax, R.MOT_AX_STAT_DRV_ON ax] s t) ∧
    (v % 2 = 0 → s.flag (R.MOT_AX_CMD_DRV_EN ax) = false → ∃ t, exec (.drvEnWrite ax v) s = .next t ∧
      RegsKept [R.MOT_AX_CMD_DRV_EN ax] s t ∧ t = { s with regs := t.regs }) ∧
    (v % 2 = 0 → s.flag (R.MOT_AX_CMD_DRV_EN ax) = true → (s.axis ax).run = .rest → ∃ t, exec (.drvEnWrite ax v) s = .next t ∧
      t.flag (R.MOT_AX_CMD_DRV_EN ax) = false ∧ t.flag (R.MOT_AX_STAT_DRV_ON ax) = false ∧
      (s.flag (R.MOT_AX_W0_RETAIN ax) = false → t.flag (R.MOT_AX_STAT_LOST ax) = true) ∧
      (s.flag (R.MOT_AX_W0_RETAIN ax) = true → t.get (R.MOT_AX_STAT_LOST ax) = s.get (R.MOT_AX_STAT_LOST ax))) ∧
    (v % 2 = 0 → s.flag (R.MOT_AX_CMD_DRV_EN ax) = true → (s.axis ax).run = .move → ∃ t, exec (.drvEnWrite ax v) s = .next t ∧
      (t.axis ax).run = .stop (s.get (R.MOT_AX_W3_DEC_DEF ax) : Rat) ∧ (t.axis ax).drvOff = true ∧
      t.get (R.MOT_AX_STAT_DRV_ON ax) = s.get (R.MOT_AX_STAT_DRV_ON ax))) ∧
  (∀ (s : State) (ax : Nat), s.running = true → ax < 8 → ((s.axis ax).drvOff = true → (s.axis ax).run = .rest →
      exec (.drvenFall ax) s = .next (s.framed (s.drvFall ax)) ∧ (s.drvFall ax).flag (R.MOT_AX_STAT_DRV_ON ax) = false) ∧
    ((s.axis ax).drvOff = false ∨ (s.axis ax).run ≠ .rest → exec (.drvenFall ax) s = .next s))

/-- An axis with a sensor compares its position with S = SSI_OFF + value × SSI_SCALE ÷ 65,536, shown in SSIPOS, at each good frame while it is
at rest and not LOST: a difference above SSI_TOL sets SSI_DEV, and with SSI_ACT also LOST.  REBASE on an axis at rest with a sensor loads the
position from S at the next good frame and clears LOST and UNCERTAIN, and not HOMED; on one that moves or has no sensor it is ignored.  (The
inputs of a member in SHADOW do not count.) -/
def Obligations.SensorPosition : Prop :=
  (∀ (s : State) (n k raw v : Nat), s.running = true → s.mode ≠ .shadow → n < 8 → k < 4 → s.get (R.MOT_AX_W0_SSI n) = k →
    s.flag (R.MOT_SSI_CFG_EN k) = true →
    v = (if s.flag (R.MOT_SSI_CFG_GRAY k) then grayOf (raw % 2 ^ max 8 (min 32 (s.get (R.MOT_SSI_CFG_BITS k))))
      else raw % 2 ^ max 8 (min 32 (s.get (R.MOT_SSI_CFG_BITS k)))) →
    let p : Int := signed 32 (s.get (R.MOT_AX_W13_SSI_OFF n)) + (v * s.get (R.MOT_AX_W12_SSI_SCALE n) / 65536 : Nat)
    ∃ t, exec (.ssiFrame k raw true) s = .next t ∧ t.get (R.MOT_AX_SSIPOS_S n) = unsigned 32 p ∧
      ((s.axis n).run = .rest → (s.axis n).rebase = true → t.get (R.MOT_AX_POS_POS n) = unsigned 32 p ∧ t.flag (R.MOT_AX_STAT_LOST n) = false ∧
        t.flag (R.MOT_AX_STAT_UNCERTAIN n) = false ∧ t.get (R.MOT_AX_STAT_HOMED n) = s.get (R.MOT_AX_STAT_HOMED n) ∧ (t.axis n).rebase = false) ∧
      ((s.axis n).rebase = false → t.get (R.MOT_AX_POS_POS n) = s.get (R.MOT_AX_POS_POS n) ∧
        ((s.axis n).run = .rest → s.flag (R.MOT_AX_STAT_LOST n) = false → s.get (R.MOT_AX_W14_SSI_TOL n) < (s.axPos n - p).natAbs →
          t.flag (R.MOT_AX_STAT_SSI_DEV n) = true ∧ t.flag (R.MOT_AX_STAT_LOST n) = s.flag (R.MOT_AX_W0_SSI_ACT n)) ∧
        ((s.axis n).run ≠ .rest ∨ s.flag (R.MOT_AX_STAT_LOST n) = true ∨ (s.axPos n - p).natAbs ≤ s.get (R.MOT_AX_W14_SSI_TOL n) →
          t.get (R.MOT_AX_STAT_SSI_DEV n) = s.get (R.MOT_AX_STAT_SSI_DEV n) ∧ t.get (R.MOT_AX_STAT_LOST n) = s.get (R.MOT_AX_STAT_LOST n)))) ∧
  (∀ (s : State) (ax : Nat), s.running = true → ax < 8 →
    (s.mode ≠ .shadow → (s.axis ax).run = .rest → s.get (R.MOT_AX_W0_SSI ax) < 4 →
      exec (.rebase ax) s = .next (s.onAxis ax (fun a => { a with rebase := true }))) ∧
    ((s.axis ax).run ≠ .rest ∨ 4 ≤ s.get (R.MOT_AX_W0_SSI ax) → exec (.rebase ax) s = .next s))

/-- The Motion commands.  A MOVE of an axis whose position is lost by an absolute target, of one with a fault, beyond a limit, or of one that
homes or is in a group is refused, and otherwise issued; a MOVE_GROUP, a HOME and an AXIS_STOP likewise by their own rules. -/
def Obligations.AxisCommands : Prop :=
  (∀ (s : State) (c : Cmd) (n : Nat) (rel : Bool), Waiting s c opMOVE → s.arg c 0 1 = n → n < 8 → s.arg c 1 1 = b2n rel → s.arg c 2 2 = 0 →
    let t := s.axTarget n rel (s.argS c 4)
    (s.flag (R.MOT_AX_STAT_LOST n) = true → rel = false → ∃ t, exec (.move c.ref) s = .next t ∧ Completed s t c 0x0140 0 []) ∧
    (s.flag (R.MOT_AX_STAT_LOST n) = false → s.flag (R.MOT_AX_STAT_FAULT n) = true →
      ∃ t, exec (.move c.ref) s = .next t ∧ Completed s t c 0x0141 0 []) ∧
    (s.axRefuse n rel t = 0x0142 → ∃ t, exec (.move c.ref) s = .next t ∧ Completed s t c 0x0142 0 []) ∧
    (s.axRefuse n rel t = 0 → s.axTaken n = true ∨ s.axBusy n = true → ∃ t, exec (.move c.ref) s = .next t ∧ Completed s t c 0x0143 0 []) ∧
    (s.axRefuse n rel t = 0 → s.axTaken n = false → s.axBusy n = false → ∃ u, exec (.move c.ref) s = .next u ∧
      Completed (s.axIssue n (.move t (s.axSpeed n (s.arg c 8 4)) (s.axAcc n (s.arg c 12 4)) (s.axDec n (s.arg c 16 4)))) u c stOK 0 [])) ∧
  (∀ (s : State) (c : Cmd) (n : Nat), Waiting s c opHOME → s.arg c 0 1 = n → n < 8 → s.arg c 1 1 < 2 → s.arg c 2 2 = 0 →
    (s.flag (R.MOT_AX_STAT_FAULT n) = true → ∃ t, exec (.home c.ref) s = .next t ∧ Completed s t c 0x0141 0 []) ∧
    (s.flag (R.MOT_AX_STAT_FAULT n) = false → (s.axis n).run ≠ .rest → ∃ t, exec (.home c.ref) s = .next t ∧ Completed s t c 0x0143 0 []) ∧
    (s.flag (R.MOT_AX_STAT_FAULT n) = false → s.axTaken n = false → (s.axis n).run = .rest → ∃ t, exec (.home c.ref) s = .next t ∧
      Completed (s.axIssue n (.home (!bit (s.arg c 1 1) 0) (s.axSpeed n (s.arg c 4 4)) (s.arg c 8 4))) t c stOK 0 [])) ∧
  (∀ (s : State) (c : Cmd), Waiting s c opAXIS_STOP → s.arg c 1 1 < 2 → s.arg c 2 2 = 0 → ∃ t, exec (.axisStop c.ref) s = .next t ∧
    Completed (s.forEach (members 8 (s.arg c 0 1)) (fun s n => s.axIssue n (.stop (bit (s.arg c 1 1) 0)))) t c stOK 0 []) ∧
  (∀ (s : State) (n : Nat) (hard : Bool), s.logOpen = false → (s.axis n).run = .rest → s.axIssue n (.stop hard) = s) ∧
  (∀ (s : State) (c : Cmd) (rel : Bool), Waiting s c opMOVE_GROUP → s.arg c 0 1 ≠ 0 → s.arg c 1 1 = b2n rel → s.arg c 2 2 = 0 →
    (∀ i, i < 8 → bit (s.arg c 0 1) i = false → s.argS c (16 + 4 * i) = 0) →
    let m := members 8 (s.arg c 0 1)
    let g (i : Nat) : Int := if bit (s.arg c 0 1) i then s.axTarget i rel (s.argS c (16 + 4 * i)) else s.axPos i
    (∀ i, m.find? (fun (i : Nat) => s.axRefuse i rel (g i) != 0) = some i →
      ∃ t, exec (.moveGroup c.ref) s = .next t ∧ Completed s t c (s.axRefuse i rel (g i)) 0 []) ∧
    ((∀ i ∈ m, s.axRefuse i rel (g i) = 0) → (∃ i ∈ m, s.axTaken i = true ∨ (s.axis i).run ≠ .rest) →
      ∃ t, exec (.moveGroup c.ref) s = .next t ∧ Completed s t c 0x0143 0 []) ∧
    ((∀ i ∈ m, s.axRefuse i rel (g i) = 0) → (∀ i ∈ m, s.axTaken i = false ∧ (s.axis i).run = .rest) →
      ∀ lead ∈ m, (∀ i ∈ m, (g i - s.axPos i).natAbs ≤ (g lead - s.axPos lead).natAbs ∧
        (i < lead → (g i - s.axPos i).natAbs < (g lead - s.axPos lead).natAbs)) →
      ∃ t, exec (.moveGroup c.ref) s = .next t ∧ Completed (s.axIssue lead (.group (s.arg c 0 1) ((List.range 8).map g)
        (s.axSpeed lead (s.arg c 4 4)) (s.axAcc lead (s.arg c 8 4)) (s.axDec lead (s.arg c 12 4)))) t c stOK 0 []))

/-! ## Job, class, inspection and time commands (chapter 12) -/

/-- The Job commands: what each refuses, and what an accepted one does before its completion.  JOB_DEFINE of the job that prints is refused;
JOB_START names a defined job and takes the GY8 to PRINT; JOB_STOP answers the last line; JOB_ABORT answers the last line that has fired and
takes it to IDLE; JOB_PURGE answers how many billets it removed; GEOMETRY_SET puts the planes of the ports in force. -/
def Obligations.JobCommands : Prop :=
  (∀ (s : State) (c : Cmd), Waiting s c opJOB_DEFINE → let p := s.payloadOf c
    let d := jobDefOf p
    let next := bit (field p 1 1) 1
    jobBad p = false →
    (s.mode = .print → next = false → ∃ t, exec (.jobDefine c.ref) s = .next t ∧ Completed s t c stJOB_ACTIVE 0 []) ∧
    (s.mode ≠ .print → gapListBad d = true → ∃ t, exec (.jobDefine c.ref) s = .next t ∧ Completed s t c stGAP_LIST 0 []) ∧
    (s.mode ≠ .print → gapListBad d = false → next = false → ∃ t, exec (.jobDefine c.ref) s = .next t ∧
      Completed ((s.logWindow opJOB_DEFINE p (16 + 8 * field p 2 1)).defineJob d false) t c stOK 0 []) ∧
    (d.num ≠ s.curJob → gapListBad d = false → next = true → (∀ j, s.store.next = some j → j.accepted = false) →
      ∃ t, exec (.jobDefine c.ref) s = .next t ∧ t.store = { s.store with next := some ⟨d, 0, false, false⟩ } ∧
        Completed ((s.logWindow opJOB_DEFINE p (16 + 8 * field p 2 1)).defineJob d true) t c stOK 0 [])) ∧
  (∀ (s : State) (c : Cmd), Waiting s c opJOB_START → let p := s.payloadOf c
    let n := field p 0 1
    let b := field p 4 4
    n ≠ 0 → resv p [(1, 3)] = false →
    (s.jobNamed n = none → ∃ t, exec (.jobStart c.ref) s = .next t ∧ Completed s t c stNO_JOB 0 []) ∧
    (∀ j, s.jobNamed n = some j →
      (j.d.continuous = false → j.d.lastBand < b → ∃ t, exec (.jobStart c.ref) s = .next t ∧ Completed s t c stBAD_PARAM 0 []) ∧
      (j.d.continuous = true ∨ b ≤ j.d.lastBand → s.tmin (s.get R.FIR_CTRL_CLASS_SEL) = 0 →
        ∃ t, exec (.jobStart c.ref) s = .next t ∧ Completed s t c stNO_WAVEFORM 0 []) ∧
      (j.d.continuous = true ∨ b ≤ j.d.lastBand → s.tmin (s.get R.FIR_CTRL_CLASS_SEL) ≠ 0 → ∃ t, exec (.jobStart c.ref) s = .next t ∧
        Completed (((s.startJob n b).logAdd 0x07 none 0 ([1, n] ++ List.replicate 6 0 ++ toBytes 8 b)).setMode .print mcCOMMAND).kick
          t c stOK 0 []))) ∧
  (∀ (s : State) (c : Cmd), Turn s c opJOB_STOP → let p := s.payloadOf c
    field p 0 1 < 2 → resv p [(1, 2)] = false → (field p 0 1 = 0 → field p 3 5 = 0) →
    (s.mode ≠ .print → s.path.aborted = false → ∃ t, exec (.jobStop c.ref) s = .next t ∧ Completed s t c stWRONG_MODE 0 []) ∧
    (s.mode = .print → let u := s.stopRequest (field p 3 5) mcCOMMAND
      ∃ t, exec (.jobStop c.ref) s = .next t ∧ Completed (u.logAdd 0x07 none 0 ([2, u.curJob] ++ List.replicate 6 0 ++ toBytes 8 (u.path.stop.getD 0)))
        t c stOK 0 (toBytes 5 (u.path.stop.getD 0) ++ [0, 0, 0]))) ∧
  (∀ (s : State) (c : Cmd), Turn s c opJOB_ABORT →
    (s.mode ≠ .print → s.path.aborted = true → ∃ t, exec (.jobAbort c.ref) s = .next t ∧ Completed s t c stOK 0 s.abortResult) ∧
    (s.mode ≠ .print → s.path.aborted = false → ∃ t, exec (.jobAbort c.ref) s = .next t ∧ Completed s t c stWRONG_MODE 0 []) ∧
    (s.mode = .print → let u := s.abortWork
      let v := u.linkCmd ((List.range u.nPorts).filter u.linkUp) 1 3 []
      ∃ t, exec (.jobAbort c.ref) s = .next t ∧ t.mode = .idle ∧
        Completed ((v.logAdd 0x07 none 0 ([3, v.curJob] ++ List.replicate 14 0)).setMode .idle mcCOMMAND) t c stOK 0 s.abortResult)) ∧
  (∀ (s : State) (c : Cmd), Waiting s c opJOB_PURGE → let p := s.payloadOf c
    resv p [(1, 3)] = false → field p 0 1 ≠ 0 → ∃ t, exec (.jobPurge c.ref) s = .next t ∧
      Completed ((s.logWindow opJOB_PURGE p 4).purgeJob (field p 0 1)).1 t c stOK 0
        (toBytes 4 (s.store.billets.filter (fun (b : Billet) => b.job == field p 0 1)).length)) ∧
  (∀ (s : State) (c : Cmd), Waiting s c opGEOMETRY_SET → let p := s.payloadOf c
    let planeOf := (p.drop 4).take 24
    field p 0 1 ≠ 0 → field p 0 1 ≤ 8 → resv p [(1, 3)] = false →
    ((∃ e ∈ planeOf, e ≠ 0xFF ∧ field p 0 1 ≤ e) → ∃ t, exec (.geometrySet c.ref) s = .next t ∧ Completed s t c stPLANE_RANGE 0 []) ∧
    ((∀ e ∈ planeOf, e = 0xFF ∨ e < field p 0 1) → (∀ i, s.nPorts ≤ i → i < 24 → planeOf.getD i 0xFF = 0xFF) →
      ∃ t, exec (.geometrySet c.ref) s = .next t ∧
        Completed ((s.logWindow opGEOMETRY_SET p 28).putGeometry (field p 0 1) planeOf) t c stOK 0 [])) ∧
  (∀ (s : State) (c : Cmd), Waiting s c opSKEW_SET → s.mode = .idle → let q := s.payloadOf c
    field q 0 1 < s.nPorts → field q 1 1 = 0 → field q 6 1 < 64 → resv q [(2, 2), (7, 1), (13, 3)] = false → field q 8 5 = 0 →
    let v := field q 4 2 + field q 6 1 * 2 ^ 16
    (16384 ≤ field q 4 2 → ∃ t, exec (.skewSet c.ref) s = .next t ∧ Completed s t c stREFUSED 1 []) ∧
    (field q 4 2 < 16384 → ∃ t, exec (.skewSet c.ref) s = .next t ∧
      Completed ((s.skewPut (field q 0 1) v).logAdd 0x01 none 2 (regwBody [(0x40301000 + 4 * field q 0 1, v)])) t c stOK 0 (List.replicate 8 0))) ∧
  (∀ (s : State) (c : Cmd) (asap : Bool), Waiting s c opSKEW_SET → s.mode = .print → let q := s.payloadOf c
    let p := field q 0 1
    let off := field q 4 2
    p < s.nPorts → field q 1 1 = b2n asap → field q 6 1 < 64 → resv q [(2, 2), (7, 1), (13, 3)] = false → (asap = true → field q 8 5 = 0) →
    (field q 6 1 ≠ s.get (R.BLT_SKEW_SUBLINE p) → ∃ t, exec (.skewSet c.ref) s = .next t ∧ Completed s t c stSUBLINE_PRINT 0 []) ∧
    (field q 6 1 = s.get (R.BLT_SKEW_SUBLINE p) → s.flag (R.BLT_SKEW_PEND_ARM p) = true →
      ∃ t, exec (.skewSet c.ref) s = .next t ∧ Completed s t c stSKEW_PENDING 0 []) ∧
    (field q 6 1 = s.get (R.BLT_SKEW_SUBLINE p) → s.flag (R.BLT_SKEW_PEND_ARM p) = false →
      let u := ((s.put (R.BLT_SKEW_PEND_OFFSET p) off).put (R.BLT_SKEW_AT_LINE p) (field q 8 5)).skewArm p off (if asap then 0 else field q 8 5)
      (s.skewRefusal p off ≠ 0 → ∃ t, exec (.skewSet c.ref) s = .next t ∧ Completed u t c stREFUSED (s.skewRefusal p off) []) ∧
      (s.skewRefusal p off = 0 → ∃ t, exec (.skewSet c.ref) s = .next t ∧
        Completed u t c stOK 0 (toBytes 5 (u.get (R.BLT_SKEW_AT_LINE p)) ++ [0, 0, 0]))))

/-- Class tables, head memory and inspection: WAVE_STAGE writes the words it stages; WAVE_LOAD is refused while another load runs and for
a table that breaks its rules; HEAD_MEM_READ of a port that is not up is refused; CAPTURE of a camera that is absent or off is refused, and
otherwise requests; STATS_RING sets the ring up at its beginning; GRAIN_WRITE puts its list through the change list. -/
def Obligations.ClassAndInspectionCommands : Prop :=
  (∀ (s : State) (c : Cmd), Waiting s c opWAVE_STAGE →
    (stageBad (s.payloadOf c) = true → ∃ t, exec (.waveStage c.ref) s = .next t ∧ Completed s t c stBAD_PARAM 0 []) ∧
    (stageBad (s.payloadOf c) = false → let l := s.stageWords (s.payloadOf c)
      ∃ t, exec (.waveStage c.ref) s = .next t ∧ Completed (l.foldl State.stageWord (s.logAdd 0x01 none 2 (regwBody l))) t c stOK 0 [])) ∧
  (∀ (s : State) (c : Cmd), Waiting s c opWAVE_LOAD → let p := s.payloadOf c
    field p 0 1 < 2 → resv p [(1, 3)] = false →
    (s.load ≠ none → ∃ t, exec (.waveLoad c.ref) s = .next t ∧ Completed s t c stBUSY 0 []) ∧
    (s.load = none → s.flag R.FIR_CTRL_PEND = false →
      ((s.staged (field p 0 1)).ok (field p 0 1) = false → ∃ t, exec (.waveLoad c.ref) s = .next t ∧ t.flag R.FIR_STAT_TABLE_BAD = true ∧
        Completed (s.raise R.FIR_STAT_TABLE_BAD srcFIR) t c stTABLE_BAD 0 []) ∧
      ((s.staged (field p 0 1)).ok (field p 0 1) = true → exec (.waveLoad c.ref) s = .next (s.framed
        ({ (s.startLong c) with load := some (⟨field p 0 1, s.staged (field p 0 1), false, 0, 0, 0, 0⟩ : WaveLoad) } : State).loadKick)))) ∧
  (∀ (s : State) (c : Cmd), Waiting s c opHEAD_MEM_READ → c.progress = 0 → let p := s.payloadOf c
    let len := field p 4 2
    len ≠ 0 → len ≤ 240 → resv p [(1, 1), (6, 2)] = false → field p 0 1 < s.nPorts →
    (s.mode ≠ .shadow → s.linkUp (field p 0 1) = false → ∃ t, exec (.headMemRead c.ref) s = .next t ∧ Completed s t c stHEAD_DOWN 0 []) ∧
    (s.mode = .shadow → 128 < field p 2 2 + len → ∃ t, exec (.headMemRead c.ref) s = .next t ∧ Completed s t c stSTANDBY 0 []) ∧
    (s.mode = .shadow → field p 2 2 + len ≤ 128 → ∃ t, exec (.headMemRead c.ref) s = .next t ∧ Completed s t c stOK 0
      ((((List.range 32).flatMap (fun (w : Nat) => toBytes 4 (s.get (R.HLK_HMEM_DATA (field p 0 1) w)))).drop (field p 2 2)).take len)) ∧
    (s.mode ≠ .shadow → s.linkUp (field p 0 1) = true → ∃ t, exec (.headMemRead c.ref) s = .next t ∧
      (∃ d ∈ t.mbx.cmds, d.ref = c.ref ∧ d.progress = 1 + (s.link (field p 0 1)).cseq) ∧ t.get R.CNT_MBX_FINAL_COUNT = s.get R.CNT_MBX_FINAL_COUNT)) ∧
  (∀ (s : State) (c : Cmd), Waiting s c opCAPTURE → let p := s.payloadOf c
    let n := field p 0 1
    n < 4 → field p 1 1 < 2 → resv p [(2, 2)] = false → field p 4 4 % 64 = 0 → field p 8 8 % 64 = 0 →
    (s.nCams ≤ n → ∃ t, exec (.capture c.ref) s = .next t ∧ Completed s t c stABSENT 0 []) ∧
    (n < s.nCams → s.flag (R.CAM_CAP_BUSY n) = true ∨ s.flag R.BLT_ENG_CFG_CAP_ENABLE = false →
      ∃ t, exec (.capture c.ref) s = .next t ∧ Completed s t c stCAPTURE_REFUSED 0 []) ∧
    (n < s.nCams → s.flag (R.CAM_CAP_BUSY n) = false → s.flag R.BLT_ENG_CFG_CAP_ENABLE = true → s.flag (R.CAM_CFG_EN n) = false →
      ∃ t, exec (.capture c.ref) s = .next t ∧ Completed s t c stPORT_OFF 0 []) ∧
    (n < s.nCams → s.flag (R.CAM_CAP_BUSY n) = false → s.flag R.BLT_ENG_CFG_CAP_ENABLE = true → s.flag (R.CAM_CFG_EN n) = true →
      ∃ t, exec (.capture c.ref) s = .next t ∧ Completed
        (((s.put (R.CAM_CAPADDR_ADDR n) (field p 8 8)).put (R.CAM_CAPSIZE_SIZE n) (field p 4 4)).capWrite n (1 + 2 * field p 1 1)) t c stOK 0 [])) ∧
  (∀ (s : State) (c : Cmd), Waiting s c opSTATS_RING → let p := s.payloadOf c
    field p 8 1 < 5 → field p 9 1 < 2 → resv p [(10, 2)] = false → field p 0 8 % 1024 = 0 →
    ∃ t, exec (.statsRing c.ref) s = .next t ∧ t.get R.CAM_SRING_LO_ADDR_LO = field p 0 4 ∧ t.get R.CAM_SRING_HI_ADDR_HI = field p 4 4 ∧
      t.get R.CAM_SRING_CFG_SIZE = field p 8 1 ∧ t.get R.CAM_SRING_CFG_EN = field p 9 1 ∧ t.get R.CAM_SRING_HEAD_HEAD = 0 ∧
      t.get R.CAM_SRING_DONE_DONE = 0 ∧ t.cam = { s.cam with phase := true } ∧ t.flash = s.flash) ∧
  (∀ (s : State) (c : Cmd), Waiting s c opGRAIN_WRITE → let p := s.payloadOf c
    field p 0 1 < 2 → resv p [(1, 1), (9, 7)] = false → field p 2 2 ≠ 0 → field p 2 2 ≤ 14 →
    (s.flag R.GMP_CSTAT_BUSY = true → ∃ t, exec (.grainWrite c.ref) s = .next t ∧ Completed s t c stCOMMIT_PENDING 0 []) ∧
    (s.flag R.GMP_CSTAT_BUSY = false → exec (.grainWrite c.ref) s = .next (s.framed
      (s.grainList c (field p 2 2) (field p 4 5) (bit (field p 0 1) 0) ((p.drop 16).take (16 * field p 2 2)))))) ∧
  (∀ (s : State) (c : Cmd), Waiting s c opGRAIN_WRITE → let p := s.payloadOf c
    let r := s.dmaIn (field p 16 8) (16 * field p 2 2)
    field p 0 1 = 2 ∨ field p 0 1 = 3 → resv p [(1, 1), (9, 7)] = false → field p 2 2 ≠ 0 → field p 2 2 ≤ 4096 → field p 16 8 % 64 = 0 →
    s.flag R.GMP_CSTAT_BUSY = false →
    (r.2 = none → ∃ t, exec (.grainWrite c.ref) s = .next t ∧ Completed r.1 t c stDMA_ERROR 0 []) ∧
    (∀ b, r.2 = some b → exec (.grainWrite c.ref) s = .next (s.framed
      (r.1.grainList c (field p 2 2) (field p 4 5) (bit (field p 0 1) 0) b)))) ∧
  (∀ (s : State) (c : Cmd) (count line : Nat) (asap : Bool) (b : List Nat), c.ref.slot < 64 →
    let u := ((((s.putBytes 0x42100000 b).put R.GMP_COMMIT_COUNT count).put R.GMP_COMMIT_ASAP (b2n asap)).put R.GMP_COMMIT_AT_LINE line)
    let l := u.changeList (min count 4096)
    let r := u.commitGo l count (if asap then none else some line)
    (∀ cause i, u.commitRefusal count l = some (cause, i) → Completed r.1 (s.grainList c count line asap b) c stREFUSED (cause + i * 2 ^ 8) []) ∧
    (u.commitRefusal count l = none → Completed r.1 (s.grainList c count line asap b) c stOK 0 (toBytes 5 r.2 ++ [0, 0, 0])))

/-! ## Calibration and maintenance (chapters 12 and 18) -/

/-- Calibration: CAL_START without sweeps goes straight to the commit of the points in force, and with the sense sweep alone begins at DAC 0;
a code found is kept and the next one sought, a step past its limit fails the sweep.  The commit that fails leaves its bank empty, the one that
succeeds puts the set in force.  CAL_ABORT ends a run at once, and once the commit has begun waits for it; CAL_STATUS shows where it stands. -/
def Obligations.Calibration : Prop :=
  (∀ (s : State) (c : Cmd), Waiting s c opCAL_START → let p := s.payloadOf c
    resv p [(4, 4)] = false → field p 2 1 ≤ 7 → field p 3 1 ≤ 15 →
    (field p 0 2 = 16 ∨ 32 ≤ field p 0 2 → ∃ t, exec (.calStart c.ref) s = .next t ∧ Completed s t c stBAD_PARAM 0 []) ∧
    (field p 0 2 = 0 → ∃ t r, exec (.calStart c.ref) s = .next t ∧ t.mode = .calibrate ∧ t.calRun = some r ∧ r.committing = true ∧
      r.set.points = s.chuck.cal.points ∧ (∃ d ∈ t.mbx.cmds, d.ref = c.ref ∧ d.running = true)) ∧
    (field p 0 2 = 2 → ∃ t r, exec (.calStart c.ref) s = .next t ∧ t.mode = .calibrate ∧ t.calRun = some r ∧ r.committing = false ∧
      r.bit_ = 1 ∧ r.at_ = 0 ∧ r.step = 1) ∧
    (field p 0 2 < 32 → (bit (field p 0 2) 4 = true → bit (field p 0 2) 0 = true ∨ bit (field p 0 2) 1 = true) →
      (bit (field p 0 2) 2 = true → ∀ n, s.nCams ≤ n → n < 4 → bit (field p 3 1) n = false) →
      ∃ r : CalRun, r.sweeps = field p 0 2 ∧ r.point = field p 2 1 ∧ r.cams = field p 3 1 ∧ r.theta = s.thetaMean ∧ r.regs0 = s.regs ∧
        r.set.points = s.chuck.cal.points ∧ r.committing = false ∧ exec (.calStart c.ref) s = .next (s.framed (State.calNext 4
          (({ (((s.journal 0x05 0 0 0 s.calGen).logAdd 0x07 none 2 ([4, 0] ++ List.replicate 14 0)).startLong c) with
            calRun := some r } : State).setMode .calibrate mcCOMMAND) 0)))) ∧
  (∀ (s : State) (ok : Bool) (data : List Nat), s.running = true →
    (s.calRun = none → exec (.calSweepStep ok data) s = .next s ∧ exec (.calCommit ok) s = .next s) ∧
    (∀ r, s.calRun = some r → r.committing = true → exec (.calSweepStep ok data) s = .next s) ∧
    (∀ r, s.calRun = some r → r.committing = false → exec (.calCommit ok) s = .next s ∧
      (r.bit_ < 3 → exec (.calSweepStep false data) s = .next (s.framed (s.calFail r.bit_ r.step))) ∧
      (r.bit_ = 0 → exec (.calSweepStep true data) s = .next (s.framed (s.calTrimStep r (data.headD 0)))) ∧
      (r.bit_ = 1 → exec (.calSweepStep true data) s = .next (s.framed (s.calSenseStep r (data.headD 0)))) ∧
      (r.bit_ = 2 → exec (.calSweepStep true data) s = .next (s.framed (s.calFlatStep r data))) ∧
      (3 ≤ r.bit_ → exec (.calSweepStep false data) s = .next (s.framed (s.calFail 3 2)) ∧
        exec (.calSweepStep true data) s = .next (if s.testLeft = 0 then s.framed (s.calBaseEnd r) else s)) ∧
      (r.bit_ = 1 → r.step = 1 → exec (.calSweepStep true data) s = .next (s.onCal (fun r => { r with
        sense := modifyNth r.sense (2 * r.at_) (fun _ => data.headD 0 % 1024), step := 2 }))) ∧
      (r.bit_ = 2 → r.step = 1 → exec (.calSweepStep true data) s = .next (s.onCal (fun r => { r with v1 := data, step := 2 }))))) ∧
  (∀ (s : State) (r : CalRun), s.running = true → s.calRun = some r → r.committing = true →
    (∃ t, exec (.calCommit false) s = .next t ∧ t.calRun = none ∧ t.mode = .idle ∧ t.chuck.cal = s.chuck.cal ∧
      (s.chuck.calBank = some 0 → t.flash.bank1 = none ∧ t.flash.bank0 = s.flash.bank0) ∧
      (s.chuck.calBank ≠ some 0 → t.flash.bank0 = none ∧ t.flash.bank1 = s.flash.bank1)) ∧
    (∃ t, exec (.calCommit true) s = .next t ∧ t.calRun = none ∧ t.mode = .idle ∧ t.chuck.cal = s.calSet r ∧
      (s.chuck.calBank = some 0 → t.flash.bank1 = some (s.calSet r) ∧ t.flash.bank0 = s.flash.bank0 ∧ t.chuck.calBank = some 1) ∧
      (s.chuck.calBank ≠ some 0 → t.flash.bank0 = some (s.calSet r) ∧ t.flash.bank1 = s.flash.bank1 ∧ t.get R.CHK_CAL_GEN = r.set.gen % 2 ^ 32))) ∧
  (∀ (s : State) (c : Cmd), Waiting s c opCAL_ABORT →
    (s.calRun = none → ∃ t, exec (.calAbort c.ref) s = .next t ∧ Completed s t c stOK 0 []) ∧
    (∀ r, s.calRun = some r → r.committing = false → ∃ t, exec (.calAbort c.ref) s = .next t ∧
      Completed (s.calEnd stABORTED 0 2 [] s.calGen) t c stOK 0 []) ∧
    (∀ r, s.calRun = some r → r.committing = true → ∃ t, exec (.calAbort c.ref) s = .next t ∧ t.calRun = some { r with abort := true } ∧
      (∀ d ∈ t.mbx.cmds, d.ref = c.ref → d.running = true) ∧ t = { s with calRun := t.calRun, mbx := t.mbx })) ∧
  (∀ (s : State) (c : Cmd), Waiting s c opCAL_STATUS → ∃ t, exec (.calStatus c.ref) s = .next t ∧ Completed s t c stOK 0
    ([(match s.calRun with | some r => (if r.committing then 2 else 1) | none => 0), (match s.calRun with | some r => r.step | none => 0),
      s.get R.BTJ_STAT_CAL_INTERRUPTED + 2 * s.get R.CHK_CAL2_BANK, 0] ++ toBytes 4 (s.get R.CHK_CAL_GEN)
      ++ toBytes 2 (match s.longCmd opCAL_START with | some d => d.progress | none => 0) ++ [0, 0]))

/-- Maintenance: MAINT_DEFINE keeps the sequence it is given; MAINT_START of one that is not defined is refused, and otherwise it takes the GY8 to
MAINTAIN with its first step; a step that ends is followed by the next; MAINT_STOP ends a sequence whose axes are at rest in IDLE.  A line of
a spit pattern or of the resistance baseline fires one period after the last; with none left nothing happens. -/
def Obligations.Maintenance : Prop :=
  (∀ (s : State) (c : Cmd), Waiting s c opMAINT_DEFINE → let p := s.payloadOf c
    let n := field p 1 1
    field p 0 1 ≤ 15 → n ≠ 0 → n ≤ 29 → resv p [(2, 6)] = false → (∀ i, i < n → field p (10 + 8 * i) 2 = 0) →
    ((∃ t ∈ maintSteps p, t.bad = true) → ∃ t, exec (.maintDefine c.ref) s = .next t ∧ Completed s t c stBAD_PARAM 0 []) ∧
    ((∀ t ∈ maintSteps p, t.bad = false ∧ t.op ≠ 5) → ∃ t, exec (.maintDefine c.ref) s = .next t ∧
      t.maint.seqs.find? (fun (e : Nat × List MaintStep) => e.1 == field p 0 1) = some (field p 0 1, maintSteps p) ∧
      Completed ((s.logWindow opMAINT_DEFINE p (8 + 8 * n)).maintPut p) t c stOK 0 [])) ∧
  (∀ (s : State) (c : Cmd), Waiting s c opMAINT_START → let p := s.payloadOf c
    let n := field p 0 1
    n ≤ 15 → resv p [(1, 3)] = false →
    (s.maint.seqs.find? (fun (e : Nat × List MaintStep) => e.1 == n) = none → ∃ t, exec (.maintStart c.ref) s = .next t ∧ Completed s t c 0x0138 0 []) ∧
    (∀ steps, s.maint.seqs.find? (fun (e : Nat × List MaintStep) => e.1 == n) = some (n, steps) → exec (.maintStart c.ref) s = .next (s.framed
      ((((s.logAdd 0x07 none 2 ([6, n] ++ List.replicate 14 0)).startLong c).maintBegin steps).setMode .maintain mcCOMMAND).maintHere))) ∧
  (∀ (s : State) (ok : Bool), s.running = true →
    (s.mode ≠ .maintain → s.mode ≠ .shadow → exec (.maintStepEnd ok) s = .next s) ∧
    (s.mode = .maintain → s.maint.ending ≠ none → exec (.maintStepEnd ok) s = .next (s.framed s.maintEnd)) ∧
    (∀ (t : MaintStep) (rest : List MaintStep), s.mode = .maintain → s.maint.ending = none → s.maint.run = some (t :: rest) →
      (t.op = 2 ∨ t.op = 4 ∨ t.op = 5 → exec (.maintStepEnd ok) s = .next (s.framed
        ({ s with maint := { s.maint with run := some rest, step := s.maint.step + 1 } } : State).maintHere)) ∧
      (t.op = 3 → s.testLeft ≠ 0 → exec (.maintStepEnd ok) s = .next s) ∧
      (t.op = 1 → s.moveBad t.a8 = 0 → s.axIdle t.a8 = true → s.axPos t.a8 = signed 32 t.a32 → exec (.maintStepEnd ok) s = .next (s.framed
        ({ s with maint := { s.maint with run := some rest, step := s.maint.step + 1 } } : State).maintHere)) ∧
      (t.op = 1 → s.moveBad t.a8 = 0 → s.axIdle t.a8 = false → s.primary = true →
        exec (.maintStepEnd true) s = .next s ∧ exec (.maintStepEnd false) s = .next (s.framed (s.maintFail 3))))) ∧
  (∀ (s : State) (c : Cmd), Waiting s c opMAINT_STOP → s.maint.ending = none → (∀ n, n < 8 → bit s.maint.axes n = true → s.axIdle n = true) →
    ∃ t, exec (.maintStop c.ref) s = .next t ∧ t.mode = .idle ∧ t.maint = { s.maint with run := none, ending := none, cams := 0, axes := 0 }) ∧
  (∀ s : State, s.running = true →
    (s.sweeping = true → exec .spitLine s = .next s) ∧ (s.sweeping = false → exec .sweepLine s = .next s) ∧
    (s.testLeft = 0 → exec .spitLine s = .next s ∧ exec .sweepLine s = .next s) ∧
    (∀ b, s.line.lastB = some b → s.testLeft ≠ 0 →
      let u : State := { ((s.put R.ENC_LINE_INDEX s.path.next).put R.ENC_LINE_GAP_T 160000) with line := { s.line with lastB := some (b + 160000) } }
      (s.sweeping = true → exec .sweepLine s = .next (s.framed (u.boundary ⟨s.path.next, b + 160000, some 160000, false, 0⟩ State.testHand))) ∧
      (s.sweeping = false → exec .spitLine s = .next (s.framed (u.boundary ⟨s.path.next, b + 160000, some 160000, false, 0⟩ State.testHand)))))
end

