-- ==== Sys2Proof/Laws/Bits.lean ====
section
/-! SUPPORT. Bits of masks. -/

namespace Sys2Proof.Machine

theorem bit_eq_testBit (m i : Nat) : bit m i = m.testBit i := by
  rw [bit, Nat.testBit_eq_decide_div_mod_eq]; rfl

/-- A bit that is set is set. -/
theorem bit_setBit (m i : Nat) : bit (setBit m i) i = true := by
  simp only [bit_eq_testBit, setBit]
  show (m ||| 2 ^ i).testBit i = true
  simp [Nat.testBit_or, Nat.testBit_two_pow_self]

/-- Setting a bit leaves the others alone. -/
theorem bit_setBit_ne (m : Nat) {i j : Nat} (h : i ≠ j) : bit (setBit m i) j = bit m j := by
  simp only [bit_eq_testBit, setBit]
  show (m ||| 2 ^ i).testBit j = m.testBit j
  simp [Nat.testBit_or, Nat.testBit_two_pow_of_ne h]

/-- A bit that is cleared is clear. -/
theorem bit_clrBit (m i : Nat) : bit (clrBit m i) i = false := by
  unfold clrBit
  by_cases h : bit m i = true
  · rw [if_pos h]
    simp only [bit, beq_iff_eq, Bool.eq_false_iff, ne_eq] at h ⊢
    have hp : 0 < 2 ^ i := Nat.two_pow_pos i
    have hle : 2 ^ i ≤ m := by
      by_contra hc
      rw [Nat.div_eq_of_lt (by omega)] at h
      omega
    have : (m - 2 ^ i) / 2 ^ i = m / 2 ^ i - 1 := by
      have := Nat.sub_mul_div m (2 ^ i) 1
      simpa using this
    rw [this]
    omega
  · rw [if_neg h]; simpa using h

/-- Clearing a bit leaves the others alone. -/
theorem bit_clrBit_ne (m : Nat) {i j : Nat} (h : i ≠ j) : bit (clrBit m i) j = bit m j := by
  unfold clrBit
  split
  · rename_i hb
    simp only [bit, beq_iff_eq] at hb
    have hp : 0 < 2 ^ i := Nat.two_pow_pos i
    have hr : m % 2 ^ i < 2 ^ i := Nat.mod_lt _ hp
    have hm : m = 2 ^ (i + 1) * (m / 2 ^ i / 2) + (2 ^ i + m % 2 ^ i) := by
      have h1 := Nat.div_add_mod m (2 ^ i)
      have h2 := Nat.div_add_mod (m / 2 ^ i) 2
      rw [hb] at h2
      rw [pow_succ]
      nlinarith
    generalize m / 2 ^ i / 2 = q at hm
    generalize m % 2 ^ i = r at hm hr
    have e1 : m - 2 ^ i = 2 ^ (i + 1) * q ||| r := by
      rw [← Nat.two_pow_add_eq_or_of_lt (by rw [pow_succ]; omega)]; omega
    have e2 : m = 2 ^ (i + 1) * q ||| (r ||| 2 ^ i) := by
      rw [Nat.or_two_pow_eq_add_of_lt hr, ← Nat.two_pow_add_eq_or_of_lt (by rw [pow_succ]; omega)]; omega
    rw [bit_eq_testBit, bit_eq_testBit, e1]
    conv_rhs => rw [e2]
    simp [Nat.testBit_or, Nat.testBit_two_pow_of_ne h]
  · rfl

/-- A bit within the width of a field survives the cut to that width. -/
theorem bit_mod {m i w : Nat} (h : i < w) : bit (m % 2 ^ w) i = bit m i := by
  simp [bit_eq_testBit, Nat.testBit_mod_two_pow, h]

end Sys2Proof.Machine
end

