-- ==== Sys2Proof/Laws/Cells.lean ====
section
/-! SUPPORT. The laws of the sparse tables: what a write does to a read, and that every operation keeps the canonical
form. -/

namespace Sys2Proof.Cells

/-- Dropping a key leaves every other read alone. -/
theorem look_drop_ne (d : Nat → Nat) (m : Cells) {k j : Nat} (h : j ≠ k) : look d (drop k m) j = look d m j := by
  induction m with
  | nil => rfl
  | cons e t ih =>
    obtain ⟨a, v⟩ := e
    by_cases ha : a = k
    · subst ha; simp [drop, look, ih, Ne.symm h]
    · by_cases hj : a = j
      · subst hj; simp [drop, look, h]
      · simp [drop, look, ha, hj, ih]

/-- A dropped key reads as unlisted. -/
theorem look_drop_self (d : Nat → Nat) (m : Cells) (k : Nat) : look d (drop k m) k = d k := by
  induction m with
  | nil => rfl
  | cons e t ih =>
    obtain ⟨a, v⟩ := e
    by_cases ha : a = k
    · simp [drop, ha, ih]
    · simp [drop, look, ha, ih]

/-- An inserted key reads as the value inserted. -/
theorem look_ins_self (d : Nat → Nat) (m : Cells) (k v : Nat) (h : ∀ e ∈ m, e.1 ≠ k) : look d (ins k v m) k = v := by
  induction m with
  | nil => simp [ins, look]
  | cons e t ih =>
    obtain ⟨a, w⟩ := e
    have ha : a ≠ k := h (a, w) (by simp)
    by_cases hk : k < a
    · simp [ins, hk, look]
    · simp [ins, hk, look, ha, ih (fun e he => h e (by simp [he]))]

/-- Inserting a key leaves every other read alone. -/
theorem look_ins_ne (d : Nat → Nat) (m : Cells) {k j : Nat} (v : Nat) (h : j ≠ k) : look d (ins k v m) j = look d m j := by
  induction m with
  | nil => simp [ins, look, Ne.symm h]
  | cons e t ih =>
    obtain ⟨a, w⟩ := e
    by_cases hk : k < a
    · simp [ins, hk, look, Ne.symm h]
    · by_cases hj : a = j
      · subst hj; simp [ins, hk, look]
      · simp [ins, hk, look, hj, ih]

/-- A dropped key is not listed. -/
theorem mem_drop_ne {m : Cells} {k : Nat} {e : Nat × Nat} (h : e ∈ drop k m) : e.1 ≠ k := by
  induction m with
  | nil => simp [drop] at h
  | cons x t ih =>
    obtain ⟨a, v⟩ := x
    by_cases ha : a = k
    · simp [drop, ha] at h; exact ih h
    · simp [drop, ha] at h
      rcases h with rfl | h
      · exact ha
      · exact ih h

/-- Read after write: the key written reads as the value, every other key as before. -/
theorem look_store (d : Nat → Nat) (m : Cells) (k v j : Nat) :
    look d (store d m k v) j = if j = k then v else look d m j := by
  by_cases hj : j = k
  · subst hj
    by_cases hv : v = d j
    · simp [store, hv, look_drop_self]
    · simp [store, hv, look_ins_self d (drop j m) j v (fun e he => mem_drop_ne he)]
  · by_cases hv : v = d k
    · simp [store, hv, hj, look_drop_ne d m hj]
    · simp [store, hv, hj, look_ins_ne d (drop k m) v hj, look_drop_ne d m hj]

/-- What lies above a key still does after a drop. -/
theorem above_drop {j k : Nat} {m : Cells} {d : Nat → Nat} (hw : wf d m = true) (h : above j m = true) :
    above j (drop k m) = true := by
  induction m with
  | nil => rfl
  | cons e t ih =>
    obtain ⟨a, v⟩ := e
    simp only [wf, Bool.and_eq_true, decide_eq_true_eq] at hw
    simp only [above, decide_eq_true_eq] at h
    by_cases ha : a = k
    · simp only [drop, ha, if_true]
      refine ih hw.2 ?_
      have := hw.1.1
      cases t with
      | nil => rfl
      | cons e' t' => simp only [above, decide_eq_true_eq] at this ⊢; omega
    · simpa [drop, ha, above] using h

/-- Dropping keeps the canonical form. -/
theorem wf_drop {d : Nat → Nat} {m : Cells} (k : Nat) (h : wf d m = true) : wf d (drop k m) = true := by
  induction m with
  | nil => rfl
  | cons e t ih =>
    obtain ⟨a, v⟩ := e
    have hw := h
    simp only [wf, Bool.and_eq_true, decide_eq_true_eq] at hw
    by_cases ha : a = k
    · simpa [drop, ha] using ih hw.2
    · simp only [drop, ha, if_false, wf, Bool.and_eq_true, decide_eq_true_eq]
      exact ⟨⟨above_drop hw.2 hw.1.1, hw.1.2⟩, ih hw.2⟩

/-- What lies above a key still does after an insertion above it. -/
theorem above_ins {j k v : Nat} {m : Cells} (hk : j < k) (h : above j m = true) : above j (ins k v m) = true := by
  cases m with
  | nil => simpa [ins, above] using hk
  | cons e t =>
    obtain ⟨a, w⟩ := e
    by_cases ha : k < a
    · simpa [ins, ha, above] using hk
    · simpa [ins, ha, above] using h

/-- Inserting a key that is not listed, with a value worth listing, keeps the canonical form. -/
theorem wf_ins {d : Nat → Nat} {m : Cells} {k v : Nat} (hv : v ≠ d k) (hn : ∀ e ∈ m, e.1 ≠ k) (h : wf d m = true) :
    wf d (ins k v m) = true := by
  induction m with
  | nil => simp [ins, wf, above, hv]
  | cons e t ih =>
    obtain ⟨a, w⟩ := e
    have hw := h
    simp only [wf, Bool.and_eq_true, decide_eq_true_eq] at hw
    by_cases ha : k < a
    · rw [ins, if_pos ha, wf, h]; simp [above, ha, hv]
    · have hak : a ≠ k := hn (a, w) (by simp)
      have hlt : a < k := by omega
      simp only [ins, ha, if_false, wf, Bool.and_eq_true, decide_eq_true_eq]
      exact ⟨⟨above_ins hlt hw.1.1, hw.1.2⟩, ih (fun e he => hn e (by simp [he])) hw.2⟩

/-- Every write keeps the canonical form. -/
theorem wf_store {d : Nat → Nat} {m : Cells} (k v : Nat) (h : wf d m = true) : wf d (store d m k v) = true := by
  by_cases hv : v = d k
  · simpa [store, hv] using wf_drop k h
  · simpa [store, hv] using wf_ins hv (fun e he => mem_drop_ne he) (wf_drop k h)

end Sys2Proof.Cells
end

