-- ==== Sys2Proof/Laws/State.lean ====
section
/-! SUPPORT. What each basic update of the state leaves alone, one lemma a field, and what a register reads as after a
write. -/

namespace Sys2Proof.Machine

/-! ## A register write -/

/-- The one field a register write changes. -/
@[simp] theorem State.put_regs (s : State) (f : Fld) (v : Nat) :
    (s.put f v).regs = Cells.store dfltReg s.regs f.key (v % 2 ^ f.width) := rfl
@[simp] theorem State.put_mode (s : State) (f : Fld) (v : Nat) : (s.put f v).mode = s.mode := rfl
@[simp] theorem State.put_prev (s : State) (f : Fld) (v : Nat) : (s.put f v).prev = s.prev := rfl
@[simp] theorem State.put_follow (s : State) (f : Fld) (v : Nat) : (s.put f v).follow = s.follow := rfl
@[simp] theorem State.put_trans (s : State) (f : Fld) (v : Nat) : (s.put f v).trans = s.trans := rfl
@[simp] theorem State.put_primary (s : State) (f : Fld) (v : Nat) : (s.put f v).primary = s.primary := rfl
@[simp] theorem State.put_synced (s : State) (f : Fld) (v : Nat) : (s.put f v).synced = s.synced := rfl
@[simp] theorem State.put_safeCause (s : State) (f : Fld) (v : Nat) : (s.put f v).safeCause = s.safeCause := rfl
@[simp] theorem State.put_modeT (s : State) (f : Fld) (v : Nat) : (s.put f v).modeT = s.modeT := rfl
@[simp] theorem State.put_now (s : State) (f : Fld) (v : Nat) : (s.put f v).now = s.now := rfl
@[simp] theorem State.put_time40 (s : State) (f : Fld) (v : Nat) : (s.put f v).time40 = s.time40 := rfl
@[simp] theorem State.put_subNs (s : State) (f : Fld) (v : Nat) : (s.put f v).subNs = s.subNs := rfl
@[simp] theorem State.put_aon (s : State) (f : Fld) (v : Nat) : (s.put f v).aon = s.aon := rfl
@[simp] theorem State.put_fuse (s : State) (f : Fld) (v : Nat) : (s.put f v).fuse = s.fuse := rfl
@[simp] theorem State.put_flash (s : State) (f : Fld) (v : Nat) : (s.put f v).flash = s.flash := rfl
@[simp] theorem State.put_boot (s : State) (f : Fld) (v : Nat) : (s.put f v).boot = s.boot := rfl
@[simp] theorem State.put_chuck (s : State) (f : Fld) (v : Nat) : (s.put f v).chuck = s.chuck := rfl
@[simp] theorem State.put_mbx (s : State) (f : Fld) (v : Nat) : (s.put f v).mbx = s.mbx := rfl
@[simp] theorem State.put_acct (s : State) (f : Fld) (v : Nat) : (s.put f v).acct = s.acct := rfl
@[simp] theorem State.put_hic (s : State) (f : Fld) (v : Nat) : (s.put f v).hic = s.hic := rfl
@[simp] theorem State.put_store (s : State) (f : Fld) (v : Nat) : (s.put f v).store = s.store := rfl
@[simp] theorem State.put_path (s : State) (f : Fld) (v : Nat) : (s.put f v).path = s.path := rfl
@[simp] theorem State.put_tmb (s : State) (f : Fld) (v : Nat) : (s.put f v).tmb = s.tmb := rfl
@[simp] theorem State.put_drc (s : State) (f : Fld) (v : Nat) : (s.put f v).drc = s.drc := rfl
@[simp] theorem State.put_pair (s : State) (f : Fld) (v : Nat) : (s.put f v).pair = s.pair := rfl
@[simp] theorem State.put_links (s : State) (f : Fld) (v : Nat) : (s.put f v).links = s.links := rfl
@[simp] theorem State.put_load (s : State) (f : Fld) (v : Nat) : (s.put f v).load = s.load := rfl
@[simp] theorem State.put_heads (s : State) (f : Fld) (v : Nat) : (s.put f v).heads = s.heads := rfl
@[simp] theorem State.put_axes (s : State) (f : Fld) (v : Nat) : (s.put f v).axes = s.axes := rfl
@[simp] theorem State.put_maint (s : State) (f : Fld) (v : Nat) : (s.put f v).maint = s.maint := rfl
@[simp] theorem State.put_calRun (s : State) (f : Fld) (v : Nat) : (s.put f v).calRun = s.calRun := rfl
@[simp] theorem State.put_cam (s : State) (f : Fld) (v : Nat) : (s.put f v).cam = s.cam := rfl
@[simp] theorem State.put_enc (s : State) (f : Fld) (v : Nat) : (s.put f v).enc = s.enc := rfl
@[simp] theorem State.put_line (s : State) (f : Fld) (v : Nat) : (s.put f v).line = s.line := rfl
@[simp] theorem State.put_cmp (s : State) (f : Fld) (v : Nat) : (s.put f v).cmp = s.cmp := rfl
@[simp] theorem State.put_freeCtr (s : State) (f : Fld) (v : Nat) : (s.put f v).freeCtr = s.freeCtr := rfl
@[simp] theorem State.put_out (s : State) (f : Fld) (v : Nat) : (s.put f v).out = s.out := rfl
@[simp] theorem State.put_pending (s : State) (f : Fld) (v : Nat) : (s.put f v).pending = s.pending := rfl

/-- A register that is written reads as the value, cut to its width. -/
@[simp] theorem State.get_put_self (s : State) (f : Fld) (v : Nat) : (s.put f v).get f = v % 2 ^ f.width := by
  simp [State.get, Cells.look_store]

/-- A register write leaves every other field alone. -/
theorem State.get_put_ne (s : State) {f g : Fld} (v : Nat) (h : g.key ≠ f.key) : (s.put f v).get g = s.get g := by
  simp [State.get, Cells.look_store, h]

/-- What a register reads as after a write of any register. -/
theorem State.get_put (s : State) (f g : Fld) (v : Nat) :
    (s.put f v).get g = if g.key = f.key then v % 2 ^ f.width % 2 ^ g.width else s.get g := by
  by_cases h : g.key = f.key <;> simp [State.get, Cells.look_store, h]

/-- No register reads beyond its width. -/
theorem State.get_lt (s : State) (f : Fld) : s.get f < 2 ^ f.width := Nat.mod_lt _ (Nat.two_pow_pos _)

/-- A register reads the same in states with the same register table. -/
theorem State.get_congr {s t : State} (h : t.regs = s.regs) (f : Fld) : t.get f = s.get f := by simp [State.get, h]

/-- The frame of an event of the core touches no register. -/
@[simp] theorem State.framed_get (s : State) (a : Aon) (l : List Instr) (f : Fld) :
    ({ s with aon := a, pending := l } : State).get f = s.get f := rfl

/-- A register write keeps the canonical form of the table. -/
theorem State.put_wf {s : State} (f : Fld) (v : Nat) (h : Cells.wf dfltReg s.regs = true) :
    Cells.wf dfltReg (s.put f v).regs = true := Cells.wf_store _ _ h

/-! ## Something leaves the block -/

@[simp] theorem State.emit_out (s : State) (e : Emit) : (s.emit e).out = e :: s.out := rfl
@[simp] theorem State.emit_regs (s : State) (e : Emit) : (s.emit e).regs = s.regs := rfl
@[simp] theorem State.emit_get (s : State) (e : Emit) (f : Fld) : (s.emit e).get f = s.get f := rfl
@[simp] theorem State.emit_mode (s : State) (e : Emit) : (s.emit e).mode = s.mode := rfl
@[simp] theorem State.emit_prev (s : State) (e : Emit) : (s.emit e).prev = s.prev := rfl
@[simp] theorem State.emit_follow (s : State) (e : Emit) : (s.emit e).follow = s.follow := rfl
@[simp] theorem State.emit_trans (s : State) (e : Emit) : (s.emit e).trans = s.trans := rfl
@[simp] theorem State.emit_primary (s : State) (e : Emit) : (s.emit e).primary = s.primary := rfl
@[simp] theorem State.emit_synced (s : State) (e : Emit) : (s.emit e).synced = s.synced := rfl
@[simp] theorem State.emit_safeCause (s : State) (e : Emit) : (s.emit e).safeCause = s.safeCause := rfl
@[simp] theorem State.emit_modeT (s : State) (e : Emit) : (s.emit e).modeT = s.modeT := rfl
@[simp] theorem State.emit_now (s : State) (e : Emit) : (s.emit e).now = s.now := rfl
@[simp] theorem State.emit_time40 (s : State) (e : Emit) : (s.emit e).time40 = s.time40 := rfl
@[simp] theorem State.emit_subNs (s : State) (e : Emit) : (s.emit e).subNs = s.subNs := rfl
@[simp] theorem State.emit_aon (s : State) (e : Emit) : (s.emit e).aon = s.aon := rfl
@[simp] theorem State.emit_fuse (s : State) (e : Emit) : (s.emit e).fuse = s.fuse := rfl
@[simp] theorem State.emit_flash (s : State) (e : Emit) : (s.emit e).flash = s.flash := rfl
@[simp] theorem State.emit_boot (s : State) (e : Emit) : (s.emit e).boot = s.boot := rfl
@[simp] theorem State.emit_chuck (s : State) (e : Emit) : (s.emit e).chuck = s.chuck := rfl
@[simp] theorem State.emit_mbx (s : State) (e : Emit) : (s.emit e).mbx = s.mbx := rfl
@[simp] theorem State.emit_acct (s : State) (e : Emit) : (s.emit e).acct = s.acct := rfl
@[simp] theorem State.emit_hic (s : State) (e : Emit) : (s.emit e).hic = s.hic := rfl
@[simp] theorem State.emit_store (s : State) (e : Emit) : (s.emit e).store = s.store := rfl
@[simp] theorem State.emit_path (s : State) (e : Emit) : (s.emit e).path = s.path := rfl
@[simp] theorem State.emit_tmb (s : State) (e : Emit) : (s.emit e).tmb = s.tmb := rfl
@[simp] theorem State.emit_drc (s : State) (e : Emit) : (s.emit e).drc = s.drc := rfl
@[simp] theorem State.emit_pair (s : State) (e : Emit) : (s.emit e).pair = s.pair := rfl
@[simp] theorem State.emit_links (s : State) (e : Emit) : (s.emit e).links = s.links := rfl
@[simp] theorem State.emit_load (s : State) (e : Emit) : (s.emit e).load = s.load := rfl
@[simp] theorem State.emit_heads (s : State) (e : Emit) : (s.emit e).heads = s.heads := rfl
@[simp] theorem State.emit_axes (s : State) (e : Emit) : (s.emit e).axes = s.axes := rfl
@[simp] theorem State.emit_maint (s : State) (e : Emit) : (s.emit e).maint = s.maint := rfl
@[simp] theorem State.emit_calRun (s : State) (e : Emit) : (s.emit e).calRun = s.calRun := rfl
@[simp] theorem State.emit_cam (s : State) (e : Emit) : (s.emit e).cam = s.cam := rfl
@[simp] theorem State.emit_enc (s : State) (e : Emit) : (s.emit e).enc = s.enc := rfl
@[simp] theorem State.emit_line (s : State) (e : Emit) : (s.emit e).line = s.line := rfl
@[simp] theorem State.emit_cmp (s : State) (e : Emit) : (s.emit e).cmp = s.cmp := rfl
@[simp] theorem State.emit_freeCtr (s : State) (e : Emit) : (s.emit e).freeCtr = s.freeCtr := rfl
@[simp] theorem State.emit_pending (s : State) (e : Emit) : (s.emit e).pending = s.pending := rfl

/-! ## A free value is taken -/

@[simp] theorem State.took_freeCtr (s : State) : s.took.freeCtr = s.freeCtr + 1 := rfl
@[simp] theorem State.took_regs (s : State) : s.took.regs = s.regs := rfl
@[simp] theorem State.took_get (s : State) (f : Fld) : s.took.get f = s.get f := rfl
@[simp] theorem State.took_mode (s : State) : s.took.mode = s.mode := rfl
@[simp] theorem State.took_prev (s : State) : s.took.prev = s.prev := rfl
@[simp] theorem State.took_follow (s : State) : s.took.follow = s.follow := rfl
@[simp] theorem State.took_trans (s : State) : s.took.trans = s.trans := rfl
@[simp] theorem State.took_primary (s : State) : s.took.primary = s.primary := rfl
@[simp] theorem State.took_synced (s : State) : s.took.synced = s.synced := rfl
@[simp] theorem State.took_safeCause (s : State) : s.took.safeCause = s.safeCause := rfl
@[simp] theorem State.took_modeT (s : State) : s.took.modeT = s.modeT := rfl
@[simp] theorem State.took_now (s : State) : s.took.now = s.now := rfl
@[simp] theorem State.took_time40 (s : State) : s.took.time40 = s.time40 := rfl
@[simp] theorem State.took_subNs (s : State) : s.took.subNs = s.subNs := rfl
@[simp] theorem State.took_aon (s : State) : s.took.aon = s.aon := rfl
@[simp] theorem State.took_fuse (s : State) : s.took.fuse = s.fuse := rfl
@[simp] theorem State.took_flash (s : State) : s.took.flash = s.flash := rfl
@[simp] theorem State.took_boot (s : State) : s.took.boot = s.boot := rfl
@[simp] theorem State.took_chuck (s : State) : s.took.chuck = s.chuck := rfl
@[simp] theorem State.took_mbx (s : State) : s.took.mbx = s.mbx := rfl
@[simp] theorem State.took_acct (s : State) : s.took.acct = s.acct := rfl
@[simp] theorem State.took_hic (s : State) : s.took.hic = s.hic := rfl
@[simp] theorem State.took_store (s : State) : s.took.store = s.store := rfl
@[simp] theorem State.took_path (s : State) : s.took.path = s.path := rfl
@[simp] theorem State.took_tmb (s : State) : s.took.tmb = s.tmb := rfl
@[simp] theorem State.took_drc (s : State) : s.took.drc = s.drc := rfl
@[simp] theorem State.took_pair (s : State) : s.took.pair = s.pair := rfl
@[simp] theorem State.took_links (s : State) : s.took.links = s.links := rfl
@[simp] theorem State.took_load (s : State) : s.took.load = s.load := rfl
@[simp] theorem State.took_heads (s : State) : s.took.heads = s.heads := rfl
@[simp] theorem State.took_axes (s : State) : s.took.axes = s.axes := rfl
@[simp] theorem State.took_maint (s : State) : s.took.maint = s.maint := rfl
@[simp] theorem State.took_calRun (s : State) : s.took.calRun = s.calRun := rfl
@[simp] theorem State.took_cam (s : State) : s.took.cam = s.cam := rfl
@[simp] theorem State.took_enc (s : State) : s.took.enc = s.enc := rfl
@[simp] theorem State.took_line (s : State) : s.took.line = s.line := rfl
@[simp] theorem State.took_cmp (s : State) : s.took.cmp = s.cmp := rfl
@[simp] theorem State.took_out (s : State) : s.took.out = s.out := rfl
@[simp] theorem State.took_pending (s : State) : s.took.pending = s.pending := rfl

/-! ## A port of the path changes -/

@[simp] theorem State.onPort_path (s : State) (p : Nat) (f : Port → Port) :
    (s.onPort p f).path = { s.path with ports := modifyNth s.path.ports p f } := rfl
@[simp] theorem State.onPort_regs (s : State) (p : Nat) (f : Port → Port) : (s.onPort p f).regs = s.regs := rfl
@[simp] theorem State.onPort_get (s : State) (p : Nat) (f : Port → Port) (g : Fld) : (s.onPort p f).get g = s.get g := rfl
@[simp] theorem State.onPort_mode (s : State) (p : Nat) (f : Port → Port) : (s.onPort p f).mode = s.mode := rfl
@[simp] theorem State.onPort_prev (s : State) (p : Nat) (f : Port → Port) : (s.onPort p f).prev = s.prev := rfl
@[simp] theorem State.onPort_follow (s : State) (p : Nat) (f : Port → Port) : (s.onPort p f).follow = s.follow := rfl
@[simp] theorem State.onPort_trans (s : State) (p : Nat) (f : Port → Port) : (s.onPort p f).trans = s.trans := rfl
@[simp] theorem State.onPort_primary (s : State) (p : Nat) (f : Port → Port) : (s.onPort p f).primary = s.primary := rfl
@[simp] theorem State.onPort_synced (s : State) (p : Nat) (f : Port → Port) : (s.onPort p f).synced = s.synced := rfl
@[simp] theorem State.onPort_safeCause (s : State) (p : Nat) (f : Port → Port) : (s.onPort p f).safeCause = s.safeCause := rfl
@[simp] theorem State.onPort_modeT (s : State) (p : Nat) (f : Port → Port) : (s.onPort p f).modeT = s.modeT := rfl
@[simp] theorem State.onPort_now (s : State) (p : Nat) (f : Port → Port) : (s.onPort p f).now = s.now := rfl
@[simp] theorem State.onPort_time40 (s : State) (p : Nat) (f : Port → Port) : (s.onPort p f).time40 = s.time40 := rfl
@[simp] theorem State.onPort_subNs (s : State) (p : Nat) (f : Port → Port) : (s.onPort p f).subNs = s.subNs := rfl
@[simp] theorem State.onPort_aon (s : State) (p : Nat) (f : Port → Port) : (s.onPort p f).aon = s.aon := rfl
@[simp] theorem State.onPort_fuse (s : State) (p : Nat) (f : Port → Port) : (s.onPort p f).fuse = s.fuse := rfl
@[simp] theorem State.onPort_flash (s : State) (p : Nat) (f : Port → Port) : (s.onPort p f).flash = s.flash := rfl
@[simp] theorem State.onPort_boot (s : State) (p : Nat) (f : Port → Port) : (s.onPort p f).boot = s.boot := rfl
@[simp] theorem State.onPort_chuck (s : State) (p : Nat) (f : Port → Port) : (s.onPort p f).chuck = s.chuck := rfl
@[simp] theorem State.onPort_mbx (s : State) (p : Nat) (f : Port → Port) : (s.onPort p f).mbx = s.mbx := rfl
@[simp] theorem State.onPort_acct (s : State) (p : Nat) (f : Port → Port) : (s.onPort p f).acct = s.acct := rfl
@[simp] theorem State.onPort_hic (s : State) (p : Nat) (f : Port → Port) : (s.onPort p f).hic = s.hic := rfl
@[simp] theorem State.onPort_store (s : State) (p : Nat) (f : Port → Port) : (s.onPort p f).store = s.store := rfl
@[simp] theorem State.onPort_tmb (s : State) (p : Nat) (f : Port → Port) : (s.onPort p f).tmb = s.tmb := rfl
@[simp] theorem State.onPort_drc (s : State) (p : Nat) (f : Port → Port) : (s.onPort p f).drc = s.drc := rfl
@[simp] theorem State.onPort_pair (s : State) (p : Nat) (f : Port → Port) : (s.onPort p f).pair = s.pair := rfl
@[simp] theorem State.onPort_links (s : State) (p : Nat) (f : Port → Port) : (s.onPort p f).links = s.links := rfl
@[simp] theorem State.onPort_load (s : State) (p : Nat) (f : Port → Port) : (s.onPort p f).load = s.load := rfl
@[simp] theorem State.onPort_heads (s : State) (p : Nat) (f : Port → Port) : (s.onPort p f).heads = s.heads := rfl
@[simp] theorem State.onPort_axes (s : State) (p : Nat) (f : Port → Port) : (s.onPort p f).axes = s.axes := rfl
@[simp] theorem State.onPort_maint (s : State) (p : Nat) (f : Port → Port) : (s.onPort p f).maint = s.maint := rfl
@[simp] theorem State.onPort_calRun (s : State) (p : Nat) (f : Port → Port) : (s.onPort p f).calRun = s.calRun := rfl
@[simp] theorem State.onPort_cam (s : State) (p : Nat) (f : Port → Port) : (s.onPort p f).cam = s.cam := rfl
@[simp] theorem State.onPort_enc (s : State) (p : Nat) (f : Port → Port) : (s.onPort p f).enc = s.enc := rfl
@[simp] theorem State.onPort_line (s : State) (p : Nat) (f : Port → Port) : (s.onPort p f).line = s.line := rfl
@[simp] theorem State.onPort_cmp (s : State) (p : Nat) (f : Port → Port) : (s.onPort p f).cmp = s.cmp := rfl
@[simp] theorem State.onPort_freeCtr (s : State) (p : Nat) (f : Port → Port) : (s.onPort p f).freeCtr = s.freeCtr := rfl
@[simp] theorem State.onPort_out (s : State) (p : Nat) (f : Port → Port) : (s.onPort p f).out = s.out := rfl
@[simp] theorem State.onPort_pending (s : State) (p : Nat) (f : Port → Port) : (s.onPort p f).pending = s.pending := rfl

end Sys2Proof.Machine
end

