-- ==== Sys2Proof/Laws/Bytes.lean ====
section
/-! SUPPORT. Bytes of the word-organised windows: what is written is read back, and nothing else moves. -/

namespace Sys2Proof.Machine

theorem toBytes_length (n v : Nat) : (toBytes n v).length = n := by
  induction n generalizing v with
  | zero => rfl
  | succ n ih => simp [toBytes, ih]

theorem toBytes_lt {n v : Nat} : ∀ b ∈ toBytes n v, b < 256 := by
  induction n generalizing v with
  | zero => simp [toBytes]
  | succ n ih =>
    intro b hb
    simp only [toBytes, List.mem_cons] at hb
    rcases hb with rfl | hb
    · exact Nat.mod_lt _ (by decide)
    · exact ih b hb

/-- A byte string that fits comes back from the number it spells (R10). -/
theorem toBytes_ofBytes {l : List Nat} (h : ∀ b ∈ l, b < 256) : toBytes l.length (ofBytes l) = l := by
  induction l with
  | nil => rfl
  | cons b t ih =>
    have hb : b < 256 := h b (by simp)
    have h1 : ofBytes (b :: t) % 256 = b := by simp [ofBytes]; omega
    have h2 : ofBytes (b :: t) / 256 = ofBytes t := by simp [ofBytes]; omega
    simp only [List.length_cons, toBytes, h1, h2, ih (fun x hx => h x (by simp [hx]))]

theorem ofBytes_lt {l : List Nat} : ofBytes l < 256 ^ l.length := by
  induction l with
  | nil => simp [ofBytes]
  | cons b t ih => simp only [ofBytes, List.length_cons, pow_succ]; omega

/-- The word a byte string leaves at its `i`-th word: its bytes, then the old word's. -/
def wordAfter (s : State) (a : Nat) (b : List Nat) (i : Nat) : Nat :=
  ofBytes ((b.drop (4 * i)).take 4 ++ (toBytes 4 (s.get (wordFld (a + 4 * i)))).drop ((b.drop (4 * i)).take 4).length)

theorem wordKey_inj {a i j : Nat} (h : (wordFld (a + 4 * i)).key = (wordFld (a + 4 * j)).key) : i = j := by
  simp only [wordFld, Fld.key] at h; omega

/-- The registers after the first `n` words of a byte string. -/
theorem putBytes_fold (s : State) (a : Nat) (b : List Nat) (n : Nat) :
    let t := (List.range n).foldl (fun s i => s.put (wordFld (a + 4 * i))
      (ofBytes ((b.drop (4 * i)).take 4 ++ (toBytes 4 (s.get (wordFld (a + 4 * i)))).drop ((b.drop (4 * i)).take 4).length))) s
    t = { s with regs := t.regs } ∧ (∀ k, (∀ i < n, k ≠ (wordFld (a + 4 * i)).key) → Cells.look dfltReg t.regs k = Cells.look dfltReg s.regs k)
      ∧ ∀ i < n, t.get (wordFld (a + 4 * i)) = wordAfter s a b i % 2 ^ 32 := by
  induction n with
  | zero => simp
  | succ n ih =>
    simp only [List.range_succ, List.foldl_append, List.foldl_cons, List.foldl_nil] at ih ⊢
    obtain ⟨h1, h2, h3⟩ := ih
    generalize ht : (List.range n).foldl (fun s i => s.put (wordFld (a + 4 * i))
      (ofBytes ((b.drop (4 * i)).take 4 ++ (toBytes 4 (s.get (wordFld (a + 4 * i)))).drop ((b.drop (4 * i)).take 4).length))) s = t at h1 h2 h3
    have hold : t.get (wordFld (a + 4 * n)) = s.get (wordFld (a + 4 * n)) := by
      simp only [State.get]
      rw [h2 _ (fun i hi e => by have := wordKey_inj e; omega)]
    refine ⟨?_, ?_, ?_⟩
    · conv_lhs => rw [State.put, h1]
      rfl
    · intro k hk
      rw [State.put_regs, Cells.look_store, if_neg (hk n (by omega)), h2 k (fun i hi => hk i (by omega))]
    · intro i hi
      by_cases hin : i = n
      · subst hin
        rw [State.get_put_self, hold]; rfl
      · rw [State.get_put_ne _ _ (fun e => hin (wordKey_inj e)), h3 i (by omega)]

/-- Writing bytes changes the registers of the window alone. -/
theorem State.putBytes_rest (s : State) (a : Nat) (b : List Nat) : s.putBytes a b = { s with regs := (s.putBytes a b).regs } :=
  (putBytes_fold s a b _).1

/-- Every key outside the words written reads as before. -/
theorem State.putBytes_look (s : State) {a k : Nat} (b : List Nat) (h : k < a * 32 ∨ (a + 4 * ceilDiv b.length 4) * 32 ≤ k) :
    Cells.look dfltReg (s.putBytes a b).regs k = Cells.look dfltReg s.regs k := by
  refine (putBytes_fold s a b _).2.1 k (fun i hi => ?_)
  simp only [wordFld, Fld.key] at hi ⊢
  omega

/-- The registers outside the words written read as before. -/
theorem State.putBytes_get (s : State) {a : Nat} (b : List Nat) {f : Fld}
    (h : f.key < a * 32 ∨ (a + 4 * ceilDiv b.length 4) * 32 ≤ f.key) : (s.putBytes a b).get f = s.get f := by
  simp only [State.get, s.putBytes_look b h]

theorem wordAfter_bytes (s : State) (a : Nat) {b : List Nat} (h : ∀ x ∈ b, x < 256) (i : Nat) :
    toBytes 4 (wordAfter s a b i % 2 ^ 32)
      = (b.drop (4 * i)).take 4 ++ (toBytes 4 (s.get (wordFld (a + 4 * i)))).drop ((b.drop (4 * i)).take 4).length := by
  have hl : ((b.drop (4 * i)).take 4 ++ (toBytes 4 (s.get (wordFld (a + 4 * i)))).drop ((b.drop (4 * i)).take 4).length).length = 4 := by
    simp [toBytes_length]
  have hb : ∀ x ∈ (b.drop (4 * i)).take 4 ++ (toBytes 4 (s.get (wordFld (a + 4 * i)))).drop ((b.drop (4 * i)).take 4).length, x < 256 := by
    intro x hx
    rcases List.mem_append.1 hx with hx | hx
    · exact h x (List.mem_of_mem_drop (List.mem_of_mem_take hx))
    · exact toBytes_lt x (List.mem_of_mem_drop hx)
  have hlt := @ofBytes_lt ((b.drop (4 * i)).take 4 ++ (toBytes 4 (s.get (wordFld (a + 4 * i)))).drop ((b.drop (4 * i)).take 4).length)
  rw [hl] at hlt
  have hm : wordAfter s a b i % 2 ^ 32 = wordAfter s a b i := Nat.mod_eq_of_lt (by simpa [wordAfter] using hlt)
  rw [hm, wordAfter]
  have := toBytes_ofBytes hb
  rwa [hl] at this

/-- Whole words of a byte string, in order. -/
theorem chunks_take (b : List Nat) (g : Nat → List Nat) (m : Nat) (hm : 4 * m ≤ b.length)
    (hg : ∀ i < m, g i = (b.drop (4 * i)).take 4) : (List.range m).flatMap g = b.take (4 * m) := by
  induction m with
  | zero => simp
  | succ m ih =>
    rw [List.range_succ, List.flatMap_append, ih (by omega) (fun i hi => hg i (by omega))]
    simp only [List.flatMap_cons, List.flatMap_nil, List.append_nil, hg m (by omega)]
    rw [show 4 * (m + 1) = 4 * m + 4 by ring, List.take_add]

/-- What is written is read back. -/
theorem State.putBytes_bytesAt (s : State) (a : Nat) {b : List Nat} (h : ∀ x ∈ b, x < 256) :
    (s.putBytes a b).bytesAt a b.length = b := by
  have hw : ∀ i < ceilDiv b.length 4, toBytes 4 ((s.putBytes a b).get (wordFld (a + 4 * i)))
      = (b.drop (4 * i)).take 4 ++ (toBytes 4 (s.get (wordFld (a + 4 * i)))).drop ((b.drop (4 * i)).take 4).length := by
    intro i hi
    rw [← wordAfter_bytes s a h i, ← (putBytes_fold s a b (ceilDiv b.length 4)).2.2 i hi]
    rfl
  unfold State.bytesAt
  generalize hg : (fun i => toBytes 4 ((s.putBytes a b).get (wordFld (a + 4 * i)))) = g
  have hg' : ∀ i < ceilDiv b.length 4, g i = (b.drop (4 * i)).take 4 ++ (toBytes 4 (s.get (wordFld (a + 4 * i)))).drop ((b.drop (4 * i)).take 4).length := by
    intro i hi; rw [← hw i hi, ← hg]
  have hfull : ∀ i < b.length / 4, g i = (b.drop (4 * i)).take 4 := by
    intro i hi
    rw [hg' i (by unfold ceilDiv; omega)]
    have : ((b.drop (4 * i)).take 4).length = 4 := by simp; omega
    rw [this, List.drop_of_length_le (toBytes_length 4 _).le, List.append_nil]
  have hpre := chunks_take b g (b.length / 4) (by omega) hfull
  by_cases hr : b.length % 4 = 0
  · have hm : ceilDiv b.length 4 = b.length / 4 := by unfold ceilDiv; omega
    rw [hm, hpre, List.take_take, List.take_of_length_le (by omega)]
  · have hm : ceilDiv b.length 4 = b.length / 4 + 1 := by unfold ceilDiv; omega
    rw [hm, List.range_succ, List.flatMap_append, hpre]
    simp only [List.flatMap_cons, List.flatMap_nil, List.append_nil, hg' (b.length / 4) (by omega)]
    have h4 : (b.drop (4 * (b.length / 4))).take 4 = b.drop (4 * (b.length / 4)) := List.take_of_length_le (by simp; omega)
    rw [h4, ← List.append_assoc, List.take_append_drop, List.take_left]

/-- A window whose words read as before holds the same bytes. -/
theorem State.bytesAt_congr {s t : State} {a n : Nat} (h : ∀ i < ceilDiv n 4, t.get (wordFld (a + 4 * i)) = s.get (wordFld (a + 4 * i))) :
    t.bytesAt a n = s.bytesAt a n := by
  unfold State.bytesAt
  congr 1
  have : ∀ l : List Nat, (∀ i ∈ l, i < ceilDiv n 4) →
      l.flatMap (fun i => toBytes 4 (t.get (wordFld (a + 4 * i)))) = l.flatMap (fun i => toBytes 4 (s.get (wordFld (a + 4 * i)))) := by
    intro l
    induction l with
    | nil => simp
    | cons x r ih =>
      intro hl
      simp only [List.flatMap_cons, h x (hl x (by simp)), ih (fun i hi => hl i (by simp [hi]))]
  exact this _ (fun i hi => by simpa using hi)

/-- The first bytes of a window are those of the longer window. -/
theorem State.bytesAt_take (s : State) (a : Nat) {m n : Nat} (h : m ≤ n) : s.bytesAt a m = (s.bytesAt a n).take m := by
  have key : ∀ (k j : Nat), ((List.range (k + j)).flatMap (fun i => toBytes 4 (s.get (wordFld (a + 4 * i))))).take (4 * k)
      = (List.range k).flatMap (fun i => toBytes 4 (s.get (wordFld (a + 4 * i)))) := by
    intro k j
    have hl : ∀ k, ((List.range k).flatMap (fun i => toBytes 4 (s.get (wordFld (a + 4 * i))))).length = 4 * k := by
      intro k; induction k with
      | zero => simp
      | succ k ih => rw [List.range_succ, List.flatMap_append, List.length_append, ih]; simp [toBytes_length]; ring
    rw [List.range_add, List.flatMap_append, ← hl k, List.take_left]
  unfold State.bytesAt
  have hmn : ceilDiv n 4 = ceilDiv m 4 + (ceilDiv n 4 - ceilDiv m 4) := by unfold ceilDiv; omega
  rw [hmn, List.take_take, min_eq_left h, ← key (ceilDiv m 4) (ceilDiv n 4 - ceilDiv m 4), List.take_take]
  congr 1
  unfold ceilDiv; omega

end Sys2Proof.Machine
end

