-- ==== Sys2Proof/Laws/Notice.lean ====
section
/-! SUPPORT. What a notice can do (an interrupt ring, a status bit's ring, an entry of the completion queue, an event, a
message to the host): it changes the registers of the interrupt controller and of the mailbox block, those blocks' own
working state and what has left the block, and nothing else. -/

namespace Sys2Proof.Machine

/-- `t` differs from `s` by notices alone. -/
structure Notice (s t : State) : Prop where
  regs : ∀ k, outside k → Cells.look dfltReg t.regs k = Cells.look dfltReg s.regs k
  rest : t = { s with regs := t.regs, mbx := t.mbx, hic := t.hic, out := t.out }

namespace Notice

theorem refl (s : State) : Notice s s := ⟨fun _ _ => rfl, rfl⟩

theorem trans {s t u : State} (h : Notice s t) (g : Notice t u) : Notice s u := by
  refine ⟨fun k hk => (g.regs k hk).trans (h.regs k hk), ?_⟩
  have h' := h.rest
  have g' := g.rest
  rw [h'] at g'
  exact g'

theorem put (s : State) {f : Fld} (v : Nat) (h : ¬ outside f.key) : Notice s (s.put f v) := by
  refine ⟨fun k hk => ?_, rfl⟩
  have : k ≠ f.key := fun e => h (e ▸ hk)
  simp [Cells.look_store, this]

theorem emit (s : State) (e : Emit) : Notice s (s.emit e) := ⟨fun _ _ => rfl, rfl⟩

theorem mbx (s : State) (m : Mbx) : Notice s { s with mbx := m } := ⟨fun _ _ => rfl, rfl⟩

theorem hic (s : State) (m : Hic) : Notice s { s with hic := m } := ⟨fun _ _ => rfl, rfl⟩

theorem get {s t : State} (h : Notice s t) {f : Fld} (hf : outside f.key) : t.get f = s.get f := by
  simp [State.get, h.regs f.key hf]

theorem same_mode {s t : State} (h : Notice s t) : t.mode = s.mode := by rw [h.rest]
theorem same_prev {s t : State} (h : Notice s t) : t.prev = s.prev := by rw [h.rest]
theorem same_follow {s t : State} (h : Notice s t) : t.follow = s.follow := by rw [h.rest]
theorem same_trans {s t : State} (h : Notice s t) : t.trans = s.trans := by rw [h.rest]
theorem same_primary {s t : State} (h : Notice s t) : t.primary = s.primary := by rw [h.rest]
theorem same_synced {s t : State} (h : Notice s t) : t.synced = s.synced := by rw [h.rest]
theorem same_safeCause {s t : State} (h : Notice s t) : t.safeCause = s.safeCause := by rw [h.rest]
theorem same_modeT {s t : State} (h : Notice s t) : t.modeT = s.modeT := by rw [h.rest]
theorem same_now {s t : State} (h : Notice s t) : t.now = s.now := by rw [h.rest]
theorem same_time40 {s t : State} (h : Notice s t) : t.time40 = s.time40 := by rw [h.rest]
theorem same_subNs {s t : State} (h : Notice s t) : t.subNs = s.subNs := by rw [h.rest]
theorem same_aon {s t : State} (h : Notice s t) : t.aon = s.aon := by rw [h.rest]
theorem same_fuse {s t : State} (h : Notice s t) : t.fuse = s.fuse := by rw [h.rest]
theorem same_flash {s t : State} (h : Notice s t) : t.flash = s.flash := by rw [h.rest]
theorem same_boot {s t : State} (h : Notice s t) : t.boot = s.boot := by rw [h.rest]
theorem same_chuck {s t : State} (h : Notice s t) : t.chuck = s.chuck := by rw [h.rest]
theorem same_acct {s t : State} (h : Notice s t) : t.acct = s.acct := by rw [h.rest]
theorem same_store {s t : State} (h : Notice s t) : t.store = s.store := by rw [h.rest]
theorem same_path {s t : State} (h : Notice s t) : t.path = s.path := by rw [h.rest]
theorem same_tmb {s t : State} (h : Notice s t) : t.tmb = s.tmb := by rw [h.rest]
theorem same_drc {s t : State} (h : Notice s t) : t.drc = s.drc := by rw [h.rest]
theorem same_pair {s t : State} (h : Notice s t) : t.pair = s.pair := by rw [h.rest]
theorem same_links {s t : State} (h : Notice s t) : t.links = s.links := by rw [h.rest]
theorem same_load {s t : State} (h : Notice s t) : t.load = s.load := by rw [h.rest]
theorem same_heads {s t : State} (h : Notice s t) : t.heads = s.heads := by rw [h.rest]
theorem same_axes {s t : State} (h : Notice s t) : t.axes = s.axes := by rw [h.rest]
theorem same_maint {s t : State} (h : Notice s t) : t.maint = s.maint := by rw [h.rest]
theorem same_calRun {s t : State} (h : Notice s t) : t.calRun = s.calRun := by rw [h.rest]
theorem same_cam {s t : State} (h : Notice s t) : t.cam = s.cam := by rw [h.rest]
theorem same_enc {s t : State} (h : Notice s t) : t.enc = s.enc := by rw [h.rest]
theorem same_line {s t : State} (h : Notice s t) : t.line = s.line := by rw [h.rest]
theorem same_cmp {s t : State} (h : Notice s t) : t.cmp = s.cmp := by rw [h.rest]
theorem same_freeCtr {s t : State} (h : Notice s t) : t.freeCtr = s.freeCtr := by rw [h.rest]
theorem same_pending {s t : State} (h : Notice s t) : t.pending = s.pending := by rw [h.rest]

end Notice

/-- A choice of two notices is one. -/
theorem Notice.ite {s t u : State} {c : Prop} [Decidable c] (h : Notice s t) (g : Notice s u) :
    Notice s (if c then t else u) := by split <;> assumption

/-- The PEND and INSVC words of the sources that exist lie inside. -/
theorem inside_map {src : Nat} (h : src < 192) :
    ¬ outside (R.HIC_PEND_PEND (src / 32)).key ∧ ¬ outside (R.HIC_INSVC_INSVC (src / 32)).key
      ∧ ¬ outside (R.HIC_ROUTE_CUR src).key ∧ ¬ outside (R.HIC_ROUTE_REDIR src).key := by
  simp only [outside, Fld.key, R.HIC_PEND_PEND, R.HIC_INSVC_INSVC, R.HIC_ROUTE_CUR, R.HIC_ROUTE_REDIR]
  omega

theorem State.curCore_lt {s : State} {src c : Nat} (h : s.curCore src = some c) : c < 6 := by
  unfold State.curCore at h
  simp only at h
  split at h
  · cases h; assumption
  · cases h

theorem State.putPend_notice (s : State) {src : Nat} (b : Bool) (h : src < 192) : Notice s (s.putPend src b) := by
  unfold State.putPend
  cases b
  · exact Notice.put s _ (inside_map h).1
  · exact Notice.put s _ (inside_map h).1

theorem State.wakeCore_notice (s : State) {c : Nat} (h : c < 6) : Notice s (s.wakeCore c) := by
  unfold State.wakeCore
  refine (Notice.put s (f := R.HIC_CORE_SLEEP c) 0 ?_).trans (Notice.hic _ _)
  simp only [outside, Fld.key, R.HIC_CORE_SLEEP]
  omega

/-- Looking at a source's delivery again is a notice. -/
theorem State.settle_notice (s : State) {src : Nat} (h : src < 192) : Notice s (s.settle src) := by
  unfold State.settle
  split
  · split
    · exact Notice.refl s
    · rename_i c hc
      refine Notice.ite (Notice.refl s) (Notice.ite (s.wakeCore_notice (State.curCore_lt hc)) ?_)
      exact Notice.ite (Notice.refl s) (Notice.ite (Notice.refl s) (Notice.hic s _))
  · refine (Notice.hic s _).trans (Notice.ite ?_ (Notice.refl _))
    exact (Notice.put _ _ (inside_map h).2.2.1).trans (Notice.put _ _ (inside_map h).2.2.2)

theorem hicExists_lt {src : Nat} (h : hicExists src = true) : src < 192 := by
  simp [hicExists] at h; omega

/-- A ring is a notice. -/
theorem State.ring_notice (s : State) (src : Nat) : Notice s (s.ring src) := by
  unfold State.ring
  split
  · rename_i h
    simp only [Bool.and_eq_true] at h
    have hs := hicExists_lt h.1
    exact (s.putPend_notice true hs).trans (State.settle_notice _ hs)
  · exact Notice.refl s

/-- A status bit's ring: everything but the bit itself is left to the notice. -/
theorem State.raise_get {s : State} {f g : Fld} (src : Nat) (hg : outside g.key) (h : g.key ≠ f.key) :
    (s.raise f src).get g = s.get g := by
  unfold State.raise
  split
  · rfl
  · rw [(State.ring_notice _ _).get hg, State.get_put_ne _ _ h]

/-- After a raise the bit is set. -/
theorem State.raise_flag {s : State} {f : Fld} (src : Nat) (hf : outside f.key) (hw : 0 < f.width) :
    (s.raise f src).flag f = true := by
  unfold State.raise
  split
  · assumption
  · have h1 : (1 : Nat) < 2 ^ f.width := Nat.one_lt_two_pow (by omega)
    simp [State.flag, (State.ring_notice _ _).get hf, Nat.mod_eq_of_lt h1]

/-- What a raise leaves of the rest of the state. -/
theorem State.raise_rest (s : State) (f : Fld) (src : Nat) :
    s.raise f src = { s with
      regs := (s.raise f src).regs, mbx := (s.raise f src).mbx, hic := (s.raise f src).hic, out := (s.raise f src).out } := by
  unfold State.raise
  split
  · rfl
  · exact (State.ring_notice (s.put f 1) src).rest

/-- Setting a status bit is that bit and a notice. -/
theorem State.raise_notice (s : State) (f : Fld) (src : Nat) :
    s.raise f src = s ∧ s.flag f = true ∨ Notice (s.put f 1) (s.raise f src) := by
  unfold State.raise
  by_cases h : s.flag f = true
  · simp [h]
  · simp only [h]; exact Or.inr (State.ring_notice _ _)

theorem State.sendIrq_notice (s : State) (v : Nat) : Notice s (s.sendIrq v) := by
  unfold State.sendIrq
  refine Notice.ite (Notice.mbx s _) (Notice.ite (Notice.put s _ ?_) (Notice.ite (Notice.emit s _) ((Notice.mbx s _).trans (Notice.emit _ _))))
  simp only [outside, Fld.key, pbaFld, wordFld]
  omega

theorem State.sendUdp_notice (s : State) (k n : Nat) (b : List Nat) : Notice s (s.sendUdp k n b) := Notice.emit s _

/-- Bytes written into the window of slots or of the completion queue are a notice. -/
theorem State.putBytes_notice (s : State) {a : Nat} (b : List Nat) (h0 : 0x40100000 ≤ a) (h1 : a + 4 * ((b.length + 3) / 4) ≤ 0x40120000) :
    Notice s (s.putBytes a b) := by
  unfold State.putBytes
  have key : ∀ (l : List Nat) (s : State), (∀ i ∈ l, i < ceilDiv b.length 4) → Notice s (l.foldl (fun s i =>
      s.put (wordFld (a + 4 * i)) (ofBytes ((b.drop (4 * i)).take 4 ++ (toBytes 4 (s.get (wordFld (a + 4 * i)))).drop ((b.drop (4 * i)).take 4).length))) s) := by
    intro l
    induction l with
    | nil => exact fun s _ => Notice.refl s
    | cons x t ih =>
      intro s hl
      refine Notice.trans ?_ (ih _ (fun i hi => hl i (by simp [hi])))
      have hx := hl x (by simp)
      refine Notice.put s _ ?_
      simp only [outside, Fld.key, wordFld, ceilDiv] at hx ⊢
      omega
  exact key _ s (fun i hi => by simpa using hi)

theorem State.entry_length (s : State) (tag op status slot flags rlen cls progress detail data : Nat) :
    (s.entry tag op status slot flags rlen cls progress detail data).length = 32 := by
  simp [State.entry, toBytes]

theorem modifyNth_length {α : Type} (l : List α) (i : Nat) (f : α → α) : (modifyNth l i f).length = l.length := by
  induction l generalizing i with
  | nil => rfl
  | cons x t ih => cases i <;> simp [modifyNth, ih]

/-- An entry written to the completion queue is a notice. -/
theorem State.writeEntry_notice (s : State) (e : List Nat) (h : e.length = 32) : Notice s (s.writeEntry e) := by
  unfold State.writeEntry
  have ht : s.get R.MBX_CQ_TAIL_TAIL < 2048 := s.get_lt _
  generalize s.get R.MBX_CQ_TAIL_TAIL = t at ht
  have hl : (modifyNth e 7 (fun f => f + 0x80 * b2n s.mbx.phase)).length = 32 := by simp [modifyNth_length, h]
  generalize modifyNth e 7 (fun f => f + 0x80 * b2n s.mbx.phase) = e' at hl
  have h1 : Notice s (s.putBytes (0x40110000 + 32 * t) e') := s.putBytes_notice e' (by omega) (by omega)
  have h2 : Notice s ((s.putBytes (0x40110000 + 32 * t) e').put R.MBX_CQ_TAIL_TAIL (t + 1)) :=
    h1.trans (Notice.put _ _ (by simp [outside, Fld.key, R.MBX_CQ_TAIL_TAIL]))
  simp only
  have h3 := h2.trans (Notice.ite (c := t = 2047) (Notice.mbx _ { ((s.putBytes (0x40110000 + 32 * t) e').put R.MBX_CQ_TAIL_TAIL (t + 1)).mbx with
    phase := !((s.putBytes (0x40110000 + 32 * t) e').put R.MBX_CQ_TAIL_TAIL (t + 1)).mbx.phase }) (Notice.refl _))
  exact h3.trans (Notice.ite (Notice.emit _ _) (Notice.refl _))

theorem State.postLost_notice (s : State) : Notice s s.postLost := by
  unfold State.postLost
  split
  · exact ((State.writeEntry_notice _ _ (s.entry_length ..)).trans (Notice.mbx _ _)).trans
      (Notice.ite (State.sendIrq_notice _ _) (Notice.refl _))
  · exact Notice.refl s

/-- An entry that is no final completion is a notice. -/
theorem State.postSoft_notice (s : State) (e : List Nat) (b : Bool) (h : e.length = 32) : Notice s (s.postSoft e b) := by
  unfold State.postSoft
  refine Notice.ite (Notice.refl s) (s.postLost_notice.trans (Notice.ite ?_ ?_))
  · exact (State.writeEntry_notice _ _ h).trans (Notice.ite (State.sendIrq_notice _ _) (Notice.refl _))
  · refine (Notice.trans (Notice.put _ (f := R.MBX_CQ_DROP_COUNT) _ ?_) (Notice.put _ (f := R.MBX_STAT_CQ_LOST) _ ?_)).trans (Notice.mbx _ _)
    · simp [outside, Fld.key, R.MBX_CQ_DROP_COUNT]
    · simp [outside, Fld.key, R.MBX_STAT_CQ_LOST]

/-- An event is a notice. -/
theorem State.postEvent_notice (s : State) (code detail data : Nat) : Notice s (s.postEvent code detail data) := by
  unfold State.postEvent
  refine Notice.trans (Notice.ite ?_ (Notice.refl s)) (State.postSoft_notice _ _ _ (s.entry_length ..))
  exact (State.sendUdp_notice _ _ _ _).trans (Notice.mbx _ _)

end Sys2Proof.Machine
end

