-- ==== Sys2Proof/Laws/Complete.lean ====
section
/-! SUPPORT. What the final completion of a mailbox command does, and all it does (R250–R254, R269, R221). -/

namespace Sys2Proof.Machine

/-! ## The pair log -/

/-- `t` differs from `s` by records of the pair log alone: the offset of the stream, the pair block's own state, frames. -/
structure Logged (s t : State) : Prop where
  regs : ∀ k, k ≠ R.TSL_LOG_TX_OFF.key → Cells.look dfltReg t.regs k = Cells.look dfltReg s.regs k
  rest : t = { s with regs := t.regs, pair := t.pair, out := t.out }

theorem Logged.refl (s : State) : Logged s s := ⟨fun _ _ => rfl, rfl⟩

theorem Logged.trans {s t u : State} (h : Logged s t) (g : Logged t u) : Logged s u := by
  refine ⟨fun k hk => (g.regs k hk).trans (h.regs k hk), ?_⟩
  have h' := h.rest
  have g' := g.rest
  rw [h'] at g'
  exact g'

theorem Logged.emit (s : State) (e : Emit) : Logged s (s.emit e) := ⟨fun _ _ => rfl, rfl⟩

theorem Logged.pair (s : State) (p : Pair) : Logged s { s with pair := p } := ⟨fun _ _ => rfl, rfl⟩

theorem State.sendLog_logged (fuel : Nat) (s : State) (off : Nat) (b : List Nat) : Logged s (State.sendLog fuel s off b) := by
  induction fuel generalizing s off b with
  | zero => exact Logged.refl s
  | succ n ih =>
    unfold State.sendLog
    split
    · exact Logged.refl s
    · exact (Logged.emit s _).trans (ih _ _ _)

theorem State.logShut_logged (s : State) (b : Bool) : Logged s (s.logShut b) := by
  unfold State.logShut
  cases b
  · exact Logged.pair s _
  · exact (Logged.emit s _).trans (Logged.pair _ _)

/-- Closing a group changes the log alone. -/
theorem State.logClose_logged (s : State) : Logged s s.logClose := by
  unfold State.logClose
  split
  · exact Logged.refl s
  · simp only
    split
    · refine Logged.trans ?_ (State.logShut_logged _ _)
      refine Logged.trans ?_ (State.sendLog_logged _ _ _ _)
      refine (Logged.pair s _).trans ⟨fun k hk => ?_, rfl⟩
      simp [Cells.look_store, hk]
    · refine Logged.trans ?_ (State.sendLog_logged _ _ _ _)
      refine (Logged.pair s _).trans ⟨fun k hk => ?_, rfl⟩
      simp [Cells.look_store, hk]

theorem State.logAdd_logged (s : State) (t : Nat) (e : Option Nat) (c : Nat) (b : List Nat) : Logged s (s.logAdd t e c b) := by
  unfold State.logAdd
  split
  · exact Logged.pair s _
  · exact Logged.refl s

theorem State.logOne_logged (s : State) (t : Nat) (e : Option Nat) (c : Nat) (b : List Nat) : Logged s (s.logOne t e c b) :=
  (s.logAdd_logged t e c b).trans (State.logClose_logged _)

/-! ## The completion queue -/

/-- Writing an entry moves the tail, the phase at the end of a pass, and the entry's words. -/
theorem State.writeEntry_look (s : State) (e : List Nat) (h : e.length = 32) {k : Nat}
    (hk : k ≠ R.MBX_CQ_TAIL_TAIL.key ∧ (k < 0x40110000 * 32 ∨ 0x40120000 * 32 ≤ k)) :
    Cells.look dfltReg (s.writeEntry e).regs k = Cells.look dfltReg s.regs k := by
  have ht : s.get R.MBX_CQ_TAIL_TAIL < 2048 := s.get_lt _
  unfold State.writeEntry
  generalize s.get R.MBX_CQ_TAIL_TAIL = t at ht
  simp only
  have hl : (modifyNth e 7 (fun f => f + 0x80 * b2n s.mbx.phase)).length = 32 := by simp [modifyNth_length, h]
  generalize modifyNth e 7 (fun f => f + 0x80 * b2n s.mbx.phase) = e' at hl
  have h1 : Cells.look dfltReg ((s.putBytes (0x40110000 + 32 * t) e').put R.MBX_CQ_TAIL_TAIL (t + 1)).regs k
      = Cells.look dfltReg s.regs k := by
    rw [State.put_regs, Cells.look_store, if_neg hk.1]
    refine s.putBytes_look e' ?_
    simp only [hl, ceilDiv]
    omega
  split <;> split <;> exact h1

/-- The rest of the state an entry can change: the pass's phase and what has left the block. -/
theorem State.writeEntry_rest (s : State) (e : List Nat) :
    s.writeEntry e = { s with
      regs := (s.writeEntry e).regs, mbx := { s.mbx with phase := (s.writeEntry e).mbx.phase }, out := (s.writeEntry e).out } := by
  unfold State.writeEntry
  simp only
  generalize modifyNth e 7 (fun f => f + 0x80 * b2n s.mbx.phase) = e'
  have h := s.putBytes_rest (0x40110000 + 32 * s.get R.MBX_CQ_TAIL_TAIL) e'
  generalize s.putBytes (0x40110000 + 32 * s.get R.MBX_CQ_TAIL_TAIL) e' = t at h
  rw [h]
  split <;> split <;> rfl

/-- What an interrupt message can change. -/
theorem State.sendIrq_rest (s : State) (v : Nat) :
    s.sendIrq v = { s with
      regs := (s.sendIrq v).regs, mbx := { s.mbx with gaps := (s.sendIrq v).mbx.gaps }, out := (s.sendIrq v).out } := by
  unfold State.sendIrq
  repeat' split
  all_goals rfl

/-- Outside the pending-bit array an interrupt message changes no register. -/
theorem State.sendIrq_look (s : State) (v : Nat) {k : Nat} (h : k < 0x40107000 * 32 ∨ 0x40107008 * 32 ≤ k) :
    Cells.look dfltReg (s.sendIrq v).regs k = Cells.look dfltReg s.regs k := by
  unfold State.sendIrq
  repeat' split
  · rfl
  · refine (Cells.look_store ..).trans (if_neg ?_)
    simp only [pbaFld, wordFld, Fld.key]
    omega
  · rfl
  · rfl

/-- The first six bytes of an entry, in the place of the queue it is written to. -/
theorem State.writeEntry_head (s : State) (e : List Nat) (h : e.length = 32) (hb : ∀ x ∈ e, x < 256) (h7 : e.getD 7 0 < 128) :
    (s.writeEntry e).bytesAt (0x40110000 + 32 * s.get R.MBX_CQ_TAIL_TAIL) 6 = e.take 6 := by
  have ht : s.get R.MBX_CQ_TAIL_TAIL < 2048 := s.get_lt _
  unfold State.writeEntry
  generalize s.get R.MBX_CQ_TAIL_TAIL = t at ht
  simp only
  generalize he : modifyNth e 7 (fun f => f + 0x80 * b2n s.mbx.phase) = e'
  have hl : e'.length = 32 := by rw [← he]; simp [modifyNth_length, h]
  have hp : b2n s.mbx.phase ≤ 1 := by cases s.mbx.phase <;> simp [b2n]
  have h6 : e'.take 6 = e.take 6 ∧ ∀ x ∈ e', x < 256 := by
    rw [← he]
    match e, h with
    | a :: b :: c :: d :: f :: g :: i :: j :: r, _ =>
      simp only [List.getD_cons_succ, List.getD_cons_zero] at h7
      simp only [List.mem_cons, forall_eq_or_imp] at hb
      simp only [modifyNth, List.take_succ_cons, List.take_zero, List.mem_cons, forall_eq_or_imp, true_and]
      obtain ⟨h0, h1, h2, h3, h4, h5, h6, _, h8⟩ := hb
      exact ⟨h0, h1, h2, h3, h4, h5, h6, by omega, h8⟩
  have key : ((s.putBytes (0x40110000 + 32 * t) e').put R.MBX_CQ_TAIL_TAIL (t + 1)).bytesAt (0x40110000 + 32 * t) 6 = e.take 6 := by
    have hput : ((s.putBytes (0x40110000 + 32 * t) e').put R.MBX_CQ_TAIL_TAIL (t + 1)).bytesAt (0x40110000 + 32 * t) 6
        = (s.putBytes (0x40110000 + 32 * t) e').bytesAt (0x40110000 + 32 * t) 6 := by
      refine State.bytesAt_congr (fun i _ => State.get_put_ne _ _ ?_)
      simp only [wordFld, Fld.key, R.MBX_CQ_TAIL_TAIL]; omega
    rw [hput, State.bytesAt_take _ _ (show 6 ≤ e'.length by omega), State.putBytes_bytesAt _ _ h6.2, h6.1]
  split <;> split <;> exact key

/-! ## The final completion -/

/-- Unlocking a slot writes the lock map and the count of locked slots, or the map of the virtual slots. -/
theorem State.setLock_rest (s : State) (r : SlotRef) (b : Bool) :
    s.setLock r b = { s with regs := (s.setLock r b).regs, mbx := { s.mbx with udpLocked := (s.setLock r b).mbx.udpLocked } } := by
  unfold State.setLock
  cases r.transport <;> cases b <;> rfl

theorem State.setLock_look (s : State) (r : SlotRef) (b : Bool) {k : Nat}
    (h : k ≠ R.MBX_SLOTS_LOCKED.key ∧ k ≠ R.MBX_STAT_ACTIVE.key) :
    Cells.look dfltReg (s.setLock r b).regs k = Cells.look dfltReg s.regs k := by
  unfold State.setLock
  cases r.transport
  · cases b <;> simp [State.setIn, State.clrIn, Cells.look_store, h.1, h.2]
  · rfl

/-- An unlocked slot is not locked. -/
theorem State.setLock_unlocks (s : State) {r : SlotRef} (h : r.slot < 64) : (s.setLock r false).isLocked r = false := by
  obtain ⟨tr, n⟩ := r
  cases tr
  · have hk : R.MBX_SLOTS_LOCKED.key ≠ R.MBX_STAT_ACTIVE.key := by decide
    have h64 : bit (clrBit (s.get R.MBX_SLOTS_LOCKED) n % 2 ^ 64) n = false := by
      rw [bit_mod h, bit_clrBit]
    simp only [State.setLock, State.isLocked, State.bitIn, State.clrIn]
    rw [State.get_put_ne _ _ hk]
    simpa [R.MBX_SLOTS_LOCKED] using h64
  · simp [State.setLock, State.isLocked, bit_clrBit]

/-- The response words of a slot lie apart from every register a completion writes. -/
theorem slot_apart {r : SlotRef} (h : r.slot < 64) {i : Nat} (hi : i < 60) :
    let k := (wordFld (slotBase r + 0x10 + 4 * i)).key
    k ≠ R.MBX_SLOTS_LOCKED.key ∧ k ≠ R.MBX_STAT_ACTIVE.key ∧ k ≠ R.CNT_MBX_FINAL_COUNT.key ∧ k ≠ R.MBX_CQ_TAIL_TAIL.key
      ∧ k ≠ R.MBX_LOSTCPL_COUNT.key ∧ (k < 0x40110000 * 32 ∨ 0x40120000 * 32 ≤ k) := by
  obtain ⟨tr, n⟩ := r
  cases tr <;>
    simp only [slotBase, wordFld, Fld.key, R.MBX_SLOTS_LOCKED, R.MBX_STAT_ACTIVE, R.CNT_MBX_FINAL_COUNT, R.MBX_CQ_TAIL_TAIL,
      R.MBX_LOSTCPL_COUNT] at h ⊢ <;> omega

/-- A completion before its entry: the result is in the slot, the slot is free, the completion is counted. -/
def State.closed (s : State) (c : Cmd) (result : List Nat) : State :=
  let s := s.putBytes (slotBase c.ref + 0x10) (result.take 240)
  let s := s.setLock c.ref false
  ({ s with mbx := { s.mbx with cmds := s.mbx.cmds.filter (fun d => d.ref != c.ref) } } : State).count R.CNT_MBX_FINAL_COUNT

theorem State.closed_rest (s : State) (c : Cmd) (result : List Nat) :
    s.closed c result = { s with
      regs := (s.closed c result).regs
      mbx := { s.mbx with cmds := s.mbx.cmds.filter (fun d => d.ref != c.ref), udpLocked := (s.closed c result).mbx.udpLocked } } := by
  unfold State.closed
  simp only
  have h1 := s.putBytes_rest (slotBase c.ref + 0x10) (result.take 240)
  generalize s.putBytes (slotBase c.ref + 0x10) (result.take 240) = a at h1
  have h2 := a.setLock_rest c.ref false
  generalize a.setLock c.ref false = b at h2
  rw [h2, h1]
  rfl

/-- Registers a completion before its entry leaves alone. -/
theorem State.closed_look (s : State) {c : Cmd} (hs : c.ref.slot < 64) (result : List Nat) {k : Nat}
    (h1 : k ≠ R.MBX_SLOTS_LOCKED.key ∧ k ≠ R.MBX_STAT_ACTIVE.key ∧ k ≠ R.CNT_MBX_FINAL_COUNT.key)
    (h2 : (k < 0x40100000 * 32 ∨ 0x40104000 * 32 ≤ k) ∧ (k < 0x100000000 * 32 ∨ 0x100004000 * 32 ≤ k)) :
    Cells.look dfltReg (s.closed c result).regs k = Cells.look dfltReg s.regs k := by
  unfold State.closed State.count
  rw [State.put_regs, Cells.look_store, if_neg h1.2.2]
  have := State.setLock_look (s.putBytes (slotBase c.ref + 0x10) (result.take 240)) c.ref false ⟨h1.1, h1.2.1⟩
  simp only at this ⊢
  rw [this]
  refine s.putBytes_look _ ?_
  have hlen : (result.take 240).length ≤ 240 := by simp
  unfold ceilDiv
  obtain ⟨⟨tr, n⟩, _⟩ := c
  cases tr <;> simp only [slotBase] at hs ⊢ <;> omega

theorem State.closed_get (s : State) {c : Cmd} (hs : c.ref.slot < 64) (result : List Nat) {f : Fld}
    (h1 : f.key ≠ R.MBX_SLOTS_LOCKED.key ∧ f.key ≠ R.MBX_STAT_ACTIVE.key ∧ f.key ≠ R.CNT_MBX_FINAL_COUNT.key)
    (h2 : (f.key < 0x40100000 * 32 ∨ 0x40104000 * 32 ≤ f.key) ∧ (f.key < 0x100000000 * 32 ∨ 0x100004000 * 32 ≤ f.key)) :
    (s.closed c result).get f = s.get f := by
  simp only [State.get, s.closed_look hs result h1 h2]

theorem State.closed_counted (s : State) {c : Cmd} (hs : c.ref.slot < 64) (result : List Nat) :
    (s.closed c result).get R.CNT_MBX_FINAL_COUNT = (s.get R.CNT_MBX_FINAL_COUNT + 1) % 2 ^ 40 := by
  have h : ∀ u : State, Cells.look dfltReg u.regs R.CNT_MBX_FINAL_COUNT.key = Cells.look dfltReg s.regs R.CNT_MBX_FINAL_COUNT.key →
      (u.count R.CNT_MBX_FINAL_COUNT).get R.CNT_MBX_FINAL_COUNT = (s.get R.CNT_MBX_FINAL_COUNT + 1) % 2 ^ 40 := by
    intro u hu
    rw [State.count, State.get_put_self]
    simp only [State.get, hu]
    rfl
  refine h _ ?_
  have := State.setLock_look (s.putBytes (slotBase c.ref + 0x10) (result.take 240)) c.ref false
    (k := R.CNT_MBX_FINAL_COUNT.key) (by decide)
  simp only at this ⊢
  rw [this]
  refine s.putBytes_look _ ?_
  have hlen : (result.take 240).length ≤ 240 := by simp
  unfold ceilDiv
  obtain ⟨⟨tr, n⟩, _⟩ := c
  cases tr <;> simp only [slotBase, Fld.key, R.CNT_MBX_FINAL_COUNT] at hs ⊢ <;> omega

theorem State.closed_answer (s : State) {c : Cmd} (hs : c.ref.slot < 64) {result : List Nat} (hl : result.length ≤ 240)
    (hb : ∀ b ∈ result, b < 256) : (s.closed c result).bytesAt (slotBase c.ref + 0x10) result.length = result := by
  have h1 : (s.putBytes (slotBase c.ref + 0x10) (result.take 240)).bytesAt (slotBase c.ref + 0x10) result.length = result := by
    rw [List.take_of_length_le hl]; exact State.putBytes_bytesAt s _ hb
  refine Eq.trans (State.bytesAt_congr (fun i hi => ?_)) h1
  have hk := slot_apart hs (i := i) (by unfold ceilDiv at hi; omega)
  unfold State.closed State.count
  rw [State.get_put_ne _ _ hk.2.2.1]
  simp only [State.get]
  rw [State.setLock_look _ _ _ ⟨hk.1, hk.2.1⟩]

theorem State.closed_unlocked (s : State) {c : Cmd} (hs : c.ref.slot < 64) (result : List Nat) :
    (s.closed c result).isLocked c.ref = false := by
  have h := State.setLock_unlocks (s.putBytes (slotBase c.ref + 0x10) (result.take 240)) hs
  unfold State.closed State.count
  unfold State.isLocked State.bitIn at h ⊢
  cases hr : c.ref.transport
  · simp only [hr] at h ⊢
    rw [State.get_put_ne _ _ (by decide)]
    exact h
  · simp only [hr] at h ⊢
    exact h

/-- The state after a completion's entry, given the state before it. -/
structure Posted (u v : State) : Prop where
  regs : ∀ k, k ≠ R.MBX_CQ_TAIL_TAIL.key → k ≠ R.MBX_LOSTCPL_COUNT.key → (k < 0x40110000 * 32 ∨ 0x40120000 * 32 ≤ k) →
    (k < 0x40107000 * 32 ∨ 0x40107008 * 32 ≤ k) → Cells.look dfltReg v.regs k = Cells.look dfltReg u.regs k
  rest : v = { u with regs := v.regs, mbx := v.mbx, out := v.out }
  cmds : v.mbx.cmds = u.mbx.cmds
  tags : v.mbx.tags = u.mbx.tags
  udp : v.mbx.udpLocked = u.mbx.udpLocked

theorem Posted.irq {u v : State} (h : Posted u v) (n : Nat) : Posted u (v.sendIrq n) := by
  have e := v.sendIrq_rest n
  refine ⟨fun k a b c d => (v.sendIrq_look n d).trans (h.regs k a b c d), ?_, ?_, ?_, ?_⟩
  · rw [e, h.rest]
  · rw [e]; exact h.cmds
  · rw [e]; exact h.tags
  · rw [e]; exact h.udp

theorem Posted.entry (u : State) (e : List Nat) (h : e.length = 32) : Posted u (u.writeEntry e) := by
  have r := u.writeEntry_rest e
  refine ⟨fun k a _ c _ => u.writeEntry_look e h ⟨a, c⟩, ?_, ?_, ?_, ?_⟩ <;> rw [r]

/-- Everything the final completion of a command does (R250–R254, R265). -/
theorem State.finalEntry_spec (s : State) {c : Cmd} (hs : c.ref.slot < 64) (status detail : Nat) {flags cls : Nat} (hf : flags < 128)
    (hc : cls < 256) (result : List Nat) :
    Posted (s.closed c result) (s.finalEntry c status detail flags cls result)
      ∧ (c.discard = false → c.ref.transport = .bar →
          ∃ i < 2048, (s.finalEntry c status detail flags cls result).bytesAt (0x40110000 + 32 * i) 6 = entryHead c status)
      ∧ (c.discard = false → c.ref.transport = .udp →
          ∃ d, .udp 2 d ∈ (s.finalEntry c status detail flags cls result).out ∧ (d.drop 16).take 6 = entryHead c status) := by
  have hform : s.finalEntry c status detail flags cls result =
      (let u := s.closed c result
       let e := u.entry c.tag c.op status c.ref.slot flags (result.take 240).length cls 0 detail (field (result.take 240) 0 8)
       if c.discard then
         let s := u.bump R.MBX_LOSTCPL_COUNT
         if c.ref.transport = .bar then { s with mbx := { s.mbx with resetPending := s.mbx.resetPending.map (· + 1) } } else s
       else match c.ref.transport with
         | .bar =>
           let s := u.writeEntry e
           if bit c.flags 0 then s.sendIrq c.vec else s
         | .udp =>
           let d := datagram (u.get R.MBX_UDP_SESS_SESSION) 2 c.seq (e ++ result.take 240)
           { (u.emit (.udp 2 d)) with mbx := { u.mbx with
               udpLast := (c.ref.slot, c.seq, some d) :: u.mbx.udpLast.filter (fun x => x.1 != c.ref.slot) } }) := rfl
  rw [hform]
  generalize s.closed c result = u
  simp only
  generalize he : u.entry c.tag c.op status c.ref.slot flags (result.take 240).length cls 0 detail (field (result.take 240) 0 8) = e
  have hlen : e.length = 32 := by rw [← he]; exact u.entry_length ..
  have hhead : e.take 6 = entryHead c status := by rw [← he]; simp [State.entry, entryHead, toBytes]
  have h7 : e.getD 7 0 < 128 := by rw [← he]; simpa [State.entry, toBytes] using hf
  have hrl : (result.take 240).length < 256 := by rw [List.length_take]; omega
  have hb : ∀ x ∈ e, x < 256 := by
    rw [← he]; unfold State.entry
    intro x hx
    simp only [List.mem_append] at hx
    rcases hx with (((((((hx | hx) | hx) | hx) | hx) | hx) | hx) | hx)
    all_goals first | exact toBytes_lt x hx | skip
    simp only [List.mem_cons, List.not_mem_nil, or_false] at hx
    omega
  by_cases hd : c.discard = true
  · simp only [hd, if_true]
    refine ⟨?_, by simp, by simp⟩
    have hp : Posted u (u.bump R.MBX_LOSTCPL_COUNT) := by
      refine ⟨fun k _ b _ _ => ?_, rfl, rfl, rfl, rfl⟩
      simp [State.bump, Cells.look_store, b]
    split
    · exact ⟨hp.regs, by rw [hp.rest], hp.cmds, hp.tags, hp.udp⟩
    · exact hp
  · have hd' : c.discard = false := by simpa using hd
    simp only [hd']
    cases hr : c.ref.transport
    · refine ⟨?_, fun _ _ => ⟨u.get R.MBX_CQ_TAIL_TAIL, u.get_lt _, ?_⟩, by simp⟩
      · simp only [Bool.false_eq_true, if_false]
        split
        · exact (Posted.entry u e hlen).irq _
        · exact Posted.entry u e hlen
      · have hw := u.writeEntry_head e hlen hb h7
        rw [hhead] at hw
        simp only [Bool.false_eq_true, if_false]
        split
        · rw [← hw]
          refine State.bytesAt_congr (fun i _ => ?_)
          refine congrArg (· % 2 ^ 32) (State.sendIrq_look _ _ (k := (wordFld _).key) ?_)
          simp only [Fld.key, wordFld]
          omega
        · exact hw
    · refine ⟨⟨fun _ _ _ _ _ => rfl, rfl, rfl, rfl, rfl⟩, by simp, fun _ _ => ⟨_, List.mem_cons_self, ?_⟩⟩
      simp only [datagram]
      rw [List.drop_append, List.drop_of_length_le (by simp [toBytes_length])]
      simp only [List.nil_append, List.length_append, toBytes_length, List.length_cons, List.length_nil, Nat.reduceAdd, Nat.sub_self, List.drop_zero]
      rw [List.take_append_of_le_length (by omega), hhead]

/-- The steps of a final completion before its entry: the tag table and the log. -/
def State.recorded (s : State) (c : Cmd) (status detail : Nat) (result : List Nat) : State :=
  let s := if cmdChanges c.op then s.tagRecord c.tag c.op status detail (result.take 240) else s
  if cmdLogged c.op then s.logTag c.tag c.op status result else s

theorem State.recorded_spec (s : State) (c : Cmd) (status detail : Nat) (result : List Nat) :
    let t := s.recorded c status detail result
    (∀ k, k ≠ R.TSL_LOG_TX_OFF.key → Cells.look dfltReg t.regs k = Cells.look dfltReg s.regs k)
      ∧ t = { s with regs := t.regs, pair := t.pair, out := t.out, mbx := { s.mbx with tags := t.mbx.tags } }
      ∧ (cmdChanges c.op = true → t.mbx.tags.head? = some ⟨c.tag, c.op, status, detail, result.take 240⟩) := by
  have step : ∀ u : State, (u = s ∨ u = s.tagRecord c.tag c.op status detail (result.take 240)) →
      let t := if cmdLogged c.op then u.logTag c.tag c.op status result else u
      (∀ k, k ≠ R.TSL_LOG_TX_OFF.key → Cells.look dfltReg t.regs k = Cells.look dfltReg s.regs k)
        ∧ t = { s with regs := t.regs, pair := t.pair, out := t.out, mbx := { s.mbx with tags := u.mbx.tags } }
        ∧ t.mbx.tags = u.mbx.tags := by
    intro u hu
    have hl : Logged u (if cmdLogged c.op then u.logTag c.tag c.op status result else u) := by
      split
      · exact u.logOne_logged _ _ _ _
      · exact Logged.refl u
    generalize (if cmdLogged c.op then u.logTag c.tag c.op status result else u) = t at hl
    refine ⟨fun k hk => (hl.regs k hk).trans ?_, ?_, ?_⟩
    · rcases hu with rfl | rfl <;> rfl
    · rw [hl.rest]; rcases hu with rfl | rfl <;> rfl
    · rw [hl.rest]
  unfold State.recorded
  by_cases h : cmdChanges c.op = true
  · simp only [h, if_true]
    obtain ⟨h1, h2, h3⟩ := step _ (Or.inr rfl)
    refine ⟨h1, ?_, fun _ => ?_⟩
    · rw [h3]; exact h2
    · rw [h3]; rfl
  · rw [if_neg h]
    obtain ⟨h1, h2, h3⟩ := step _ (Or.inl rfl)
    refine ⟨h1, ?_, fun e => absurd e h⟩
    rw [h3]; exact h2

theorem State.finish_eq (s : State) (c : Cmd) (status detail : Nat) (result : List Nat) :
    s.finish c status detail result = (s.recorded c status detail result).finalEntry c status detail 1 (cmdClass c.op) result := rfl

theorem cmdClass_lt (op : Nat) : cmdClass op < 256 := by
  unfold cmdClass cmdInfo
  split
  · rename_i h
    split at h
    · rename_i e k cl hf
      cases h
      have hm := List.mem_of_find?_eq_some hf
      have : ∀ e ∈ cmdTable, e.2.2 < 256 := by decide
      exact this _ hm
    · cases h
  · decide

/-- What a final completion leaves alone: every register but those of the host interface, the offset of the pair log and the
counter of completions. -/
theorem State.finish_get (s : State) {c : Cmd} (hs : c.ref.slot < 64) (status detail : Nat) (result : List Nat) {f : Fld}
    (ho : outside f.key) (hu : f.key < 0x100000000 * 32) (h1 : f.key ≠ R.TSL_LOG_TX_OFF.key) (h2 : f.key ≠ R.CNT_MBX_FINAL_COUNT.key) :
    (s.finish c status detail result).get f = s.get f := by
  obtain ⟨hr, -, -⟩ := s.recorded_spec c status detail result
  obtain ⟨hp, -, -⟩ := (s.recorded c status detail result).finalEntry_spec hs status detail (flags := 1) (by decide) (cmdClass_lt c.op) result
  simp only [State.get, State.finish_eq]
  simp only [outside] at ho
  rw [hp.regs _ ?_ ?_ ?_ ?_, State.closed_look _ hs _ ?_ ?_, hr _ h1]
  · refine ⟨?_, ?_, h2⟩ <;> (intro e; rw [e] at ho; revert ho; decide)
  · omega
  · intro e; rw [e] at ho; revert ho; decide
  · intro e; rw [e] at ho; revert ho; decide
  · omega
  · omega

/-- The rest of the state a final completion can change. -/
theorem State.finish_rest (s : State) {c : Cmd} (hs : c.ref.slot < 64) (status detail : Nat) (result : List Nat) :
    s.finish c status detail result = { s with
      regs := (s.finish c status detail result).regs
      mbx := (s.finish c status detail result).mbx
      pair := (s.finish c status detail result).pair
      out := (s.finish c status detail result).out } := by
  obtain ⟨-, hr, -⟩ := s.recorded_spec c status detail result
  obtain ⟨hp, -, -⟩ := (s.recorded c status detail result).finalEntry_spec hs status detail (flags := 1) (by decide) (cmdClass_lt c.op) result
  rw [State.finish_eq]
  generalize (s.recorded c status detail result).finalEntry c status detail 1 (cmdClass c.op) result = v at hp
  have h1 := hp.rest
  rw [State.closed_rest, hr] at h1
  rw [h1]

/-- A final completion is what R252 says. -/
theorem State.finish_completed (s : State) {c : Cmd} (hs : c.ref.slot < 64) (status detail : Nat) (result : List Nat) :
    Completed s (s.finish c status detail result) c status detail result := by
  have hkept := fun (f : Fld) => @State.finish_get s c hs status detail result f
  have hfull : s.finish c status detail result = { s with
      regs := (s.finish c status detail result).regs
      mbx := (s.finish c status detail result).mbx
      pair := (s.finish c status detail result).pair
      out := (s.finish c status detail result).out
      aon := (s.finish c status detail result).aon
      pending := (s.finish c status detail result).pending } := by
    have h := s.finish_rest hs status detail result
    have e1 : (s.finish c status detail result).aon = s.aon := by rw [h]
    have e2 : (s.finish c status detail result).pending = s.pending := by rw [h]
    rw [e1, e2]; exact h
  obtain ⟨hr, hrest, htag⟩ := s.recorded_spec c status detail result
  obtain ⟨hp, he, hd⟩ := (s.recorded c status detail result).finalEntry_spec hs status detail (flags := 1) (by decide) (cmdClass_lt c.op) result
  rw [State.finish_eq] at *
  generalize hu : s.recorded c status detail result = u at *
  have hcl := u.closed_rest c result
  refine ⟨?_, ?_, ?_, ?_, ?_, he, hd, hkept, hfull⟩
  · rw [hp.cmds, hcl, hrest]
  · have hunl := u.closed_unlocked hs result
    unfold State.isLocked State.bitIn at hunl ⊢
    cases ht : c.ref.transport
    · simp only [ht, State.get] at hunl ⊢
      rw [hp.regs _ (by decide) (by decide) (by decide) (by decide)]
      exact hunl
    · simp only [ht] at hunl ⊢
      rw [hp.udp]
      exact hunl
  · have := u.closed_counted hs result
    simp only [State.get] at this ⊢
    rw [hp.regs _ (by decide) (by decide) (by decide) (by decide), this, hr _ (by decide)]
  · intro h; rw [hp.tags, hcl]; exact htag h
  · intro hl hb
    refine Eq.trans (State.bytesAt_congr (fun i hi => ?_)) (u.closed_answer hs hl hb)
    have hk := slot_apart hs (i := i) (by unfold ceilDiv at hi; omega)
    simp only [State.get]
    rw [hp.regs _ hk.2.2.2.1 hk.2.2.2.2.1 hk.2.2.2.2.2 ?_]
    obtain ⟨⟨tr, n⟩, _⟩ := c
    have hi : i < 60 := by unfold ceilDiv at hi; omega
    cases tr <;> simp only [slotBase, Fld.key, wordFld] at hs ⊢ <;> omega

/-- The frame of an event does not touch a completion. -/
theorem Completed.framed {s t : State} {c : Cmd} {st d : Nat} {r : List Nat} (h : Completed s t c st d r) (a : Aon) (l : List Instr) :
    Completed s { t with aon := a, pending := l } c st d r :=
  ⟨h.cmds, h.unlocked, h.counted, h.tag, h.answer, h.entry, h.datagram, h.kept, by have := h.rest; rw [this]⟩

/-- An accepted command whose turn has come runs. -/
theorem withCmd_waiting {s : State} {c : Cmd} {op : Nat} (h : Waiting s c op) (k : State → Cmd → State) :
    withCmd s c.ref op k = .next { k s c with aon := s.aon, pending := s.pending } := by
  have h1 := h.found
  have h2 := h.turn
  have h3 := h.cores
  have h4 := h.admitted
  have h0 := h.running
  simp only [withCmd, coreEvent, h0, if_true, State.runCmd, h1, h2, h3, h4]
  simp

end Sys2Proof.Machine
end

