-- ==== Sys2Proof/Laws/Core.lean ====
section
/-! SUPPORT. The one form that all commands share but ten: an event that has no effect where the core logic does not run, and
changes neither the always-on domain nor the queue. -/

namespace Sys2Proof.Machine

/-- Rows with a form of their own: resets, the boot, the always-on domain, and what can take the block into the latch. -/
def ownForm : Instr → Bool
  | .powerOnReset => true
  | .resetNAssert _ => true
  | .resetRelease _ _ _ => true
  | .bootWatchdog => true
  | .bootStepEnd _ _ => true
  | .railRetention => true
  | .housekeepingSlot _ _ => true
  | .housekeepingRoundEnd => true
  | .softReset _ => true
  | .errorReport _ _ _ => true
  | _ => false

theorem coreEvent_run {s : State} (h : s.running = true) (k : State → State) :
    coreEvent s k = .next { k s with aon := s.aon, pending := s.pending } := by simp [coreEvent, h]

theorem coreEvent_stop {s : State} (h : s.running = false) (k : State → State) : coreEvent s k = .next s := by simp [coreEvent, h]

theorem coreEvent_kept {s t : State} {k : State → State} (h : coreEvent s k = .next t) :
    t.aon = s.aon ∧ t.pending = s.pending := by
  unfold coreEvent at h
  split at h <;> cases h <;> exact ⟨rfl, rfl⟩

/-- A command with no form of its own is an event of the core. -/
theorem exec_core {c : Instr} (own : ownForm c = false) (s : State) : ∃ k, exec c s = coreEvent s k := by
  cases c
  case powerOnReset => simp [ownForm] at own
  case resetNAssert => simp [ownForm] at own
  case railRetention => simp [ownForm] at own
  case housekeepingSlot => simp [ownForm] at own
  case softReset => simp [ownForm] at own
  case bootWatchdog => simp [ownForm] at own
  case resetRelease => simp [ownForm] at own
  case errorReport => simp [ownForm] at own
  case bootStepEnd => simp [ownForm] at own
  case housekeepingRoundEnd => simp [ownForm] at own
  case railPowerGood k => exact ⟨_, show execRailPowerGood k s = _ by unfold execRailPowerGood; rfl⟩
  case railPgTimeout k => exact ⟨_, show execRailPgTimeout k s = _ by unfold execRailPgTimeout; rfl⟩
  case undervoltageTrip k => exact ⟨_, show execUndervoltageTrip k s = _ by unfold execUndervoltageTrip; rfl⟩
  case avsResponse ok => exact ⟨_, show execAvsResponse ok s = _ by unfold execAvsResponse; rfl⟩
  case avsTimeout => exact ⟨_, show execAvsTimeout s = _ by unfold execAvsTimeout; rfl⟩
  case hvPgFall g => exact ⟨_, show execHvPgFall g s = _ by unfold execHvPgFall; rfl⟩
  case hvPgTimeout g => exact ⟨_, show execHvPgTimeout g s = _ by unfold execHvPgTimeout; rfl⟩
  case aliveToggle => exact ⟨_, show execAliveToggle s = _ by unfold execAliveToggle; rfl⟩
  case aliveServiceTimeout => exact ⟨_, show execAliveServiceTimeout s = _ by unfold execAliveServiceTimeout; rfl⟩
  case encoderCount n edge t => exact ⟨_, show execEncoderCount n edge t s = _ by unfold execEncoderCount; rfl⟩
  case referenceMark n t => exact ⟨_, show execReferenceMark n t s = _ by unfold execReferenceMark; rfl⟩
  case standstill n => exact ⟨_, show execStandstill n s = _ by unfold execStandstill; rfl⟩
  case triggerInstant => exact ⟨_, show execTriggerInstant s = _ by unfold execTriggerInstant; rfl⟩
  case lineBoundary txLate => exact ⟨_, show execLineBoundary txLate s = _ by unfold execLineBoundary; rfl⟩
  case hbTimer => exact ⟨_, show execHbTimer s = _ by unfold execHbTimer; rfl⟩
  case xchkWindowEnd => exact ⟨_, show execXchkWindowEnd s = _ by unfold execXchkWindowEnd; rfl⟩
  case xchkLoss => exact ⟨_, show execXchkLoss s = _ by unfold execXchkLoss; rfl⟩
  case encPosSet n v => exact ⟨_, show execEncPosSet n v s = _ by unfold execEncPosSet; rfl⟩
  case ceilPwmPeriod => exact ⟨_, show execCeilPwmPeriod s = _ by unfold execCeilPwmPeriod; rfl⟩
  case overspeedRelease => exact ⟨_, show execOverspeedRelease s = _ by unfold execOverspeedRelease; rfl⟩
  case cmpEnable k v => exact ⟨_, show execCmpEnable k v s = _ by unfold execCmpEnable; rfl⟩
  case cmpEndWrite k v => exact ⟨_, show execCmpEndWrite k v s = _ by unfold execCmpEndWrite; rfl⟩
  case cmpEntryFire k => exact ⟨_, show execCmpEntryFire k s = _ by unfold execCmpEntryFire; rfl⟩
  case cmpPulseEnd k => exact ⟨_, show execCmpPulseEnd k s = _ by unfold execCmpPulseEnd; rfl⟩
  case laneRenderDone lane tau shadowOk => exact ⟨_, show execLaneRenderDone lane tau shadowOk s = _ by unfold execLaneRenderDone; rfl⟩
  case paceStepDown => exact ⟨_, show execPaceStepDown s = _ by unfold execPaceStepDown; rfl⟩
  case paceLow => exact ⟨_, show execPaceLow s = _ by unfold execPaceLow; rfl⟩
  case spareRotate => exact ⟨_, show execSpareRotate s = _ by unfold execSpareRotate; rfl⟩
  case katPeriodic => exact ⟨_, show execKatPeriodic s = _ by unfold execKatPeriodic; rfl⟩
  case katRun => exact ⟨_, show execKatRun s = _ by unfold execKatRun; rfl⟩
  case katDone phys pass => exact ⟨_, show execKatDone phys pass s = _ by unfold execKatDone; rfl⟩
  case stagingDone col band ok => exact ⟨_, show execStagingDone col band ok s = _ by unfold execStagingDone; rfl⟩
  case tileLineWritten dec => exact ⟨_, show execTileLineWritten dec s = _ by unfold execTileLineWritten; rfl⟩
  case decompressDone dec => exact ⟨_, show execDecompressDone dec s = _ by unfold execDecompressDone; rfl⟩
  case decompInvalid dec cause pos => exact ⟨_, show execDecompInvalid dec cause pos s = _ by unfold execDecompInvalid; rfl⟩
  case decompDisagree dec => exact ⟨_, show execDecompDisagree dec s = _ by unfold execDecompDisagree; rfl⟩
  case sramScrub store loc word => exact ⟨_, show execSramScrub store loc word s = _ by unfold execSramScrub; rfl⟩
  case ingRingDoorbell n tail => exact ⟨_, show execIngRingDoorbell n tail s = _ by unfold execIngRingDoorbell; rfl⟩
  case descriptorTake => exact ⟨_, show execDescriptorTake s = _ by unfold execDescriptorTake; rfl⟩
  case hostReadDone ok bytes => exact ⟨_, show execHostReadDone ok bytes s = _ by unfold execHostReadDone; rfl⟩
  case compressDone k mismatch => exact ⟨_, show execCompressDone k mismatch s = _ by unfold execCompressDone; rfl⟩
  case ringEnable n en => exact ⟨_, show execRingEnable n en s = _ by unfold execRingEnable; rfl⟩
  case ringFlush n => exact ⟨_, show execRingFlush n s = _ by unfold execRingFlush; rfl⟩
  case cqdoneWrite n v => exact ⟨_, show execCqdoneWrite n v s = _ by unfold execCqdoneWrite; rfl⟩
  case skewWrite p v => exact ⟨_, show execSkewWrite p v s = _ by unfold execSkewWrite; rfl⟩
  case skewArm p v => exact ⟨_, show execSkewArm p v s = _ by unfold execSkewArm; rfl⟩
  case commitGo v => exact ⟨_, show execCommitGo v s = _ by unfold execCommitGo; rfl⟩
  case ovlWrite e v => exact ⟨_, show execOvlWrite e v s = _ by unfold execOvlWrite; rfl⟩
  case statFrame p body => exact ⟨_, show execStatFrame p body s = _ by unfold execStatFrame; rfl⟩
  case tempLost p => exact ⟨_, show execTempLost p s = _ by unfold execTempLost; rfl⟩
  case normalDecision => exact ⟨_, show execNormalDecision s = _ by unfold execNormalDecision; rfl⟩
  case resFrame p body => exact ⟨_, show execResFrame p body s = _ by unfold execResFrame; rfl⟩
  case ackFrame p body => exact ⟨_, show execAckFrame p body s = _ by unfold execAckFrame; rfl⟩
  case memFrame p body => exact ⟨_, show execMemFrame p body s = _ by unfold execMemFrame; rfl⟩
  case waveAnswerTimeout => exact ⟨_, show execWaveAnswerTimeout s = _ by unfold execWaveAnswerTimeout; rfl⟩
  case waveCommitTimeout => exact ⟨_, show execWaveCommitTimeout s = _ by unfold execWaveCommitTimeout; rfl⟩
  case waveReloadRetry p => exact ⟨_, show execWaveReloadRetry p s = _ by unfold execWaveReloadRetry; rfl⟩
  case linkTrainStep p ok body => exact ⟨_, show execLinkTrainStep p ok body s = _ by unfold execLinkTrainStep; rfl⟩
  case trainRetry p => exact ⟨_, show execTrainRetry p s = _ by unfold execTrainRetry; rfl⟩
  case linkLockLost p => exact ⟨_, show execLinkLockLost p s = _ by unfold execLinkLockLost; rfl⟩
  case laneRestore p => exact ⟨_, show execLaneRestore p s = _ by unfold execLaneRestore; rfl⟩
  case hlkEnWrite p v => exact ⟨_, show execHlkEnWrite p v s = _ by unfold execHlkEnWrite; rfl⟩
  case hlkRetrain p => exact ⟨_, show execHlkRetrain p s = _ by unfold execHlkRetrain; rfl⟩
  case usageInc p => exact ⟨_, show execUsageInc p s = _ by unfold execUsageInc; rfl⟩
  case usageTimeout p => exact ⟨_, show execUsageTimeout p s = _ by unfold execUsageTimeout; rfl⟩
  case headFrame h input body => exact ⟨_, show execHeadFrame h input body s = _ by unfold execHeadFrame; rfl⟩
  case headMarker h input body => exact ⟨_, show execHeadMarker h input body s = _ by unfold execHeadMarker; rfl⟩
  case headDecision h => exact ⟨_, show execHeadDecision h s = _ by unfold execHeadDecision; rfl⟩
  case headLockTimeout h => exact ⟨_, show execHeadLockTimeout h s = _ by unfold execHeadLockTimeout; rfl⟩
  case frameStart n num => exact ⟨_, show execFrameStart n num s = _ by unfold execFrameStart; rfl⟩
  case imageLine n pixels flags => exact ⟨_, show execImageLine n pixels flags s = _ by unfold execImageLine; rfl⟩
  case frameEnd n => exact ⟨_, show execFrameEnd n s = _ by unfold execFrameEnd; rfl⟩
  case captureReq n v => exact ⟨_, show execCaptureReq n v s = _ by unfold execCaptureReq; rfl⟩
  case captureDone n => exact ⟨_, show execCaptureDone n s = _ by unfold execCaptureDone; rfl⟩
  case captureNoFrame n => exact ⟨_, show execCaptureNoFrame n s = _ by unfold execCaptureNoFrame; rfl⟩
  case hbBlock body => exact ⟨_, show execHbBlock body s = _ by unfold execHbBlock; rfl⟩
  case stateFrame body => exact ⟨_, show execStateFrame body s = _ by unfold execStateFrame; rfl⟩
  case logFrame body valid => exact ⟨_, show execLogFrame body valid s = _ by unfold execLogFrame; rfl⟩
  case logAck off nak => exact ⟨_, show execLogAck off nak s = _ by unfold execLogAck; rfl⟩
  case logResend => exact ⟨_, show execLogResend s = _ by unfold execLogResend; rfl⟩
  case ocrcFrame body => exact ⟨_, show execOcrcFrame body s = _ by unfold execOcrcFrame; rfl⟩
  case verdFrame body => exact ⟨_, show execVerdFrame body s = _ by unfold execVerdFrame; rfl⟩
  case faultBlock body => exact ⟨_, show execFaultBlock body s = _ by unfold execFaultBlock; rfl⟩
  case rsyncFrame body => exact ⟨_, show execRsyncFrame body s = _ by unfold execRsyncFrame; rfl⟩
  case identFrame body => exact ⟨_, show execIdentFrame body s = _ by unfold execIdentFrame; rfl⟩
  case lanesBlock mask => exact ⟨_, show execLanesBlock mask s = _ by unfold execLanesBlock; rfl⟩
  case pairLaneLost k => exact ⟨_, show execPairLaneLost k s = _ by unfold execPairLaneLost; rfl⟩
  case heartbeatLoss => exact ⟨_, show execHeartbeatLoss s = _ by unfold execHeartbeatLoss; rfl⟩
  case withholdTimeout line p => exact ⟨_, show execWithholdTimeout line p s = _ by unfold execWithholdTimeout; rfl⟩
  case joinPhaseEnd => exact ⟨_, show execJoinPhaseEnd s = _ by unfold execJoinPhaseEnd; rfl⟩
  case alignTimeout => exact ⟨_, show execAlignTimeout s = _ by unfold execAlignTimeout; rfl⟩
  case verifyTimeout => exact ⟨_, show execVerifyTimeout s = _ by unfold execVerifyTimeout; rfl⟩
  case hostReset => exact ⟨_, show execHostReset s = _ by unfold execHostReset; rfl⟩
  case cqHeadWrite v => exact ⟨_, show execCqHeadWrite v s = _ by unfold execCqHeadWrite; rfl⟩
  case irqGapEnd vec => exact ⟨_, show execIrqGapEnd vec s = _ by unfold execIrqGapEnd; rfl⟩
  case longProgress r => exact ⟨_, show execLongProgress r s = _ by unfold execLongProgress; rfl⟩
  case bilDatagram d => exact ⟨_, show execBilDatagram d s = _ by unfold execBilDatagram; rfl⟩
  case bilTimeout => exact ⟨_, show execBilTimeout s = _ by unfold execBilTimeout; rfl⟩
  case udpSessionTimeout => exact ⟨_, show execUdpSessionTimeout s = _ by unfold execUdpSessionTimeout; rfl⟩
  case identify r => exact ⟨_, show execIdentify r s = _ by unfold execIdentify withCmd; rfl⟩
  case udpOpen r => exact ⟨_, show execUdpOpen r s = _ by unfold execUdpOpen withCmd; rfl⟩
  case udpClose r => exact ⟨_, show execUdpClose r s = _ by unfold execUdpClose withCmd; rfl⟩
  case echo r => exact ⟨_, show execEcho r s = _ by unfold execEcho withCmd; rfl⟩
  case jobDefine r => exact ⟨_, show execJobDefine r s = _ by unfold execJobDefine withCmd; rfl⟩
  case jobStart r => exact ⟨_, show execJobStart r s = _ by unfold execJobStart withCmd; rfl⟩
  case jobStop r => exact ⟨_, show execJobStop r s = _ by unfold execJobStop withCmd; rfl⟩
  case jobAbort r => exact ⟨_, show execJobAbort r s = _ by unfold execJobAbort withCmd; rfl⟩
  case jobPurge r => exact ⟨_, show execJobPurge r s = _ by unfold execJobPurge withCmd; rfl⟩
  case geometrySet r => exact ⟨_, show execGeometrySet r s = _ by unfold execGeometrySet withCmd; rfl⟩
  case skewSet r => exact ⟨_, show execSkewSet r s = _ by unfold execSkewSet withCmd; rfl⟩
  case waveStage r => exact ⟨_, show execWaveStage r s = _ by unfold execWaveStage withCmd; rfl⟩
  case waveLoad r => exact ⟨_, show execWaveLoad r s = _ by unfold execWaveLoad withCmd; rfl⟩
  case calStart r => exact ⟨_, show execCalStart r s = _ by unfold execCalStart withCmd; rfl⟩
  case calSweepStep ok data => exact ⟨_, show execCalSweepStep ok data s = _ by unfold execCalSweepStep; rfl⟩
  case calCommit ok => exact ⟨_, show execCalCommit ok s = _ by unfold execCalCommit; rfl⟩
  case calAbort r => exact ⟨_, show execCalAbort r s = _ by unfold execCalAbort withCmd; rfl⟩
  case calStatus r => exact ⟨_, show execCalStatus r s = _ by unfold execCalStatus withCmd; rfl⟩
  case maintDefine r => exact ⟨_, show execMaintDefine r s = _ by unfold execMaintDefine withCmd; rfl⟩
  case maintStart r => exact ⟨_, show execMaintStart r s = _ by unfold execMaintStart withCmd; rfl⟩
  case maintStepEnd ok => exact ⟨_, show execMaintStepEnd ok s = _ by unfold execMaintStepEnd; rfl⟩
  case spitLine => exact ⟨_, show execSpitLine s = _ by unfold execSpitLine; rfl⟩
  case maintStop r => exact ⟨_, show execMaintStop r s = _ by unfold execMaintStop withCmd; rfl⟩
  case move r => exact ⟨_, show execMove r s = _ by unfold execMove withCmd; rfl⟩
  case moveGroup r => exact ⟨_, show execMoveGroup r s = _ by unfold execMoveGroup withCmd; rfl⟩
  case home r => exact ⟨_, show execHome r s = _ by unfold execHome withCmd; rfl⟩
  case axisStop r => exact ⟨_, show execAxisStop r s = _ by unfold execAxisStop withCmd; rfl⟩
  case capture r => exact ⟨_, show execCapture r s = _ by unfold execCapture withCmd; rfl⟩
  case statsRing r => exact ⟨_, show execStatsRing r s = _ by unfold execStatsRing withCmd; rfl⟩
  case grainWrite r => exact ⟨_, show execGrainWrite r s = _ by unfold execGrainWrite withCmd; rfl⟩
  case snapshot r => exact ⟨_, show execSnapshot r s = _ by unfold execSnapshot withCmd; rfl⟩
  case dropRead r => exact ⟨_, show execDropRead r s = _ by unfold execDropRead withCmd; rfl⟩
  case pairJoin r => exact ⟨_, show execPairJoin r s = _ by unfold execPairJoin withCmd; rfl⟩
  case pairSwitchover r => exact ⟨_, show execPairSwitchover r s = _ by unfold execPairSwitchover withCmd; rfl⟩
  case pairLeave r => exact ⟨_, show execPairLeave r s = _ by unfold execPairLeave withCmd; rfl⟩
  case ptpConfig r => exact ⟨_, show execPtpConfig r s = _ by unfold execPtpConfig withCmd; rfl⟩
  case regRead r => exact ⟨_, show execRegRead r s = _ by unfold execRegRead withCmd; rfl⟩
  case regWrite r => exact ⟨_, show execRegWrite r s = _ by unfold execRegWrite withCmd; rfl⟩
  case blockRead r => exact ⟨_, show execBlockRead r s = _ by unfold execBlockRead withCmd; rfl⟩
  case faultClear r => exact ⟨_, show execFaultClear r s = _ by unfold execFaultClear withCmd; rfl⟩
  case journalRead r => exact ⟨_, show execJournalRead r s = _ by unfold execJournalRead withCmd; rfl⟩
  case usageKey r => exact ⟨_, show execUsageKey r s = _ by unfold execUsageKey withCmd; rfl⟩
  case headMemRead r => exact ⟨_, show execHeadMemRead r s = _ by unfold execHeadMemRead withCmd; rfl⟩
  case hicDoorbell core v => exact ⟨_, show execHicDoorbell core v s = _ by unfold execHicDoorbell; rfl⟩
  case hicClaim core w v => exact ⟨_, show execHicClaim core w v s = _ by unfold execHicClaim; rfl⟩
  case hicEoi core v => exact ⟨_, show execHicEoi core v s = _ by unfold execHicEoi; rfl⟩
  case hicRouteWrite core src v => exact ⟨_, show execHicRouteWrite core src v s = _ by unfold execHicRouteWrite; rfl⟩
  case hicPendSet core w v => exact ⟨_, show execHicPendSet core w v s = _ by unfold execHicPendSet; rfl⟩
  case hicPendClr core w v => exact ⟨_, show execHicPendClr core w v s = _ by unfold execHicPendClr; rfl⟩
  case hicEnSet core w v => exact ⟨_, show execHicEnSet core w v s = _ by unfold execHicEnSet; rfl⟩
  case hicEnClr core w v => exact ⟨_, show execHicEnClr core w v s = _ by unfold execHicEnClr; rfl⟩
  case hicExtWrite core n v => exact ⟨_, show execHicExtWrite core n v s = _ by unfold execHicExtWrite; rfl⟩
  case extIrqEdge n level => exact ⟨_, show execExtIrqEdge n level s = _ by unfold execExtIrqEdge; rfl⟩
  case redirectTimeout src => exact ⟨_, show execRedirectTimeout src s = _ by unfold execRedirectTimeout; rfl⟩
  case hicTimer n => exact ⟨_, show execHicTimer n s = _ by unfold execHicTimer; rfl⟩
  case coreSleep c => exact ⟨_, show execCoreSleep c s = _ by unfold execCoreSleep; rfl⟩
  case accessFault core addr kind => exact ⟨_, show execAccessFault core addr kind s = _ by unfold execAccessFault; rfl⟩
  case alertFall c => exact ⟨_, show execAlertFall c s = _ by unfold execAlertFall; rfl⟩
  case alertRise c => exact ⟨_, show execAlertRise c s = _ by unfold execAlertRise; rfl⟩
  case refresh c => exact ⟨_, show execRefresh c s = _ by unfold execRefresh; rfl⟩
  case zqcs c rank => exact ⟨_, show execZqcs c rank s = _ by unfold execZqcs; rfl⟩
  case dramScrub c addr words => exact ⟨_, show execDramScrub c addr words s = _ by unfold execDramScrub; rfl⟩
  case relayout => exact ⟨_, show execRelayout s = _ by unfold execRelayout; rfl⟩
  case syncMessage port msg => exact ⟨_, show execSyncMessage port msg s = _ by unfold execSyncMessage; rfl⟩
  case announceMessage port msg => exact ⟨_, show execAnnounceMessage port msg s = _ by unfold execAnnounceMessage; rfl⟩
  case delayMessage port msg => exact ⟨_, show execDelayMessage port msg s = _ by unfold execDelayMessage; rfl⟩
  case announceTimeout port => exact ⟨_, show execAnnounceTimeout port s = _ by unfold execAnnounceTimeout; rfl⟩
  case tmbReacq => exact ⟨_, show execTmbReacq s = _ by unfold execTmbReacq; rfl⟩
  case tmbCfgWrite v => exact ⟨_, show execTmbCfgWrite v s = _ by unfold execTmbCfgWrite; rfl⟩
  case unitRestore src unit => exact ⟨_, show execUnitRestore src unit s = _ by unfold execUnitRestore; rfl⟩
  case fltClear mask => exact ⟨_, show execFltClear mask s = _ by unfold execFltClear; rfl⟩
  case cntSnapReq v => exact ⟨_, show execCntSnapReq v s = _ by unfold execCntSnapReq; rfl⟩
  case snapshotComplete => exact ⟨_, show execSnapshotComplete s = _ by unfold execSnapshotComplete; rfl⟩
  case drainReq => exact ⟨_, show execDrainReq s = _ by unfold execDrainReq; rfl⟩
  case drainDone => exact ⟨_, show execDrainDone s = _ by unfold execDrainDone; rfl⟩
  case profileTick => exact ⟨_, show execProfileTick s = _ by unfold execProfileTick; rfl⟩
  case moveStart ax => exact ⟨_, show execMoveStart ax s = _ by unfold execMoveStart; rfl⟩
  case stallAccept ax => exact ⟨_, show execStallAccept ax s = _ by unfold execStallAccept; rfl⟩
  case homeBackoff ax => exact ⟨_, show execHomeBackoff ax s = _ by unfold execHomeBackoff; rfl⟩
  case dfaultAccept ax => exact ⟨_, show execDfaultAccept ax s = _ by unfold execDfaultAccept; rfl⟩
  case ssiFrame k raw ok => exact ⟨_, show execSsiFrame k raw ok s = _ by unfold execSsiFrame; rfl⟩
  case drvEnWrite ax v => exact ⟨_, show execDrvEnWrite ax v s = _ by unfold execDrvEnWrite; rfl⟩
  case drvenFall ax => exact ⟨_, show execDrvenFall ax s = _ by unfold execDrvenFall; rfl⟩
  case rebase ax => exact ⟨_, show execRebase ax s = _ by unfold execRebase; rfl⟩
  case registerWrite w addr v => exact ⟨_, show execRegisterWrite w addr v s = _ by unfold execRegisterWrite; rfl⟩
  case mbxDoorbell src => exact ⟨_, show execMbxDoorbell src s = _ by unfold execMbxDoorbell; rfl⟩
  case pcieLinkUp => exact ⟨_, show execPcieLinkUp s = _ by unfold execPcieLinkUp; rfl⟩
  case perstNRelease => exact ⟨_, show execPerstNRelease s = _ by unfold execPerstNRelease; rfl⟩
  case pairLinkTrain k ok => exact ⟨_, show execPairLinkTrain k ok s = _ by unfold execPairLinkTrain; rfl⟩
  case pairLiveIChange level => exact ⟨_, show execPairLiveIChange level s = _ by unfold execPairLiveIChange; rfl⟩
  case memReadTimeout p => exact ⟨_, show execMemReadTimeout p s = _ by unfold execMemReadTimeout; rfl⟩
  case sweepLine => exact ⟨_, show execSweepLine s = _ by unfold execSweepLine; rfl⟩
  case dfaultInactive ax => exact ⟨_, show execDfaultInactive ax s = _ by unfold execDfaultInactive; rfl⟩
  case statNone h => exact ⟨_, show execStatNone h s = _ by unfold execStatNone; rfl⟩

end Sys2Proof.Machine
end

