-- ==== Sys2Proof/Laws/Modes.lean ====
section
/-! SUPPORT. What the changes of mode do: where SAFE and the thermal latch come from, and what the work on the way leaves
alone. -/

namespace Sys2Proof.Machine

/-- `t` keeps the mode, its cause, the always-on domain, the clocks, the boot and the fuses of `s`. -/
structure Steady (s t : State) : Prop where
  mode : t.mode = s.mode
  safeCause : t.safeCause = s.safeCause
  aon : t.aon = s.aon
  now : t.now = s.now
  time40 : t.time40 = s.time40
  boot : t.boot = s.boot
  fuse : t.fuse = s.fuse

namespace Steady

theorem refl (s : State) : Steady s s := ⟨rfl, rfl, rfl, rfl, rfl, rfl, rfl⟩

theorem trans {s t u : State} (h : Steady s t) (g : Steady t u) : Steady s u :=
  ⟨g.mode.trans h.mode, g.safeCause.trans h.safeCause, g.aon.trans h.aon, g.now.trans h.now, g.time40.trans h.time40,
    g.boot.trans h.boot, g.fuse.trans h.fuse⟩

theorem of_notice {s t : State} (h : Notice s t) : Steady s t := by
  refine ⟨?_, ?_, ?_, ?_, ?_, ?_, ?_⟩ <;> rw [h.rest]

theorem of_logged {s t : State} (h : Logged s t) : Steady s t := by
  refine ⟨?_, ?_, ?_, ?_, ?_, ?_, ?_⟩ <;> rw [h.rest]

theorem put (s : State) (f : Fld) (v : Nat) : Steady s (s.put f v) := ⟨rfl, rfl, rfl, rfl, rfl, rfl, rfl⟩

theorem emit (s : State) (e : Emit) : Steady s (s.emit e) := ⟨rfl, rfl, rfl, rfl, rfl, rfl, rfl⟩

theorem ite {s t u : State} {c : Prop} [Decidable c] (h : Steady s t) (g : Steady s u) : Steady s (if c then t else u) := by
  split <;> assumption

/-- A fold of steps that each keep is one that keeps. -/
theorem fold {α : Type} {l : List α} {f : State → α → State} (h : ∀ s x, Steady s (f s x)) (s : State) : Steady s (l.foldl f s) := by
  induction l generalizing s with
  | nil => exact refl s
  | cons x t ih => exact (h s x).trans (ih _)

end Steady

theorem State.forEach_steady {l : List Nat} {f : State → Nat → State} (h : ∀ s x, Steady s (f s x)) (s : State) :
    Steady s (s.forEach l f) := Steady.fold h s

theorem State.raise_steady (s : State) (f : Fld) (src : Nat) : Steady s (s.raise f src) := by
  rw [State.raise_rest]; exact ⟨rfl, rfl, rfl, rfl, rfl, rfl, rfl⟩

theorem State.finalEntry_steady (s : State) (c : Cmd) (st d fl cl : Nat) (r : List Nat) : Steady s (s.finalEntry c st d fl cl r) := by
  have h1 := s.closed_rest c r
  have hform : s.finalEntry c st d fl cl r =
      (let u := s.closed c r
       let e := u.entry c.tag c.op st c.ref.slot fl (r.take 240).length cl 0 d (field (r.take 240) 0 8)
       if c.discard then
         let s := u.bump R.MBX_LOSTCPL_COUNT
         if c.ref.transport = .bar then { s with mbx := { s.mbx with resetPending := s.mbx.resetPending.map (· + 1) } } else s
       else match c.ref.transport with
         | .bar =>
           let s := u.writeEntry e
           if bit c.flags 0 then s.sendIrq c.vec else s
         | .udp =>
           let d := datagram (u.get R.MBX_UDP_SESS_SESSION) 2 c.seq (e ++ r.take 240)
           { (u.emit (.udp 2 d)) with mbx := { u.mbx with
               udpLast := (c.ref.slot, c.seq, some d) :: u.mbx.udpLast.filter (fun x => x.1 != c.ref.slot) } }) := rfl
  rw [hform]
  have hu : Steady s (s.closed c r) := by rw [h1]; exact ⟨rfl, rfl, rfl, rfl, rfl, rfl, rfl⟩
  refine hu.trans ?_
  generalize s.closed c r = u
  simp only
  split
  · split <;> exact ⟨rfl, rfl, rfl, rfl, rfl, rfl, rfl⟩
  · split
    · have he := State.entry_length u c.tag c.op st c.ref.slot fl (r.take 240).length cl 0 d (field (r.take 240) 0 8)
      exact (Steady.of_notice (u.writeEntry_notice _ he)).trans (Steady.ite (Steady.of_notice (State.sendIrq_notice _ _)) (Steady.refl _))
    · exact ⟨rfl, rfl, rfl, rfl, rfl, rfl, rfl⟩

theorem State.finish_steady (s : State) (c : Cmd) (st d : Nat) (r : List Nat) : Steady s (s.finish c st d r) := by
  obtain ⟨-, h, -⟩ := s.recorded_spec c st d r
  rw [State.finish_eq]
  refine Steady.trans ?_ (State.finalEntry_steady _ _ _ _ _ _ _)
  rw [h]; exact ⟨rfl, rfl, rfl, rfl, rfl, rfl, rfl⟩

/-! ## Work on the way into SAFE -/

theorem State.shaveFrom_steady (s : State) (p n : Nat) : Steady s (s.shaveFrom p n) := ⟨rfl, rfl, rfl, rfl, rfl, rfl, rfl⟩
theorem State.shaveCommitted_steady (s : State) (p : Nat) : Steady s (s.shaveCommitted p) := ⟨rfl, rfl, rfl, rfl, rfl, rfl, rfl⟩

theorem State.discardAll_steady (s : State) : Steady s s.discardAll := by
  unfold State.discardAll
  have h : Steady s (s.forEach (List.range 24) (fun s p => (s.shaveAll p).shaveCommitted p)) :=
    State.forEach_steady (fun s p => (s.shaveFrom_steady p 0).trans (State.shaveCommitted_steady _ p)) s
  generalize s.forEach (List.range 24) (fun s p => (s.shaveAll p).shaveCommitted p) = u at h
  exact h.trans ⟨rfl, rfl, rfl, rfl, rfl, rfl, rfl⟩

theorem State.dropSkew_steady (s : State) : Steady s s.dropSkew := by
  unfold State.dropSkew
  have h : Steady s (s.forEach (List.range 24) (fun s p => s.put (R.BLT_SKEW_PEND_ARM p) 0)) :=
    State.forEach_steady (fun s p => Steady.put s _ _) s
  generalize s.forEach (List.range 24) (fun s p => s.put (R.BLT_SKEW_PEND_ARM p) 0) = u at h
  exact h.trans ⟨rfl, rfl, rfl, rfl, rfl, rfl, rfl⟩

theorem State.axRun_steady (s : State) (n : Nat) (f : Axis → Axis) : Steady s (s.axRun n f) := ⟨rfl, rfl, rfl, rfl, rfl, rfl, rfl⟩

theorem State.axEvent_steady (s : State) (n k : Nat) : Steady s (s.axEvent n k) := Steady.of_notice (s.postEvent_notice _ _ _)

theorem State.axLost_steady (s : State) (n : Nat) : Steady s (s.axLost n) := by
  unfold State.axLost
  exact Steady.ite (Steady.refl s) (((Steady.put s _ _).trans (Steady.put _ _ _)).trans (State.axEvent_steady _ _ _))

theorem State.axRest_steady (s : State) (n : Nat) : Steady s (s.axRest n) := s.axRun_steady n _

/-- The axes in the thermal latch (R47, R410). -/
theorem State.motThermal_steady (s : State) : Steady s s.motThermal := by
  unfold State.motThermal
  refine State.forEach_steady (fun s n => ?_) s
  refine ((s.axRest_steady n).trans (Steady.put _ _ _)).trans (Steady.ite (Steady.refl _) (State.axLost_steady _ _))

/-- Moving axes brought to rest (R46, R407). -/
theorem State.axHalt_steady (s : State) (n : Nat) (b : Bool) : Steady s (s.axHalt n b) := by
  unfold State.axHalt State.axStop
  simp only
  split
  · exact Steady.refl s
  · exact (s.axRest_steady _).trans (State.axEvent_steady _ _ _)
  · exact s.axRun_steady _ _

theorem State.motSafeStop_steady (s : State) : Steady s s.motSafeStop := by
  unfold State.motSafeStop
  refine State.forEach_steady (fun s n => ?_) s
  split
  · exact Steady.refl s
  · exact Steady.refl s
  · exact s.axHalt_steady n true

theorem State.journal_steady (s : State) (a b c d e : Nat) : Steady s (s.journal a b c d e) := by
  unfold State.journal
  simp only
  split
  · exact Steady.refl s
  · split <;> exact ⟨rfl, rfl, rfl, rfl, rfl, rfl, rfl⟩

theorem State.failRecord_steady (s : State) (a b c d : Nat) : Steady s (s.failRecord a b c d) := ⟨rfl, rfl, rfl, rfl, rfl, rfl, rfl⟩

theorem State.abortLong_steady (s : State) : Steady s s.abortLong := by
  unfold State.abortLong
  simp only
  have h : Steady s ((s.mbx.cmds.filter (fun (c : Cmd) => c.running)).foldl (fun s c => s.finish c stABORTED) s) :=
    Steady.fold (fun s c => s.finish_steady c stABORTED 0 []) s
  generalize (s.mbx.cmds.filter (fun (c : Cmd) => c.running)).foldl (fun s c => s.finish c stABORTED) s = u at h
  split
  · exact (h.trans (u.journal_steady _ _ _ _ _)).trans ⟨rfl, rfl, rfl, rfl, rfl, rfl, rfl⟩
  · exact h.trans ⟨rfl, rfl, rfl, rfl, rfl, rfl, rfl⟩

/-- The head-supply enables follow the mode (R386). -/
theorem State.hvApply_steady (s : State) : Steady s s.hvApply := by
  unfold State.hvApply
  simp only
  split
  · exact Steady.refl s
  · have h : Steady s (s.forEach (List.range 4) (fun u g => if bit s.hvTarget g == bit u.chuck.hvOut g then u else u.emit (.pin .hvEn g (b2n (bit s.hvTarget g))))) :=
      State.forEach_steady (fun u g => Steady.ite (Steady.refl u) (Steady.emit u _)) s
    generalize s.forEach (List.range 4) (fun u g => if bit s.hvTarget g == bit u.chuck.hvOut g then u else u.emit (.pin .hvEn g (b2n (bit s.hvTarget g)))) = u at h
    exact h.trans ⟨rfl, rfl, rfl, rfl, rfl, rfl, rfl⟩

theorem State.modeEvent_steady (s : State) (c : Nat) : Steady s (s.modeEvent c) := Steady.of_notice (s.postEvent_notice _ _ _)

/-- A completed change to a mode that is not IDLE: the mode, what it was before, its instant, and the cause of SAFE (R31). -/
theorem State.setMode_spec (s : State) {m : Mode} (hm : m ≠ .idle) (c : Nat) :
    (s.setMode m c).mode = m ∧ (s.setMode m c).aon = s.aon ∧ (s.setMode m c).boot = s.boot
      ∧ (s.setMode m c).safeCause = (if m = Mode.safe then s.safeCause else 0xFF) := by
  have h : Steady { s with
      mode := m, prev := s.mode, trans := false, modeT := s.time40, safeCause := if m = Mode.safe then s.safeCause else 0xFF }
      (s.setMode m c) := by
    unfold State.setMode State.modeChange
    simp only [hm, if_false]
    exact ((Steady.of_notice (State.ring_notice _ _)).trans (State.hvApply_steady _)).trans (State.modeEvent_steady _ _)
  exact ⟨h.mode, h.aon, h.boot, h.safeCause⟩

theorem State.safeDiscards_steady (s : State) : Steady s s.safeDiscards := by
  unfold State.safeDiscards
  exact ((State.discardAll_steady s).trans (State.dropSkew_steady _)).trans
    (State.forEach_steady (fun s p => ((Steady.put s _ _).trans (Steady.put _ _ _)).trans (Steady.emit _ _)) _)

theorem State.safeLoads_steady (s : State) (src : Nat) (b : Bool) : Steady s (s.safeLoads src b) := by
  have tail : ∀ u : State, Steady u
      (({ u.abortLong with chuck := { u.abortLong.chuck with aliveOn := false, aliveLevel := false, hvReq := none } } : State).emit (.pin .alive 0 0)) := by
    intro u
    have h := State.abortLong_steady u
    generalize u.abortLong = v at h ⊢
    exact h.trans ⟨rfl, rfl, rfl, rfl, rfl, rfl, rfl⟩
  unfold State.safeLoads
  cases b
  · simp only [Bool.false_eq_true, if_false]
    exact (State.motSafeStop_steady s).trans (tail _)
  · have h : Steady s { (s.pairFault (if s.aon.thermLatch = true then 2 else 1) src).releaseGated with primary := false } :=
      ⟨rfl, rfl, rfl, rfl, rfl, rfl, rfl⟩
    simp only [if_true]
    exact h.trans (tail _)

theorem State.safeRecords_steady (s : State) (src unit cause : Nat) : Steady s (s.safeRecords src unit cause) := by
  unfold State.safeRecords
  exact (Steady.ite (State.failRecord_steady _ _ _ _ _) (Steady.refl s)).trans (State.journal_steady _ _ _ _ _ _)

/-- Entry into SAFE leaves the block in SAFE with its cause, whatever was in progress (R46). -/
theorem State.safeEntry_spec (s : State) (src unit cause mc : Nat) :
    (s.safeEntry src unit cause mc).mode = .safe ∧ (s.safeEntry src unit cause mc).safeCause = src
      ∧ (s.safeEntry src unit cause mc).aon = s.aon := by
  unfold State.safeEntry
  simp only
  generalize (decide (s.get R.TSL_STAT_LANES ≠ 0) && s.flag R.TSL_CFG_PAIR_EN) = paired
  have h := (State.safeDiscards_steady ({ s with safeCause := src } : State)).trans (State.safeLoads_steady _ src paired)
  obtain ⟨m1, m2, m3, m4⟩ := State.setMode_spec (({ s with safeCause := src } : State).safeDiscards.safeLoads src paired) (m := .safe) (by decide) mc
  have h6 := State.safeRecords_steady ((({ s with safeCause := src } : State).safeDiscards.safeLoads src paired).setMode .safe mc) src unit cause
  refine ⟨h6.mode.trans m1, ?_, ?_⟩
  · rw [h6.safeCause, m4]; exact h.safeCause
  · rw [h6.aon, m2]; exact h.aon

/-- The die shutdown leaves the block in SAFE with the latch set and cause THERM_LATCH (R47). -/
theorem State.thermalShutdown_spec (s : State) :
    s.thermalShutdown.mode = .safe ∧ s.thermalShutdown.safeCause = 51 ∧ s.thermalShutdown.aon.thermLatch = true := by
  unfold State.thermalShutdown
  simp only
  generalize hu : (({ s with aon := { s.aon with thermLatch := true, retention := 1 } } : State).put R.FLT_STATUS_STATUS _) = u
  have ha : u.aon.thermLatch = true := by rw [← hu]; rfl
  by_cases h : u.mode = .safe
  · rw [if_pos h]
    have hm := State.motThermal_steady (({ u with safeCause := 51 } : State).failRecord 2 51 0 1)
    exact ⟨hm.mode.trans h, hm.safeCause, by rw [hm.aon]; exact ha⟩
  · rw [if_neg h]
    obtain ⟨m1, m2, m3⟩ := State.safeEntry_spec u 51 0 1 mcTHERMAL
    have hm := State.motThermal_steady (u.safeEntry 51 0 1 mcTHERMAL)
    exact ⟨hm.mode.trans m1, hm.safeCause.trans m2, by rw [hm.aon, m3]; exact ha⟩

end Sys2Proof.Machine
end

