-- ==== Sys2Proof/WellFormed.lean ====
section
/-! DEFINITION. Well-formed commands: every operand lies in the range its rule gives it. -/

namespace Sys2Proof

/-- A number below a bound. -/
def below (n v : Nat) : Bool := decide (v < n)

/-- A 32-bit word (R8). -/
def word32 (v : Nat) : Bool := below (2 ^ 32) v

/-- A 40-bit quantity: line, position, time (R11). -/
def line40 (v : Nat) : Bool := below (2 ^ 40) v

/-- Bytes. -/
def octets (l : List Nat) : Bool := l.all (below 256)

/-- A sequenced rail, 1 to 7 (R382). -/
def rail (k : Nat) : Bool := decide (1 ≤ k) && below 8 k

/-- One of the 64 slots of a transport (R250, R265). -/
def SlotRef.ok (r : SlotRef) : Bool := below 64 r.slot

/-- A datagram arrives on one of the two Ethernet ports from an IPv4 host (R264). -/
def Datagram.ok (d : Datagram) : Bool := word32 d.host && below 2 d.port && octets d.bytes

/-- A doorbell names a BAR0 slot or brings a datagram. -/
def DoorbellSrc.ok (d : DoorbellSrc) : Bool := match d with | .bar slot => below 64 slot | .udp d => d.ok

/-- The host, or one of the six cores. -/
def Writer.ok (w : Writer) : Bool := match w with | .host => true | .core c => below 6 c

/-- versionPTP and domainNumber as an octet holds them. -/
def PtpHead.ok (h : PtpHead) : Bool := below 16 h.version && below 256 h.domain

/-- Stamps of a Sync: 48 bits of seconds, nanoseconds within a second (R350). -/
def PtpSync.ok (m : PtpSync) : Bool := m.head.ok && below (2 ^ 48) m.seconds && below 1000000000 m.ns

/-- The fields of an Announce as their octets hold them, identities of 8 and 10 octets (R351). -/
def PtpAnnounce.ok (m : PtpAnnounce) : Bool :=
  m.head.ok && below 256 m.priority1 && below 256 m.clockClass && below 256 m.accuracy && below (2 ^ 16) m.variance && below 256 m.priority2
    && (m.gmId.length == 8) && octets m.gmId && below (2 ^ 16) m.stepsRemoved && (m.sender.length == 10) && octets m.sender
    && below (2 ^ 16) m.utcOffset

/-- A delay exchange. -/
def PtpDelay.ok (m : PtpDelay) : Bool := m.head.ok

/-- Every operand of the command lies in its range. -/
def Instr.wf (i : Instr) : Bool :=
  match i with
  | .powerOnReset => true
  | .resetNAssert _ => true
  | .resetRelease s0 s1 s2 => below 16 s0 && below 16 s1 && below 16 s2
  | .bootWatchdog => true
  | .bootStepEnd _ mask => below 16 mask
  | .railPowerGood k => rail k
  | .railPgTimeout k => rail k
  | .undervoltageTrip k => rail k
  | .railRetention => true
  | .housekeepingSlot value _ => below (2 ^ 16) value
  | .housekeepingRoundEnd => true
  | .avsResponse _ => true
  | .avsTimeout => true
  | .hvPgFall g => below 4 g
  | .hvPgTimeout g => below 4 g
  | .aliveToggle => true
  | .aliveServiceTimeout => true
  | .encoderCount n _ _ => below 2 n
  | .referenceMark n _ => below 2 n
  | .standstill n => below 2 n
  | .triggerInstant => true
  | .lineBoundary txLate => below (2 ^ 24) txLate
  | .hbTimer => true
  | .xchkWindowEnd => true
  | .xchkLoss => true
  | .encPosSet n v => below 2 n && line40 v
  | .ceilPwmPeriod => true
  | .overspeedRelease => true
  | .cmpEnable k v => below 8 k && word32 v
  | .cmpEndWrite k v => below 8 k && word32 v
  | .cmpEntryFire k => below 8 k
  | .cmpPulseEnd k => below 8 k
  | .laneRenderDone lane _ _ => below 34 lane
  | .paceStepDown => true
  | .paceLow => true
  | .spareRotate => true
  | .katPeriodic => true
  | .katRun => true
  | .katDone phys _ => below 34 phys
  | .stagingDone col band _ => below 192 col && below (2 ^ 32) band
  | .tileLineWritten dec => below 32 dec
  | .decompressDone dec => below 32 dec
  | .decompInvalid dec cause pos => below 32 dec && below 16 cause && word32 pos
  | .decompDisagree dec => below 32 dec
  | .sramScrub store loc word => below 8 store && word32 loc && below (2 ^ 144) word
  | .ingRingDoorbell n tail => below 4 n && below (2 ^ 16) tail
  | .descriptorTake => true
  | .hostReadDone _ bytes => octets bytes
  | .compressDone k _ => below 4 k
  | .ringEnable n _ => below 4 n
  | .ringFlush n => below 4 n
  | .cqdoneWrite n v => below 4 n && word32 v
  | .skewWrite p v => below 24 p && word32 v
  | .skewArm p v => below 24 p && word32 v
  | .commitGo v => word32 v
  | .ovlWrite e v => below 4096 e && word32 v
  | .statFrame p body => below 24 p && octets body
  | .tempLost p => below 24 p
  | .normalDecision => true
  | .resFrame p body => below 24 p && octets body
  | .ackFrame p body => below 24 p && octets body
  | .memFrame p body => below 24 p && octets body
  | .waveAnswerTimeout => true
  | .waveCommitTimeout => true
  | .waveReloadRetry p => below 24 p
  | .linkTrainStep p _ body => below 24 p && octets body
  | .trainRetry p => below 24 p
  | .linkLockLost p => below 24 p
  | .laneRestore p => below 24 p
  | .hlkEnWrite p v => below 24 p && word32 v
  | .hlkRetrain p => below 24 p
  | .usageInc p => below 24 p
  | .usageTimeout p => below 24 p
  | .headFrame h input body => below 24 h && below 2 input && octets body
  | .headMarker h input body => below 24 h && below 2 input && octets body
  | .headDecision h => below 24 h
  | .headLockTimeout h => below 24 h
  | .frameStart n num => below 4 n && below (2 ^ 16) num
  | .imageLine n pixels flags => below 4 n && octets pixels && below 16 flags
  | .frameEnd n => below 4 n
  | .captureReq n v => below 4 n && word32 v
  | .captureDone n => below 4 n
  | .captureNoFrame n => below 4 n
  | .hbBlock body => octets body
  | .stateFrame body => octets body
  | .logFrame body _ => octets body
  | .logAck off _ => word32 off
  | .logResend => true
  | .ocrcFrame body => octets body
  | .verdFrame body => octets body
  | .faultBlock body => octets body
  | .rsyncFrame body => octets body
  | .identFrame body => octets body
  | .lanesBlock mask => below 16 mask
  | .pairLaneLost k => below 4 k
  | .heartbeatLoss => true
  | .withholdTimeout line p => line40 line && below 24 p
  | .joinPhaseEnd => true
  | .alignTimeout => true
  | .verifyTimeout => true
  | .hostReset => true
  | .cqHeadWrite v => word32 v
  | .irqGapEnd vec => below 64 vec
  | .longProgress r => r.ok
  | .bilDatagram d => d.ok
  | .bilTimeout => true
  | .udpSessionTimeout => true
  | .identify r => r.ok
  | .udpOpen r => r.ok
  | .udpClose r => r.ok
  | .echo r => r.ok
  | .jobDefine r => r.ok
  | .jobStart r => r.ok
  | .jobStop r => r.ok
  | .jobAbort r => r.ok
  | .jobPurge r => r.ok
  | .geometrySet r => r.ok
  | .skewSet r => r.ok
  | .waveStage r => r.ok
  | .waveLoad r => r.ok
  | .calStart r => r.ok
  | .calSweepStep _ data => data.all word32
  | .calCommit _ => true
  | .calAbort r => r.ok
  | .calStatus r => r.ok
  | .maintDefine r => r.ok
  | .maintStart r => r.ok
  | .maintStepEnd _ => true
  | .spitLine => true
  | .maintStop r => r.ok
  | .move r => r.ok
  | .moveGroup r => r.ok
  | .home r => r.ok
  | .axisStop r => r.ok
  | .capture r => r.ok
  | .statsRing r => r.ok
  | .grainWrite r => r.ok
  | .snapshot r => r.ok
  | .dropRead r => r.ok
  | .pairJoin r => r.ok
  | .pairSwitchover r => r.ok
  | .pairLeave r => r.ok
  | .ptpConfig r => r.ok
  | .regRead r => r.ok
  | .regWrite r => r.ok
  | .blockRead r => r.ok
  | .faultClear r => r.ok
  | .softReset r => r.ok
  | .journalRead r => r.ok
  | .usageKey r => r.ok
  | .headMemRead r => r.ok
  | .hicDoorbell core v => below 6 core && word32 v
  | .hicClaim core w v => below 6 core && below 12 w && word32 v
  | .hicEoi core v => below 6 core && word32 v
  | .hicRouteWrite core src v => below 6 core && below 384 src && word32 v
  | .hicPendSet core w v => below 6 core && below 12 w && word32 v
  | .hicPendClr core w v => below 6 core && below 12 w && word32 v
  | .hicEnSet core w v => below 6 core && below 12 w && word32 v
  | .hicEnClr core w v => below 6 core && below 12 w && word32 v
  | .hicExtWrite core n v => below 6 core && below 16 n && word32 v
  | .extIrqEdge n _ => below 16 n
  | .redirectTimeout src => below 384 src
  | .hicTimer n => below 16 n
  | .coreSleep c => below 6 c
  | .accessFault core addr _ => below 6 core && word32 addr
  | .alertFall c => below 4 c
  | .alertRise c => below 4 c
  | .refresh c => below 4 c
  | .zqcs c rank => below 4 c && below 4 rank
  | .dramScrub c _ words => below 4 c && words.all (below (2 ^ 144))
  | .relayout => true
  | .syncMessage port msg => below 2 port && msg.ok
  | .announceMessage port msg => below 2 port && msg.ok
  | .delayMessage port msg => below 2 port && msg.ok
  | .announceTimeout port => below 2 port
  | .tmbReacq => true
  | .tmbCfgWrite v => word32 v
  | .errorReport src unit cause => below 57 src && below 256 unit && below 256 cause
  | .unitRestore src unit => below 64 src && below 256 unit
  | .fltClear mask => below (2 ^ 64) mask
  | .cntSnapReq v => word32 v
  | .snapshotComplete => true
  | .drainReq => true
  | .drainDone => true
  | .profileTick => true
  | .moveStart ax => below 8 ax
  | .stallAccept ax => below 8 ax
  | .homeBackoff ax => below 8 ax
  | .dfaultAccept ax => below 8 ax
  | .ssiFrame k raw _ => below 4 k && word32 raw
  | .drvEnWrite ax v => below 8 ax && below 2 v
  | .drvenFall ax => below 8 ax
  | .rebase ax => below 8 ax
  | .registerWrite w addr v => w.ok && below (2 ^ 36) addr && word32 v
  | .mbxDoorbell src => src.ok
  | .pcieLinkUp => true
  | .perstNRelease => true
  | .pairLinkTrain k _ => below 5 k
  | .pairLiveIChange _ => true
  | .memReadTimeout p => below 24 p
  | .sweepLine => true
  | .dfaultInactive ax => below 8 ax
  | .statNone h => below 24 h

end Sys2Proof
end

