-- ==== Sys2Proof/Tests/Slice0.lean ====
section
/-! SUPPORT. Tests: the spec's worked examples, well-formedness, and for each statement a state and operands that meet the hypotheses of
each of its clauses. -/

namespace Sys2Proof.Tests

open Sys2Proof.Machine

/-! ## States to start from -/

/-- A running block in a mode, with its cores up. -/
def up (m : Mode) : State := { State.reset with mode := m, boot := { State.reset.boot with coresUp := true } }

/-- Registers written. -/
def sets (s : State) (l : List (Fld × Nat)) : State := l.foldl (fun (s : State) (e : Fld × Nat) => s.put e.1 e.2) s

/-- The block in the thermal latch. -/
def latched : State := { up .safe with aon := { State.reset.aon with thermLatch := true, retention := 1 } }

/-- An accepted command in slot 0 with its payload. -/
def cmd (op : Nat) : Cmd := ⟨⟨.bar, 0⟩, 7, op, 0, 0, 1, 0, false, 0, 0, false, []⟩
def has (s : State) (op : Nat) (p : List Nat) : State :=
  { s.putBytes 0x40100000 (toBytes 2 op ++ [7, 0] ++ toBytes 2 p.length ++ List.replicate 10 0 ++ p) with mbx := { s.mbx with cmds := [cmd op] } }

/-- The same command in virtual slot 0 of UDP. -/
def cmdU (op : Nat) : Cmd := { cmd op with ref := ⟨.udp, 0⟩, atTake := [1, 0, 0, 10, 1] }
def hasU (s : State) (op : Nat) (p : List Nat) : State :=
  { s.putBytes 0x100000000 (toBytes 2 op ++ [7, 0] ++ toBytes 2 p.length ++ List.replicate 10 0 ++ p) with mbx := { s.mbx with cmds := [cmdU op] } }

/-- The hypotheses of a command's turn, as a test. -/
def turns (s : State) (c : Cmd) (op : Nat) : Bool :=
  s.running && decide (c.ref.slot < 64) && decide (c.op = op)
    && decide (s.mbx.cmds.find? (fun d => d.ref == c.ref && d.op == op && !d.running) = some c) && s.mayRun c && s.boot.coresUp
def waits (s : State) (c : Cmd) (op : Nat) : Bool := turns s c op && decide (s.admission op (s.payloadOf c) = 0)

theorem turn_of {s : State} {c : Cmd} {op : Nat} (h : turns s c op = true) : Turn s c op := by
  simp only [turns, Bool.and_eq_true, decide_eq_true_eq] at h
  obtain ⟨⟨⟨⟨⟨h1, h2⟩, h3⟩, h4⟩, h5⟩, h6⟩ := h
  exact ⟨h1, h2, h3, h4, h5, h6⟩

theorem waiting_of {s : State} {c : Cmd} {op : Nat} (h : waits s c op = true) : Waiting s c op := by
  simp only [waits, Bool.and_eq_true, decide_eq_true_eq] at h
  exact ⟨turn_of h.1, h.2⟩

/-! ## The spec's worked examples -/

set_option maxRecDepth 4000 in
/-- R72: CRC-32C over the nine ASCII bytes 123456789. -/
theorem test_crc32c : crc32c [0x31, 0x32, 0x33, 0x34, 0x35, 0x36, 0x37, 0x38, 0x39] = 0xE3069283 := by decide

/-- R29: all data symbols 0 except symbol 5 = 3 gives the check symbols A, B, F, 6. -/
theorem test_ecc_example : eccEncode (3 * 16 ^ 5) / 2 ^ 128 = 0xA + 0xB * 16 + 0xF * 256 + 0x6 * 4096 := by decide

/-- R29: a fault in symbol 5 is found at symbol 5 and corrected. -/
theorem test_ecc_single : eccJudge (Nat.xor (eccEncode (3 * 16 ^ 5)) (7 * 16 ^ 5)) = .fixed 5 7 := by decide

/-- R29: two wrong symbols are reported uncorrectable. -/
theorem test_ecc_double : eccJudge (Nat.xor (eccEncode (3 * 16 ^ 5)) (7 * 16 ^ 5 + 2 * 16 ^ 9)) = .uncorrectable := by decide

/-! ## Well-formed commands -/

theorem test_wf_strap : (Instr.resetRelease 15 0 7).wf = true ∧ (Instr.resetRelease 16 0 7).wf = false := by decide
theorem test_wf_rail : (Instr.railPowerGood 7).wf = true ∧ (Instr.railPowerGood 0).wf = false ∧ (Instr.railPgTimeout 8).wf = false := by decide
theorem test_wf_slot : (Instr.identify ⟨.bar, 63⟩).wf = true ∧ (Instr.identify ⟨.bar, 64⟩).wf = false := by decide
theorem test_wf_word : (Instr.cmpEnable 7 0xFFFFFFFF).wf = true ∧ (Instr.cmpEnable 7 0x100000000).wf = false ∧ (Instr.cmpEnable 8 0).wf = false := by decide
theorem test_wf_line : (Instr.encPosSet 1 (2 ^ 40 - 1)).wf = true ∧ (Instr.encPosSet 1 (2 ^ 40)).wf = false ∧ (Instr.encPosSet 2 0).wf = false := by decide
theorem test_wf_octets : (Instr.hostReadDone true [0, 255]).wf = true ∧ (Instr.hostReadDone true [256]).wf = false := by decide
theorem test_wf_datagram : (Instr.bilDatagram ⟨0, 1, []⟩).wf = true ∧ (Instr.bilDatagram ⟨0, 2, []⟩).wf = false
    ∧ (Instr.bilDatagram ⟨2 ^ 32, 0, []⟩).wf = false ∧ (Instr.mbxDoorbell (.bar 64)).wf = false := by decide
theorem test_wf_writer : (Instr.registerWrite (.core 5) 0 0).wf = true ∧ (Instr.registerWrite (.core 6) 0 0).wf = false := by decide

def goodSync : PtpSync := ⟨⟨2, 0, 0⟩, 0, 0, 0, 0⟩
def goodAnnounce : PtpAnnounce := ⟨⟨2, 0, 0⟩, 128, 6, 0x20, 100, 128, List.replicate 8 1, 0, List.replicate 10 1, 37, true⟩
def goodDelay : PtpDelay := ⟨⟨2, 0, 0⟩, 0, 0, 0, 0, 0⟩

theorem test_wf_accepts1 : ([.powerOnReset, .resetNAssert 0, .resetRelease 0 0 0, .bootWatchdog,
    .bootStepEnd true 0, .railPowerGood 1, .railPgTimeout 1, .undervoltageTrip 1,
    .railRetention, .housekeepingSlot 0 true, .housekeepingRoundEnd, .avsResponse true,
    .avsTimeout, .hvPgFall 0, .hvPgTimeout 0, .aliveToggle,
    .aliveServiceTimeout, .encoderCount 0 .up 0, .referenceMark 0 0, .standstill 0,
    .triggerInstant, .lineBoundary 0, .hbTimer, .xchkWindowEnd,
    .xchkLoss, .encPosSet 0 0, .ceilPwmPeriod, .overspeedRelease,
    .cmpEnable 0 0, .cmpEndWrite 0 0, .cmpEntryFire 0, .cmpPulseEnd 0,
    .laneRenderDone 0 0 true, .paceStepDown, .paceLow, .spareRotate,
    .katPeriodic, .katRun, .katDone 0 true, .stagingDone 0 0 true,
    .tileLineWritten 0, .decompressDone 0, .decompInvalid 0 0 0, .decompDisagree 0,
    .sramScrub 0 0 0, .ingRingDoorbell 0 0, .descriptorTake, .hostReadDone true []] : List Instr).all (fun i => i.wf) = true := by decide
theorem test_wf_accepts2 : ([.ingRingDoorbell 0 0, .descriptorTake, .hostReadDone true [], .compressDone 0 true,
    .ringEnable 0 true, .ringFlush 0, .cqdoneWrite 0 0, .skewWrite 0 0,
    .skewArm 0 0, .commitGo 0, .ovlWrite 0 0, .statFrame 0 [],
    .tempLost 0, .normalDecision, .resFrame 0 [], .ackFrame 0 [],
    .memFrame 0 [], .waveAnswerTimeout, .waveCommitTimeout, .waveReloadRetry 0,
    .linkTrainStep 0 true [], .trainRetry 0, .linkLockLost 0, .laneRestore 0,
    .hlkEnWrite 0 0, .hlkRetrain 0, .usageInc 0, .usageTimeout 0,
    .headFrame 0 0 [], .headMarker 0 0 [], .headDecision 0, .headLockTimeout 0,
    .frameStart 0 0, .imageLine 0 [] 0, .frameEnd 0, .captureReq 0 0,
    .captureDone 0, .captureNoFrame 0, .hbBlock [], .stateFrame [],
    .logFrame [] true, .logAck 0 true, .logResend, .ocrcFrame [],
    .verdFrame [], .faultBlock [], .rsyncFrame [], .identFrame []] : List Instr).all (fun i => i.wf) = true := by decide
theorem test_wf_accepts3 : ([.faultBlock [], .rsyncFrame [], .identFrame [], .lanesBlock 0,
    .pairLaneLost 0, .heartbeatLoss, .withholdTimeout 0 0, .joinPhaseEnd,
    .alignTimeout, .verifyTimeout, .hostReset, .cqHeadWrite 0,
    .irqGapEnd 0, .longProgress ⟨.bar, 0⟩, .bilDatagram ⟨0, 0, []⟩, .bilTimeout,
    .udpSessionTimeout, .identify ⟨.bar, 0⟩, .udpOpen ⟨.bar, 0⟩, .udpClose ⟨.bar, 0⟩,
    .echo ⟨.bar, 0⟩, .jobDefine ⟨.bar, 0⟩, .jobStart ⟨.bar, 0⟩, .jobStop ⟨.bar, 0⟩,
    .jobAbort ⟨.bar, 0⟩, .jobPurge ⟨.bar, 0⟩, .geometrySet ⟨.bar, 0⟩, .skewSet ⟨.bar, 0⟩,
    .waveStage ⟨.bar, 0⟩, .waveLoad ⟨.bar, 0⟩, .calStart ⟨.bar, 0⟩, .calSweepStep true [],
    .calCommit true, .calAbort ⟨.bar, 0⟩, .calStatus ⟨.bar, 0⟩, .maintDefine ⟨.bar, 0⟩,
    .maintStart ⟨.bar, 0⟩, .maintStepEnd true, .spitLine, .maintStop ⟨.bar, 0⟩,
    .move ⟨.bar, 0⟩, .moveGroup ⟨.bar, 0⟩, .home ⟨.bar, 0⟩, .axisStop ⟨.bar, 0⟩,
    .capture ⟨.bar, 0⟩, .statsRing ⟨.bar, 0⟩, .grainWrite ⟨.bar, 0⟩, .snapshot ⟨.bar, 0⟩] : List Instr).all (fun i => i.wf) = true := by decide
theorem test_wf_accepts4 : ([.statsRing ⟨.bar, 0⟩, .grainWrite ⟨.bar, 0⟩, .snapshot ⟨.bar, 0⟩, .dropRead ⟨.bar, 0⟩,
    .pairJoin ⟨.bar, 0⟩, .pairSwitchover ⟨.bar, 0⟩, .pairLeave ⟨.bar, 0⟩, .ptpConfig ⟨.bar, 0⟩,
    .regRead ⟨.bar, 0⟩, .regWrite ⟨.bar, 0⟩, .blockRead ⟨.bar, 0⟩, .faultClear ⟨.bar, 0⟩,
    .softReset ⟨.bar, 0⟩, .journalRead ⟨.bar, 0⟩, .usageKey ⟨.bar, 0⟩, .headMemRead ⟨.bar, 0⟩,
    .hicDoorbell 0 0, .hicClaim 0 0 0, .hicEoi 0 0, .hicRouteWrite 0 0 0,
    .hicPendSet 0 0 0, .hicPendClr 0 0 0, .hicEnSet 0 0 0, .hicEnClr 0 0 0,
    .hicExtWrite 0 0 0, .extIrqEdge 0 true, .redirectTimeout 0, .hicTimer 0,
    .coreSleep 0, .accessFault 0 0 .read, .alertFall 0, .alertRise 0,
    .refresh 0, .zqcs 0 0, .dramScrub 0 0 [], .relayout,
    .syncMessage 0 goodSync, .announceMessage 0 goodAnnounce, .delayMessage 0 goodDelay, .announceTimeout 0,
    .tmbReacq, .tmbCfgWrite 0, .errorReport 0 0 0, .unitRestore 0 0,
    .fltClear 0, .cntSnapReq 0, .snapshotComplete, .drainReq] : List Instr).all (fun i => i.wf) = true := by decide
theorem test_wf_accepts5 : ([.cntSnapReq 0, .snapshotComplete, .drainReq, .drainDone,
    .profileTick, .moveStart 0, .stallAccept 0, .homeBackoff 0,
    .dfaultAccept 0, .ssiFrame 0 0 true, .drvEnWrite 0 0, .drvenFall 0,
    .rebase 0, .registerWrite .host 0 0, .mbxDoorbell (.bar 0), .pcieLinkUp,
    .perstNRelease, .pairLinkTrain 0 true, .pairLiveIChange true, .memReadTimeout 0,
    .sweepLine, .dfaultInactive 0, .statNone 0] : List Instr).all (fun i => i.wf) = true := by decide

theorem test_wf_refuses1 : ([.resetRelease 16 0 0, .resetRelease 0 16 0, .resetRelease 0 0 16, .bootStepEnd true 16,
    .railPowerGood 0, .railPgTimeout 0, .undervoltageTrip 0, .housekeepingSlot (2 ^ 16) true,
    .hvPgFall 4, .hvPgTimeout 4, .encoderCount 2 .up 0, .referenceMark 2 0,
    .standstill 2, .lineBoundary (2 ^ 24), .encPosSet 2 0, .encPosSet 0 (2 ^ 40),
    .cmpEnable 8 0, .cmpEnable 0 (2 ^ 32), .cmpEndWrite 8 0, .cmpEndWrite 0 (2 ^ 32),
    .cmpEntryFire 8, .cmpPulseEnd 8, .laneRenderDone 34 0 true, .katDone 34 true,
    .stagingDone 192 0 true, .stagingDone 0 (2 ^ 32) true, .tileLineWritten 32, .decompressDone 32,
    .decompInvalid 32 0 0, .decompInvalid 0 16 0, .decompInvalid 0 0 (2 ^ 32), .decompDisagree 32,
    .sramScrub 8 0 0, .sramScrub 0 (2 ^ 32) 0, .sramScrub 0 0 (2 ^ 144), .ingRingDoorbell 4 0,
    .ingRingDoorbell 0 (2 ^ 16), .hostReadDone true [256], .compressDone 4 true, .ringEnable 4 true,
    .ringFlush 4, .cqdoneWrite 4 0, .cqdoneWrite 0 (2 ^ 32), .skewWrite 24 0,
    .skewWrite 0 (2 ^ 32), .skewArm 24 0, .skewArm 0 (2 ^ 32), .commitGo (2 ^ 32)] : List Instr).all (fun i => !i.wf) = true := by decide
theorem test_wf_refuses2 : ([.skewArm 24 0, .skewArm 0 (2 ^ 32), .commitGo (2 ^ 32), .ovlWrite 4096 0,
    .ovlWrite 0 (2 ^ 32), .statFrame 24 [], .statFrame 0 [256], .tempLost 24,
    .resFrame 24 [], .resFrame 0 [256], .ackFrame 24 [], .ackFrame 0 [256],
    .memFrame 24 [], .memFrame 0 [256], .waveReloadRetry 24, .linkTrainStep 24 true [],
    .linkTrainStep 0 true [256], .trainRetry 24, .linkLockLost 24, .laneRestore 24,
    .hlkEnWrite 24 0, .hlkEnWrite 0 (2 ^ 32), .hlkRetrain 24, .usageInc 24,
    .usageTimeout 24, .headFrame 24 0 [], .headFrame 0 2 [], .headFrame 0 0 [256],
    .headMarker 24 0 [], .headMarker 0 2 [], .headMarker 0 0 [256], .headDecision 24,
    .headLockTimeout 24, .frameStart 4 0, .frameStart 0 (2 ^ 16), .imageLine 4 [] 0,
    .imageLine 0 [256] 0, .imageLine 0 [] 16, .frameEnd 4, .captureReq 4 0,
    .captureReq 0 (2 ^ 32), .captureDone 4, .captureNoFrame 4, .hbBlock [256],
    .stateFrame [256], .logFrame [256] true, .logAck (2 ^ 32) true, .ocrcFrame [256]] : List Instr).all (fun i => !i.wf) = true := by decide
theorem test_wf_refuses3 : ([.logFrame [256] true, .logAck (2 ^ 32) true, .ocrcFrame [256], .verdFrame [256],
    .faultBlock [256], .rsyncFrame [256], .identFrame [256], .lanesBlock 16,
    .pairLaneLost 4, .withholdTimeout (2 ^ 40) 0, .withholdTimeout 0 24, .cqHeadWrite (2 ^ 32),
    .irqGapEnd 64, .longProgress ⟨.bar, 64⟩, .bilDatagram ⟨0, 2, []⟩, .identify ⟨.bar, 64⟩,
    .udpOpen ⟨.bar, 64⟩, .udpClose ⟨.bar, 64⟩, .echo ⟨.bar, 64⟩, .jobDefine ⟨.bar, 64⟩,
    .jobStart ⟨.bar, 64⟩, .jobStop ⟨.bar, 64⟩, .jobAbort ⟨.bar, 64⟩, .jobPurge ⟨.bar, 64⟩,
    .geometrySet ⟨.bar, 64⟩, .skewSet ⟨.bar, 64⟩, .waveStage ⟨.bar, 64⟩, .waveLoad ⟨.bar, 64⟩,
    .calStart ⟨.bar, 64⟩, .calSweepStep true [2 ^ 32], .calAbort ⟨.bar, 64⟩, .calStatus ⟨.bar, 64⟩,
    .maintDefine ⟨.bar, 64⟩, .maintStart ⟨.bar, 64⟩, .maintStop ⟨.bar, 64⟩, .move ⟨.bar, 64⟩,
    .moveGroup ⟨.bar, 64⟩, .home ⟨.bar, 64⟩, .axisStop ⟨.bar, 64⟩, .capture ⟨.bar, 64⟩,
    .statsRing ⟨.bar, 64⟩, .grainWrite ⟨.bar, 64⟩, .snapshot ⟨.bar, 64⟩, .dropRead ⟨.bar, 64⟩,
    .pairJoin ⟨.bar, 64⟩, .pairSwitchover ⟨.bar, 64⟩, .pairLeave ⟨.bar, 64⟩, .ptpConfig ⟨.bar, 64⟩] : List Instr).all (fun i => !i.wf) = true := by decide
theorem test_wf_refuses4 : ([.pairSwitchover ⟨.bar, 64⟩, .pairLeave ⟨.bar, 64⟩, .ptpConfig ⟨.bar, 64⟩, .regRead ⟨.bar, 64⟩,
    .regWrite ⟨.bar, 64⟩, .blockRead ⟨.bar, 64⟩, .faultClear ⟨.bar, 64⟩, .softReset ⟨.bar, 64⟩,
    .journalRead ⟨.bar, 64⟩, .usageKey ⟨.bar, 64⟩, .headMemRead ⟨.bar, 64⟩, .hicDoorbell 6 0,
    .hicDoorbell 0 (2 ^ 32), .hicClaim 6 0 0, .hicClaim 0 12 0, .hicClaim 0 0 (2 ^ 32),
    .hicEoi 6 0, .hicEoi 0 (2 ^ 32), .hicRouteWrite 6 0 0, .hicRouteWrite 0 384 0,
    .hicRouteWrite 0 0 (2 ^ 32), .hicPendSet 6 0 0, .hicPendSet 0 12 0, .hicPendSet 0 0 (2 ^ 32),
    .hicPendClr 6 0 0, .hicPendClr 0 12 0, .hicPendClr 0 0 (2 ^ 32), .hicEnSet 6 0 0,
    .hicEnSet 0 12 0, .hicEnSet 0 0 (2 ^ 32), .hicEnClr 6 0 0, .hicEnClr 0 12 0,
    .hicEnClr 0 0 (2 ^ 32), .hicExtWrite 6 0 0, .hicExtWrite 0 16 0, .hicExtWrite 0 0 (2 ^ 32),
    .extIrqEdge 16 true, .redirectTimeout 384, .hicTimer 16, .coreSleep 6,
    .accessFault 6 0 .read, .accessFault 0 (2 ^ 32) .read, .alertFall 4, .alertRise 4,
    .refresh 4, .zqcs 4 0, .zqcs 0 4, .dramScrub 4 0 []] : List Instr).all (fun i => !i.wf) = true := by decide
theorem test_wf_refuses5 : ([.zqcs 4 0, .zqcs 0 4, .dramScrub 4 0 [], .dramScrub 0 0 [2 ^ 144],
    .syncMessage 2 goodSync, .syncMessage 0 { goodSync with ns := 1000000000 }, .announceMessage 2 goodAnnounce, .announceMessage 0 { goodAnnounce with gmId := [] },
    .delayMessage 2 goodDelay, .delayMessage 0 { goodDelay with head := { goodDelay.head with version := 16 } }, .announceTimeout 2, .tmbCfgWrite (2 ^ 32),
    .errorReport 57 0 0, .errorReport 0 256 0, .errorReport 0 0 256, .unitRestore 64 0,
    .unitRestore 0 256, .fltClear (2 ^ 64), .cntSnapReq (2 ^ 32), .moveStart 8,
    .stallAccept 8, .homeBackoff 8, .dfaultAccept 8, .ssiFrame 4 0 true,
    .ssiFrame 0 (2 ^ 32) true, .drvEnWrite 8 0, .drvEnWrite 0 2, .drvenFall 8,
    .rebase 8, .registerWrite (.core 6) 0 0, .registerWrite .host (2 ^ 36) 0, .registerWrite .host 0 (2 ^ 32),
    .mbxDoorbell (.bar 64), .pairLinkTrain 5 true, .memReadTimeout 24, .dfaultInactive 8,
    .statNone 24] : List Instr).all (fun i => !i.wf) = true := by decide

/-! ## Witnesses: the machine as a whole, reset and boot -/

theorem witness_idle_tick : State.reset.pending = [] := by decide

theorem witness_latch_kept : LatchSafe { latched with pending := [.aliveToggle] } ∧
    Machine.step { latched with pending := [.aliveToggle] } = .next latched := by
  exact ⟨fun _ => rfl, rfl⟩

theorem witness_keeps : exec (.resetNAssert 0) State.reset = .next State.reset ∧ latched.aon.thermLatch = true ∧ alwaysOn .aliveToggle = false ∧
    exec .aliveToggle latched = .next latched := ⟨rfl, rfl, rfl, rfl⟩

/-- Below 200 ns, at 1 µs and at 1 s; in BOOT; in the latch. -/
theorem witness_reset_sources : State.reset.aon.thermLatch = false ∧ (1000 ≤ 1000) ∧ (199 < 200) ∧ (1000000000 ≤ 1000000000) ∧
    State.reset.mode = .boot ∧ latched.aon.thermLatch = true := by decide

theorem witness_release : (up .reset).mode = .reset ∧ (up .reset).aon.thermLatch = false := by decide

/-- The block in BOOT at a step. -/
def bootAt (n : Nat) : State := sets State.reset [(R.BTJ_STAT_STEP, n), (R.CHK_RAIL_PG, 0x7F)]

theorem witness_boot_steps : State.reset.running = true ∧ State.reset.mode = .boot ∧ State.reset.get R.BTJ_STAT_STEP = 1 ∧
    (bootAt 2).get R.BTJ_STAT_STEP = 2 ∧ (bootAt 2).get R.CHK_RAIL_PG = 0x7F ∧ (bootAt 2).running = true ∧
    (bootAt 3).get R.BTJ_STAT_STEP = 3 ∧ (bootAt 3).boot.way = 0 ∧ (bootAt 3).mode = .boot ∧ (bootAt 3).running = true := by decide

/-! ## Witnesses: Chuck -/

/-- Rail k is awaited. -/
def railAt (k : Nat) : State := { State.reset with chuck := { State.reset.chuck with seqRail := k } }

theorem witness_rails : (railAt 1).chuck.seqRail = 1 ∧ (railAt 6).chuck.seqRail = 6 ∧ (railAt 7).chuck.seqRail = 7 ∧ (railAt 7).running = true ∧
    (railAt 6).running = true ∧ (railAt 1).running = true ∧ (railAt 7).mode ≠ .safe ∧ (railAt 7).bitIn R.FLT_CHIP_CHIP 50 = true ∧
    (bootAt 2).bitIn R.CHK_RAIL_PG 0 = true ∧ (bootAt 2).bitIn R.CHK_RAIL_PG 6 = true ∧ (bootAt 2).bitIn R.FLT_CHIP_CHIP 50 = true ∧
    (bootAt 2).mode ≠ .safe ∧ latched.aon.thermLatch = true ∧ latched.aon.retention = 1 := by decide

/-- A converter slot in hand; every sensor at one code. -/
def slotAt (n : Nat) : State := { up .idle with chuck := { State.reset.chuck with slot := n } }

theorem witness_housekeeping : (slotAt 0).mode ≠ .reset ∧ (slotAt 63).chuck.slot < 64 ∧ (slotAt 63).aon.retention ≠ 2 ∧
    ¬ ((slotAt 24).chuck.slot < 24 ∧ (slotAt 24).bitIn R.CHK_TS_BROKEN_BROKEN 24 = true) ∧
    (let s := sets (slotAt 23) [(R.CHK_TS_BROKEN_BROKEN, 2 ^ 23)]
     s.chuck.slot < 24 ∧ s.bitIn R.CHK_TS_BROKEN_BROKEN s.chuck.slot = true) := by decide

/-- 130 °C on two sensors side by side, and nothing hot. -/
theorem witness_die_limit : (up .idle).running = true ∧ (up .idle).roundForm.dieLimitReached = false ∧
    (sets (up .idle) [(R.CHK_CH_VALUE 0, 520), (R.CHK_CH_VALUE 1, 520)]).roundForm.dieLimitReached = true := by decide +kernel

/-- A transaction of a rail in hand. -/
def avsAt (rail mv : Nat) : State := { up .idle with chuck := { State.reset.chuck with avs := some (rail, mv), hvOut := 9, aliveOn := true } }

theorem witness_supply : (avsAt 0 850).running = true ∧ (avsAt 0 850).chuck.avs = some (0, 850) ∧ (avsAt 1 900).chuck.avs = some (1, 900) ∧
    (avsAt 1 900).chuck.avsTries < 2 ∧ bit (avsAt 1 900).chuck.hvOut 0 = true ∧ bit (avsAt 1 900).chuck.hvOut 3 = true ∧
    (avsAt 1 900).mode ≠ .safe ∧ (avsAt 1 900).chuck.aliveOn = true := by decide

/-! ## Witnesses: encoder and line timing -/

/-- Both channels of one type. -/
def encAt (type : Nat) : State := sets (up .print) [(R.ENC_CH_CFG_TYPE 0, type), (R.ENC_CH_CFG_TYPE 1, type)]

theorem witness_encoder : (encAt 1).running = true ∧ (encAt 1).get (R.ENC_CH_CFG_TYPE 0) = 1 ∧ (encAt 1).get (R.ENC_CH_CFG_TYPE 1) = 1 ∧
    (encAt 2).get (R.ENC_CH_CFG_TYPE 1) = 2 ∧ (encAt 2).get (R.ENC_CH_CFG_REFTYPE 1) = 0 ∧ ((encAt 2).ench 1).held = none ∧ (EncEdge.down ≠ .both) ∧
    (encAt 1).encType 0 ≠ 0 ∧ (up .idle).mode = .idle ∧ (encAt 1).mode ≠ .idle := by decide

/-- A line scheduled, two due, a window done, a silent check encoder. -/
def lineAt : State :=
  { sets (encAt 1) [(R.ENC_XCHK_RATIO_RATIO, 2 ^ 24), (R.ENC_XCHK_CFG_EN, 1), (R.ENC_XCHK_CFG_TOL, 100)] with
    path := { State.reset.path with armed := true }
    line := { State.reset.line with
      sched := some 10, due := [⟨4, 100, false⟩, ⟨5, 5000, false⟩], lastB := some 90, wdone := some (100, 103, false), silent := 64 } }

/-- A deviation of 3 % beyond, and one of 1 % within, the tolerance of 1 %. -/
theorem witness_line_timing : lineAt.running = true ∧ lineAt.line.sched = some 10 ∧ lineAt.line.wdone = some (100, 103, false) ∧
    lineAt.get R.ENC_XCHK_RATIO_RATIO ≠ 0 ∧ lineAt.get R.ENC_XCHK_CFG_ACTION = 0 ∧ lineAt.flag R.ENC_XCHK_CFG_EN = true ∧ 64 ≤ lineAt.line.silent ∧
    (let s := { lineAt with line := { lineAt.line with wdone := some (100, 101, false) } }
     s.line.wdone = some (100, 101, false) ∧ max 1 (min 10000 (s.get R.ENC_XCHK_CFG_TOL)) = 100) ∧
    (up .print).ceilJob = true ∧ (up .safe).primary = true ∧ (up .safe).mode = .safe := by decide

theorem witness_deviation : (let dev : Rat := (103 / 1 - 100) / 100 * 10000; (100 : Rat) < absR dev) ∧
    (let dev : Rat := (101 / 1 - 100) / 100 * 10000; absR dev ≤ 100) := by
  constructor <;> decide +kernel

theorem witness_boundaries : lineAt.encArmed = true ∧ lineAt.line.due = ⟨4, 100, false⟩ :: [⟨5, 5000, false⟩] ∧ lineAt.line.lastB = some 90 := by
  decide

/-- Output 7 armed with an entry reached. -/
def cmpAt : State :=
  { up .print with cmp := (List.range 8).map (fun (k : Nat) => { (State.reset.cmpOut 0) with armed := decide (k = 7), reach := some 3, pulses := 1 }) }

theorem witness_compare : (up .idle).running = true ∧ (up .idle).mode ≠ .shadow ∧ bit 1 0 = true ∧ bit 0xFFFFFFFE 0 = false ∧ cmpAt.running = true ∧
    cmpAt.cmpRuns = true ∧ (cmpAt.cmpOut 7).armed = true ∧ (cmpAt.cmpOut 7).late = false ∧ (cmpAt.cmpOut 7).reach = some 3 ∧ cmpAt.cmp.length = 8 ∧
    (cmpAt.cmpOut 7).pulses = 1 := by decide

/-! ## Witnesses: Spindle, billets and ingest -/

/-- A job that prints on port 0: one band, its tiles all zero. -/
def printAt : State :=
  { up .print with
    store := { State.reset.store with
      cur := some ⟨⟨1, false, 0, 0, 0, []⟩, 0, true, false⟩, planeOf := 0 :: List.replicate 23 0xFF
      billets := (List.range 8).map (fun (k : Nat) => ⟨1, k, 0, true, [], false, false, .no, 0, 0⟩) }
    path := { State.reset.path with
      armed := true, lanes := some ⟨0, [0]⟩ :: List.replicate 31 none, highRun := 4096, lowRun := 64, shadowLines := 1024, katLines := 4096
      katDue := 4, katRun := 4 } }

theorem witness_scrub : eccJudge (eccEncode 0) = .clean ∧ eccJudge (Nat.xor (eccEncode 0) 5) = .fixed 0 5 ∧
    eccJudge (Nat.xor (eccEncode 0) 0x11) = .uncorrectable ∧ (up .print).running = true ∧ (6 < 7) ∧ (65535 < 65536) ∧
    (up .print).path.parkWords.contains 65535 = false := by decide

theorem witness_lane : printAt.laneWork 0 = some ⟨0, [0]⟩ ∧ printAt.running = true ∧ printAt.path.lanes.getD 0 none = some ⟨0, [0]⟩ ∧
    printAt.path.lanes.getD 31 none = none := by decide

/-- One line short of the floor, and at it. -/
theorem witness_pace : 4096 ≤ printAt.path.highRun ∧ printAt.stepFree = true ∧ printAt.chuck.avs = none ∧
    700 + 10 * printAt.spFloor + 10 ≤ (sets printAt [(R.CHK_VSP_TARGET, 900)]).get R.CHK_VSP_TARGET ∧
    (sets printAt [(R.CHK_VSP_TARGET, 700)]).get R.CHK_VSP_TARGET < 700 + 10 * (sets printAt [(R.CHK_VSP_TARGET, 700)]).spFloor + 10 ∧
    64 ≤ printAt.path.lowRun ∧ 1024 ≤ printAt.path.shadowLines := by decide

theorem witness_kat : printAt.mode ≠ .shadow ∧
    (let s := sets printAt [(R.SPN_CTRL_KAT_PERIOD, 4)]
     s.get R.SPN_CTRL_KAT_PERIOD ≠ 0 ∧ s.get R.SPN_CTRL_KAT_PERIOD * 1024 ≤ s.path.katLines ∧
       ((List.range 34).filter s.lanePresent)[s.path.katTurn % max 1 ((List.range 34).filter s.lanePresent).length]? = some 0) ∧
    (let s := { printAt with path := { printAt.path with armed := false } }
     s.running = true ∧ bit s.path.katDue 2 = true ∧ s.lanePresent 2 = true ∧ s.path.armed = false ∧ s.path.misWait = [] ∧ s.pair.judging = false) := by
  decide

/-- Tiles in hand: decompressor 3 writes column 1; a billet of column 0 is requested. -/
def tileAt : State :=
  { printAt with
    store := { printAt.store with
      billets := [⟨1, 0, 0, false, List.replicate 64 0, false, false, .requested, 0, 0⟩]
      dec := List.replicate 3 none ++ [some ⟨1, 0, List.replicate 16384 0, true, 63⟩] ++ List.replicate 28 none }
    path := { printAt.path with armed := false, ports := { printAt.port 0 with tiles := [⟨1, 0, 63, [], []⟩] } :: List.replicate 23 {} } }

theorem witness_tiles : tileAt.running = true ∧ (tileAt.billetAt 0 0).map (fun b => b.staging) = some .requested ∧
    (tileAt.decJob 3).map (fun j => (j.col, j.band, j.whole, decide (j.written < 64))) = some (1, 0, true, true) ∧ tileAt.path.armed = false ∧
    (tileAt.port 0).tiles[0]? = some ⟨1, 0, 63, [], []⟩ ∧ (0 < tileAt.path.ports.length) ∧ tileAt.firstDec 1 0 = none ∧
    tileAt.flag R.BLT_DEC_ERR_VALID = false ∧ 2 ≤ tileAt.decsUp ∧ (31 < 32) ∧ tileAt.bitIn R.BLT_DEC_PART_PARTED 31 = false := by decide

theorem witness_tile_length : (tileAt.decJob 3).map (fun j => decide (256 * (j.written + 1) ≤ j.bytes.length)) = some true := by decide +kernel

/-- A descriptor waits on ring 0: a raw billet of port 0, column 0, band 0 of job 1, and nothing is resident. -/
def descBytes : List Nat := toBytes 8 0x1000 ++ toBytes 2 64 ++ [0, 0, 0, 1, 0, 0] ++ toBytes 4 0 ++ toBytes 4 9 ++ List.replicate 8 0
def ringAt : State :=
  sets { (printAt.putBytes 0x40180000 descBytes) with store := { printAt.store with billets := [] } }
    [(R.ING_RING_CFG_ENABLE 0, 1), (R.ING_RING_TAIL_TAIL 0, 1), (R.DRC_STORE_MB_MB, 1)]

theorem witness_rings : (up .idle).flag R.MBX_UDP_CFG_INGEST = false ∧ (sets (up .idle) [(R.MBX_UDP_CFG_INGEST, 1)]).flag R.MBX_UDP_CFG_INGEST = true ∧
    (up .maintain).mode ≠ .idle ∧ (up .maintain).mode ≠ .print ∧
    (sets (up .idle) [(R.BLT_STORE_STAT_HOT_HOLD, 1)]).flag R.BLT_STORE_STAT_HOT_HOLD = true := by decide

theorem witness_take : ringAt.running = true ∧ ringAt.mode = .print ∧ ringAt.flag R.BLT_STORE_STAT_HOT_HOLD = false ∧
    ringAt.acct.parted.any (fun (u : PartedUnit) => u.src == 27) = false ∧ ringAt.storeFull = false ∧ ringAt.nextRing = some 0 ∧
    ringAt.offered 0 = some (descBytes, none) ∧ ringAt.checksTaken (mkFlight ringAt.store.flightNo 0 false descBytes) descBytes = 0 ∧
    bit (field descBytes 10 2) 0 = false := by decide

/-- A host read is on its way; compressor 0 holds a piece of a capture. -/
def flightAt : State := { ringAt with store := { ringAt.store with flights := [mkFlight 5 0 false descBytes] } }
def pieceAt : State :=
  { up .idle with
    cam := { State.reset.cam with ports := { cap := some ⟨[1], [2], [([3], none)]⟩ } :: State.reset.cam.ports.drop 1 }
    store := { State.reset.store with cmp := some (.capture 0 0 0) :: State.reset.store.cmp.drop 1 } }

theorem witness_reads : flightAt.store.flights.find? (fun (f : Flight) => f.phase == 0 && !f.udp && !bit f.flags 0) = some (mkFlight 5 0 false descBytes) ∧
    (mkFlight 5 0 false descBytes).noJob = false ∧ flightAt.running = true ∧
    flightAt.store.flights.find? (fun (g : Flight) => g.id == (mkFlight 5 0 false descBytes).id) = some (mkFlight 5 0 false descBytes) ∧
    (flightAt.store.flights.map (fun (g : Flight) => g.id)).Nodup ∧ (mkFlight 5 0 false descBytes).ring < 4 ∧
    (mkFlight 5 0 false descBytes).udp = false ∧
    flightAt.store.flights.find? (fun (g : Flight) => g.ring == 0 && g.udp == false) = some (mkFlight 5 0 false descBytes) ∧
    (mkFlight 5 0 false descBytes).quiet = false ∧ flightAt.cqRingFull 0 = false ∧
    pieceAt.store.cmp.getD 0 none = some (.capture 0 0 0) ∧ pieceAt.store.cmpWait = [] ∧ 0 < pieceAt.cam.ports.length ∧
    (pieceAt.cport 0).cap = some ⟨[1], [2], [([3], none)]⟩ := by decide

theorem witness_ring_controls : (up .idle).mode ≠ .shadow ∧ (up .idle).running = true ∧
    (up .idle).flag (R.ING_RING_CFG_ENABLE 3) = false ∧ (up .shadow).mode = .shadow := by decide

/-- A change of skew of port 23 is staged in PRINT; the next line's number; one that is refused. -/
def skewAt : State := { printAt with store := { printAt.store with planeOf := List.replicate 24 0 } }

theorem witness_skew : (up .idle).mode = .idle ∧ 23 < (up .idle).nPorts ∧ (up .print).mode ≠ .idle ∧ 4095 < 4096 ∧
    skewAt.mode = .print ∧ 23 < skewAt.nPorts ∧ skewAt.flag (R.BLT_SKEW_PEND_ARM 23) = false ∧ bit (2 ^ 31 + 1) 31 = true ∧
    skewAt.skewRefusal 23 1 = 0 ∧ skewAt.skewRefusal 23 ((2 ^ 31 + 65) % 2 ^ 14) ≠ 0 ∧ skewAt.skewRefusal 23 64 = 0 := by decide

theorem witness_commit : (sets (up .print) [(R.GMP_CSTAT_BUSY, 1)]).flag R.GMP_CSTAT_BUSY = true ∧ (up .print).flag R.GMP_CSTAT_BUSY = false ∧
    bit 5 31 = false ∧ bit (2 ^ 31) 31 = true ∧
    (((up .print).put R.GMP_COMMIT_COUNT (2 ^ 31)).put R.GMP_COMMIT_ASAP (2 ^ 31 / 2 ^ 13)).commitRefusal 0 [] ≠ none := by decide

theorem witness_commit_taken :
    let u := ((up .print).put R.GMP_COMMIT_COUNT (2 ^ 31 + 1)).put R.GMP_COMMIT_ASAP ((2 ^ 31 + 1) / 2 ^ 13)
    bit (2 ^ 31 + 1) 31 = true ∧ u.commitRefusal ((2 ^ 31 + 1) % 2 ^ 13) (u.changeList (min ((2 ^ 31 + 1) % 2 ^ 13) 4096)) = none := by decide

/-! ## Witnesses: head links, heads and cameras -/

/-- Every head link UP. -/
def linked (m : Mode) : State := sets (up m) ((List.range 24).map (fun (p : Nat) => (R.HLK_STAT_STATE p, 5)))

/-- A code word with two wrong symbols; one that stands. -/
def badWord : List Nat := [0x11] ++ List.replicate 17 0
def goodWord : List Nat := List.replicate 18 0

/-- A HEAD_MEM_READ that waits for the answer of head 3. -/
def memAt : State :=
  { linked .idle with mbx := { (linked .idle).mbx with cmds := [{ cmd opHEAD_MEM_READ with progress := 1, running := true }] } }

theorem witness_answers : (up .idle).linkUp 23 = false ∧ (linked .print).running = true ∧ (linked .print).linkUp 23 = true ∧
    (codeWords badWord).any wordBad = true ∧ (codeWords goodWord).any wordBad = false ∧ (linked .print).calRun = none ∧
    23 < (linked .print).path.ports.length ∧
    (sets (linked .print) [(R.FIR_RANK_RNOM 0, 1000)]).inWindow ((linked .print).link 23).rank 1000 = true ∧
    23 < (linked .print).nPorts ∧ memAt.memCmd 0 = some { cmd opHEAD_MEM_READ with progress := 1, running := true } := by decide

/-- No report for 64 lines; 1,024 boundaries in which the normal class would lie low. -/
def quietAt : State :=
  let s := sets (linked .print) [(R.FIR_CTRL_CLASS_SEL, 1), (R.FIR_CTRL_AUTO_SHORT, 1), (R.FIR_TMIN_TMIN_N, 4000), (R.ENC_CH_STAT_SPEED_VALID 0, 1)]
  { s with
    path := { s.path with ports := { s.port 0 with noTemp := 64 } :: s.path.ports.drop 1, normRun := 1024, armed := true }
    enc := [{ run := 3, ivals := [5000, 5000] }, {}] }

theorem witness_temp : 64 ≤ (quietAt.port 0).noTemp ∧ quietAt.running = true ∧ 0 < quietAt.nPorts ∧
    1024 ≤ quietAt.path.normRun ∧ quietAt.heading = 1 ∧ quietAt.mayDecide 0 = true ∧ quietAt.flag R.FIR_CTRL_PEND = false := by decide +kernel

/-- A load in each of its stages. -/
def tabAt : ClassTab := { off := 100, trim := [], wf := [] }
def loadAt (committing : Bool) : State :=
  { linked .idle with load := some ⟨0, tabAt, committing, 3, 1, 0, 0⟩, links := { reload := [0] } :: (linked .idle).links.drop 1 }

theorem witness_loads : (loadAt false).load = some ⟨0, tabAt, false, 3, 1, 0, 0⟩ ∧ (loadAt false).running = true ∧ 3 ≠ 0 ∧
    (linked .idle).load = none ∧ (loadAt true).load = some ⟨0, tabAt, true, 3, 1, 0, 0⟩ ∧ (loadAt true).linkUp 0 = true ∧
    ((loadAt true).link 0).stage = 0 ∧ ((loadAt true).link 0).reload ≠ [] ∧
    (members 24 3).any (fun (p : Nat) => !bit 3 p && !bit 0 p) = false ∧ bit 3 1 = true ∧ bit 1 1 = false ∧ bit 0 1 = false := by decide

/-- Port 0 in a step of training. -/
def trainAt (st : Nat) : State := sets (up .idle) [(R.HLK_STAT_STATE 0, st), (R.HLK_CTRL_EN 0, 1)]

theorem witness_training : (trainAt 1).running = true ∧ 0 < (trainAt 1).nPorts ∧ (trainAt 1).get (R.HLK_STAT_STATE 0) = 1 ∧
    (trainAt 2).get (R.HLK_STAT_STATE 0) = 2 ∧ (trainAt 3).get (R.HLK_STAT_STATE 0) = 3 ∧ (trainAt 4).get (R.HLK_STAT_STATE 0) = 4 ∧
    field (toBytes 2 288) 0 2 ≤ 288 ∧ 288 < field (toBytes 2 289) 0 2 ∧ (trainAt 6).flag (R.HLK_CTRL_EN 0) = true ∧
    (trainAt 6).get (R.HLK_STAT_STATE 0) = 6 ∧ (trainAt 6).mode ≠ .safe ∧ (trainAt 6).load = none ∧ (up .idle).flag (R.HLK_CTRL_EN 0) = false ∧
    bit 1 0 = true ∧ bit 1 1 = false ∧ (trainAt 6).linkUp 0 = false ∧ bit 4 0 = false ∧ bit 4 1 = false := by decide

/-- An identity block that keeps every rule. -/
def idBlock : List Nat :=
  let b := [0x48, 0x4D, 1, 0] ++ List.replicate 12 0 ++ toBytes 2 8192 ++ [8, 0, 0, 96] ++ List.replicate 6 0 ++ [8, 0, 0, 0] ++ List.replicate 92 0
  b ++ toBytes 4 (crc32c b)

set_option maxRecDepth 20000 in
theorem witness_identity : headIdOk idBlock = true ∧ headIdOk [] = false := by decide +kernel

/-- Lane 1 dropped, both locked for 64 reports; a usage read in hand. -/
def laneAt (op : Nat) : State :=
  { sets (linked .idle) [(R.HLK_USTAT_GY5 0, 1), (R.HLK_UACC_ACC 0, 2 ^ 20)] with
    links := { mask := 1, both := 64, usage := some (op, 9, false) } :: (linked .idle).links.drop 1 }

theorem witness_lanes : (laneAt 6).running = true ∧ (laneAt 6).linkUp 0 = true ∧ (up .idle).linkUp 0 = false ∧ 0 < (laneAt 6).nPorts ∧
    0 < (laneAt 6).links.length ∧ ((laneAt 6).link 0).mask ≠ 3 ∧ 64 ≤ ((laneAt 6).link 0).both ∧ ((laneAt 6).link 0).sticky = false ∧
    (laneAt 6).primary = true ∧ (laneAt 6).flag (R.HLK_USTAT_GY5 0) = true ∧ (laneAt 6).flag (R.HLK_USTAT_PENDING 0) = false ∧
    2 ^ 20 ≤ (laneAt 6).get (R.HLK_UACC_ACC 0) ∧ ((laneAt 6).link 0).usage = some (6, 9, false) ∧ ((laneAt 5).link 0).usage = some (5, 9, false) := by
  decide

/-- A frame of one word as it stands on the link; one with a wrong type of block; a marker for a line. -/
def block (b : List Nat) : List Nat := b ++ [crc8 (b.drop 1)]
def frameOf (w : List Nat) : List Nat :=
  block ([0x5C, 1] ++ toBytes 2 1 ++ [0, 0, 0]) ++ w ++ List.replicate 6 0 ++ block ([0x63] ++ toBytes 4 (crc32c (w.take 16)) ++ toBytes 2 1)
def markFor (n : Nat) : List Nat := block ([0x96, 0x20] ++ toBytes 3 77 ++ toBytes 2 n)

/-- Head 23 has claim 4 on input 1 and has decided line 9. -/
def headAt : State :=
  { up .print with heads := List.replicate 23 {} ++ [{ ins := [{}, { claim := some 8 }], high := 4, fired := some 9 }] }

set_option maxRecDepth 4000 in
theorem witness_heads : headAt.running = true ∧ 23 < headAt.heads.length ∧ 1 < (headAt.head 23).ins.length ∧
    (frameWords (frameOf goodWord)).any wordBad = false ∧ headJudge (frameOf goodWord) = .valid ∧
    headJudge ((frameOf goodWord).set 0 0) = .invalid ∧ (frameWords ((frameOf goodWord).set 0 0)).any wordBad = false ∧
    ¬ (2 ≤ field ((frameOf goodWord).set 0 0) 1 1 ∧ field ((frameOf goodWord).set 0 0) 1 1 ≤ 4) ∧
    field (markFor 10) 0 1 = 0x96 ∧ crc8 (((markFor 10).drop 1).take 6) = field (markFor 10) 7 1 ∧
    crc8 ((((markFor 10).set 2 0).drop 1).take 6) ≠ field ((markFor 10).set 2 0) 7 1 ∧
    (headAt.head 23).cl 1 = some 8 ∧ (headAt.head 23).fired = some 9 ∧ 8 / 2 = (headAt.head 23).high ∧
    0 < sdiff 32 (seqExtend 9 (field (markFor 10) 5 2)) 9 ∧ (headAt.head 23).marks = [] := by decide

/-- Camera 3 enabled with a frame in progress, four rows high, `n` rows in. -/
def frameAt (n : Nat) : State :=
  let s := sets (up .print) [(R.CAM_CFG_EN 3, 1)]
  { s with
    cam := { s.cam with ports := List.replicate 3 {} ++ [{ frame := some { num := 1, time := 2, pos := 3, width := 2, height := 4, base := 0, rows := List.replicate n ⟨0, [0, 0], [0, 0], 0, 0, 0⟩, flags := 0, scores := 0, low := 0, verds := 0, dens := [], shared := false, ended := false, dropped := false } }] } }

theorem witness_frames : (up .maintain).camOn 3 = false ∧ (up .print).camOn 3 = true ∧ (sets (up .print) [(R.CAM_CFG_EN 3, 1)]).flag (R.CAM_CFG_EN 3) = true ∧
    ((up .print).cport 3).frame = none ∧ 3 < (up .print).cam.ports.length ∧ (up .print).acct.parted = [] ∧ (up .print).cam.slots = [] ∧
    bit 4 2 = true ∧ (frameAt 4).camOn 3 = true ∧ (frameAt 4).running = true ∧ 3 < (frameAt 4).cam.ports.length ∧
    (((frameAt 4).cport 3).frame.map (fun (f : CamFrame) => (f.dropped, decide (f.height ≤ f.rows.length)))) = some (false, true) ∧
    (((frameAt 3).cport 3).frame.map (fun (f : CamFrame) => (decide (f.rows.length < f.height), f.width))) = some (true, 2) := by decide

theorem witness_captures : bit 1 0 = true ∧ 3 < (up .print).nCams ∧
    (sets (up .print) [(R.CAM_CAP_BUSY 3, 1)]).flag (R.CAM_CAP_BUSY 3) = true ∧ (sets (up .print) [(R.BLT_ENG_CFG_CAP_ENABLE, 0)]).flag R.BLT_ENG_CFG_CAP_ENABLE = false ∧
    (up .print).flag (R.CAM_CAP_BUSY 3) = false ∧ (up .print).flag R.BLT_ENG_CFG_CAP_ENABLE = true ∧
    ((up .print).cport 3).cap = none ∧
    (({ up .idle with cam := { State.reset.cam with ports := [{ cap := some ⟨[1], [2], [([3], some [4])]⟩ }] } } : State).cport 0).cap
      = some ⟨[1], [2], [([3], some [4])]⟩ ∧
    [(([3] : List Nat), some ([4] : List Nat))].all (fun (p : List Nat × Option (List Nat)) => p.2.isSome) = true := by decide


/-! ## Witnesses: pair operation -/

/-- A member with its pair link in a stage; the standby of a pair. -/
def pairAt (m : Mode) (st : Nat) (prim : Bool) : State :=
  { up m with primary := prim, synced := !prim, pair := { State.reset.pair with state := st, lanes := 5, laneReady := 5 } }

/-- A heartbeat and a FAULT block with their checks. -/
def hb (b : List Nat) : List Nat := b ++ [crc8 b]

set_option maxRecDepth 4000 in
theorem witness_heartbeats : (pairAt .print 4 true).pairUp = true ∧ (pairAt .print 4 true).mode ≠ .boot ∧ (pairAt .print 4 true).running = true ∧
    (pairAt .print 3 true).pairUp = false ∧ (pairAt .print 3 true).pair.state ≠ 0 ∧ (hb [9, 0, 0x20, 0, 0, 0]).length = 7 ∧
    crc8 ((hb [9, 0, 0x20, 0, 0, 0]).take 6) = (hb [9, 0, 0x20, 0, 0, 0]).getD 6 0 ∧
    crc8 (([9, 0, 0x20, 0, 0, 0, 1] : List Nat).take 6) ≠ ([9, 0, 0x20, 0, 0, 0, 1] : List Nat).getD 6 0 ∧
    (pairAt .shadow 4 false).primary = false ∧ (pairAt .shadow 4 false).mode = .shadow ∧ (pairAt .shadow 4 false).synced = true ∧
    (pairAt .print 4 true).primary = true ∧ field (hb [5, 0, 0, 0, 0, 0]) 0 1 = 5 ∧ field (hb [4, 0, 0, 0, 0, 0]) 0 1 ≠ 5 := by decide

/-- A frame of the pair link of a type with no data. -/
def pairFrame (ftype : Nat) : List Nat := toBytes 18 (eccEncode (ftype * 2 ^ 64))

theorem witness_pair_frames : (pairAt .print 2 true).pair.state < 3 ∧ 3 ≤ (pairAt .print 3 true).pair.state ∧
    (codeWords badWord).any wordBad = true ∧ (pairAt .print 3 true).mode ≠ .shadow ∧
    ∀ ft ∈ [0x21, 0x22, 0x23, 0x24, 0x25, 0x26], PairFrameOk (pairAt .print 3 true) ft (pairFrame ft) := by
  refine ⟨by decide, by decide, by decide, by decide, ?_⟩
  intro ft h
  simp only [List.mem_cons, List.not_mem_nil, or_false] at h
  rcases h with h | h | h | h | h | h <;> subst h <;> exact ⟨by decide, by decide, by decide, by decide, by decide, by decide⟩

/-- The log of a primary: 64 bytes out, nothing acknowledged. -/
def logAt : State :=
  let s := sets (pairAt .print 4 true) [(R.TSL_LOG_TX_OFF, 64)]
  { s with pair := { s.pair with logOpen := true, buf := [(0, [1]), (32, [2])] } }

theorem witness_log : (pairAt .print 4 true).pair.logOpen = false ∧ logAt.running = true ∧ logAt.pair.logOpen = true ∧ logAt.store.flights = [] ∧
    logAt.pair.steps = [] ∧ 0 < sdiff 32 (32 % 2 ^ 32) (logAt.get R.TSL_LOG_ACK_OFF) ∧
    sdiff 32 (32 % 2 ^ 32) (logAt.get R.TSL_LOG_TX_OFF) ≤ 0 ∧ 3 ≤ (pairAt .shadow 4 false).pair.state ∧ (pairAt .shadow 4 false).mode = .shadow ∧
    (pairAt .shadow 4 false).primary = false ∧ (pairAt .shadow 4 false).pair.join ≠ 2 ∧ 16 ≠ (pairAt .shadow 4 false).get R.TSL_LOG_RX_OFF := by
  decide

/-- A port-line held back. -/
def heldAt : State :=
  { pairAt .print 4 true with
    pair := { (pairAt .print 4 true).pair with held := [(7, 2)] }
    path := { State.reset.path with ports := [{}, {}, { committed := [⟨7, 1, 0, 0, [], 0, false, []⟩] }] } }

theorem witness_pair_link : (pairAt .print 0 true).running = true ∧
    (pairAt .print 0 true).acct.parted.any (fun (u : PartedUnit) => u.src == 42) = false ∧ (pairAt .print 0 true).pair.state = 0 ∧
    (pairAt .print 1 true).pair.state = 1 ∧ (pairAt .print 1 true).pair.laneReady ≠ 0 ∧ (pairAt .print 2 true).pair.state = 2 ∧
    (pairAt .print 3 true).pair.state = 3 ∧ field ((List.replicate 24 0) ++ [1]) 24 1 ≠ (pairAt .print 3 true).get R.TSL_STAT_SIDE ∧
    (pairAt .print 4 true).pair.state = 4 ∧ 17 % 16 ≠ 0 ∧ Nat.land (pairAt .print 4 true).pair.lanes (17 % 16) ≠ (pairAt .print 4 true).pair.lanes ∧
    bit (pairAt .print 4 true).pair.lanes 2 = true ∧ clrBit (pairAt .print 4 true).pair.lanes 2 ≠ 0 ∧ clrBit 1 0 = 0 ∧
    (pairAt .print 4 true).pair.liveI ≠ true ∧ heldAt.pair.held.contains (7, 1) = false ∧ heldAt.pair.held.contains (7, 2) = true ∧
    heldAt.theirOcrc 7 = none ∧ heldAt.cline 2 7 = some ⟨7, 1, 0, 0, [], 0, false, []⟩ := by decide

/-- A standby in a phase of its join, and one that hears PAIR_LIVE_I. -/
def joinAt (j : Nat) : State :=
  { up .shadow with primary := false, pair := { State.reset.pair with state := 4, lanes := 1, join := j } }
def heardAt (x : Nat) : State :=
  { pairAt .shadow 4 false with now := 1000000, pair := { (pairAt .shadow 4 false).pair with peerT := some 0, liveT := some x } }
def matchedAt : State :=
  { joinAt 1 with pair := { (joinAt 1).pair with ident := some ((joinAt 1).identBody.take 24 ++ [1, 0, 1]) } }

theorem witness_loss : (pairAt .print 4 true).pair.peerT = none ∧ (heardAt 0).pair.peerT ≠ none ∧ (heardAt 0).synced = true ∧
    (heardAt 0).primary = false ∧ (heardAt 0).mode = .shadow ∧ 0 + (heardAt 0).detectTime ≤ (heardAt 0).now ∧
    (heardAt 999999).now < 999999 + (heardAt 999999).detectTime ∧ (joinAt 1).helloBad ≠ 0 ∧ (joinAt 1).pair.join = 1 ∧ (joinAt 1).primary = false ∧
    (joinAt 1).running = true ∧ matchedAt.pair.join = 1 ∧ matchedAt.helloBad = 0 ∧ (joinAt 4).pair.join = 4 ∧ (joinAt 5).pair.join = 5 := by decide

/-- A primary whose standby is in step. -/
def syncedAt (armed : Bool) : State :=
  let s := sets (pairAt .print 4 true) [(R.TSL_CFG_PAIR_EN, 1), (R.TSL_STAT_HB_OK, 1)]
  { s with path := { s.path with armed := armed }, pair := { s.pair with logOpen := true, peerHb := some [0, 0, 0x20, 0, 0, 0] } }

theorem witness_pair_commands :
    waits (has (pairAt .idle 4 true) opPAIR_JOIN []) (cmd opPAIR_JOIN) opPAIR_JOIN = true ∧
    (pairAt .print 4 true).primary = true ∧
    waits (has { pairAt .idle 4 false with synced := false } opPAIR_JOIN []) (cmd opPAIR_JOIN) opPAIR_JOIN = true ∧
    (sets (pairAt .idle 4 false) [(R.TSL_CFG_PAIR_EN, 1)]).flag R.TSL_CFG_PAIR_EN = true ∧ (pairAt .idle 4 false).pairUp = true ∧
    (pairAt .idle 3 false).pairUp = false ∧
    waits (has (syncedAt true) opPAIR_SWITCHOVER (List.replicate 8 0)) (cmd opPAIR_SWITCHOVER) opPAIR_SWITCHOVER = true ∧
    waits (has (syncedAt false) opPAIR_SWITCHOVER (List.replicate 8 0)) (cmd opPAIR_SWITCHOVER) opPAIR_SWITCHOVER = true ∧
    (let s := has (syncedAt true) opPAIR_SWITCHOVER (List.replicate 8 0)
     s.primary = true ∧ s.flag R.TSL_CFG_PAIR_EN = true ∧ s.pairUp = true ∧ s.pairSynced = true ∧ s.logOpen = true ∧ s.trans = false ∧
       s.peerTrans = false ∧ s.pair.switchAt = none ∧ s.path.armed = true ∧ resv (s.payloadOf (cmd opPAIR_SWITCHOVER)) [(1, 2)] = false ∧
       field (s.payloadOf (cmd opPAIR_SWITCHOVER)) 0 1 = 0 ∧ field (s.payloadOf (cmd opPAIR_SWITCHOVER)) 3 5 = 0) ∧
    waits (has (pairAt .print 4 true) opPAIR_LEAVE []) (cmd opPAIR_LEAVE) opPAIR_LEAVE = true ∧
    waits (has (pairAt .shadow 4 false) opPAIR_LEAVE []) (cmd opPAIR_LEAVE) opPAIR_LEAVE = true ∧ (pairAt .shadow 4 false).pair.join = 0 := by decide

/-! ## Witnesses: host interface, faults, interrupts, DRAM, network time -/

/-- All six cores at work. -/
def cores (s : State) : State := sets s ((List.range 6).map (fun (c : Nat) => (R.HIC_CORE_PARTED c, 0)))

/-- ECHO written into slot 63 with PCIe up, not yet rung. -/
def slotWritten : State :=
  let s := has (up .idle) 0 []
  { s.putBytes (0x40100000 + 63 * 0x100) (toBytes 2 opECHO ++ [7, 0] ++ toBytes 2 0 ++ List.replicate 10 0) with mbx := { s.mbx with cmds := [], pcieUp := true, lost := 0 } }

theorem witness_doorbells : slotWritten.isLocked ⟨.bar, 63⟩ = false ∧ field (slotWritten.slotBytes ⟨.bar, 63⟩) 6 1 < 4 ∧
    field (slotWritten.slotBytes ⟨.bar, 63⟩) 7 1 < 64 ∧ field (slotWritten.slotBytes ⟨.bar, 63⟩) 8 8 = 0 ∧
    field (slotWritten.slotBytes ⟨.bar, 63⟩) 4 2 ≤ 240 ∧ (cmdInfo (field (slotWritten.slotBytes ⟨.bar, 63⟩) 0 2)).isSome = true ∧
    plenOk (field (slotWritten.slotBytes ⟨.bar, 63⟩) 0 2) (field (slotWritten.slotBytes ⟨.bar, 63⟩) 4 2) [] = true ∧ slotWritten.mbx.cmds = [] ∧
    slotWritten.mbx.tags = [] ∧ slotWritten.admission (field (slotWritten.slotBytes ⟨.bar, 63⟩) 0 2) [] = 0 ∧
    slotWritten.conflicts (field (slotWritten.slotBytes ⟨.bar, 63⟩) 0 2) = false ∧ slotWritten.running = true ∧ slotWritten.mbx.pcieUp = true ∧
    slotWritten.serving = true ∧ State.reset.serving = false ∧ State.reset.running = true ∧ (up .idle).mbx.pcieUp = false ∧
    ((up .idle).setLock ⟨.bar, 63⟩ true).isLocked ⟨.bar, 63⟩ = true ∧ (up .idle).mbx.resetPending = none := by decide

/-- A message gap of vector 3 with a message merged in it; a long command that runs. -/
def gapAt (due : Bool) : State := { up .idle with mbx := { (up .idle).mbx with gaps := [(3, due)] } }
/-- The host has masked vector 3. -/
def maskedAt : State := (gapAt true).put (wordFld 0x4010603C) 1
def longAt (c : Cmd) : State := { up .idle with mbx := { (up .idle).mbx with cmds := [{ c with running := true }] } }

theorem witness_host_events : (gapAt true).mbx.gaps.find? (fun g => g.1 == 3) = some (3, true) ∧ (gapAt true).running = true ∧ (gapAt true).msixMasked 3 = false ∧
    maskedAt.mbx.gaps.find? (fun g => g.1 == 3) = some (3, true) ∧ maskedAt.msixMasked 3 = true ∧
    (gapAt false).mbx.gaps.find? (fun g => g.1 == 3) = some (3, false) ∧
    (longAt (cmd opECHO)).mbx.cmds.find? (fun d => d.ref == (⟨.bar, 0⟩ : SlotRef) && d.running) = some { cmd opECHO with running := true } ∧
    (longAt (cmdU opECHO)).mbx.cmds.find? (fun d => d.ref == (⟨.udp, 0⟩ : SlotRef) && d.running) = some { cmdU opECHO with running := true } ∧
    (cmd opECHO).discard = false ∧ (longAt (cmd opECHO)).mbx.resetPending = none ∧ (longAt (cmd opECHO)).mbx.lost = 0 ∧
    (longAt (cmd opECHO)).cqRoom = true ∧ (longAt { cmd opECHO with discard := true }).mbx.cmds.map (fun d => d.discard) = [true] := by decide

/-- A masked vector waits in the pending bits and leaves when the host unmasks it. -/
theorem test_msix_mask : ((maskedAt.put R.MBX_IRQMOD_GAP 0).sendIrq 5).out.head? = some (.msix 5) ∧
    ((maskedAt.put R.MBX_IRQMOD_GAP 0).sendIrq 3).get (pbaFld 3) = 8 ∧
    ((((maskedAt.put R.MBX_IRQMOD_GAP 0).sendIrq 3).put (wordFld 0x4010603C) 0).msixTable 3).out.head? = some (.msix 3) := by decide

/-- A session with one host; its BIL datagram of one part. -/
def sessAt : State :=
  sets (up .idle) [(R.MBX_UDP_CFG_EN, 1), (R.MBX_UDP_CFG_INGEST, 1), (R.MBX_UDP_SESS_OPEN, 1), (R.MBX_UDP_SESS_SESSION, 9),
    (R.MBX_UDP_HOST_ADDR, 1), (R.MBX_UDP_SESS_PORT, 1)]
def bilBytes : List Nat :=
  let body := [0, 0, 1, 0, 0, 0, 0, 0] ++ toBytes 2 64 ++ List.replicate 22 0 ++ [0xAB]
  let h := toBytes 2 0x5547 ++ [1, 4] ++ toBytes 2 9 ++ toBytes 2 33 ++ [0, 0, 0, 0]
  h ++ toBytes 4 (crc32c (h ++ [0, 0, 0, 0] ++ body)) ++ body

set_option maxRecDepth 20000 in
theorem witness_udp : (up .idle).flag R.MBX_UDP_CFG_EN = false ∧ sessAt.running = true ∧
    field bilBytes 0 2 = 0x5547 ∧ field bilBytes 2 1 = 1 ∧ field bilBytes 3 1 = 4 ∧ field bilBytes 6 2 = (bilBytes.drop 16).length ∧
    field bilBytes 12 4 = crc32c (bilBytes.take 12 ++ [0, 0, 0, 0] ++ bilBytes.drop 16) ∧ 32 ≤ (bilBytes.drop 16).length ∧
    sessAt.flag R.MBX_UDP_CFG_EN = true ∧ sessAt.flag R.MBX_UDP_SESS_OPEN = true ∧ field bilBytes 4 2 = sessAt.get R.MBX_UDP_SESS_SESSION ∧
    sessAt.get R.MBX_UDP_HOST_ADDR = 1 ∧ sessAt.get R.MBX_UDP_SESS_PORT = 1 ∧ sessAt.flag R.MBX_UDP_CFG_INGEST = true ∧
    field ((bilBytes.drop 16).take 32) 2 2 = ((bilBytes.drop 16).drop 32).length ∧ field ((bilBytes.drop 16).take 32) 4 4 = 0 ∧
    sessAt.store.bils = [] ∧ sessAt.store.flights = [] := by decide +kernel

theorem witness_udp_commands :
    ({ sessAt with store := { sessAt.store with bils := [⟨1, [], 64, [(0, [1])], 0⟩] } } : State).store.bils.find? (fun (a : BilAsm) => !a.whole)
      = some ⟨1, [], 64, [(0, [1])], 0⟩ ∧
    waits (has sessAt opUDP_OPEN []) (cmd opUDP_OPEN) opUDP_OPEN = true ∧ waits (has sessAt opUDP_CLOSE []) (cmd opUDP_CLOSE) opUDP_CLOSE = true ∧
    waits (hasU sessAt opUDP_OPEN []) (cmdU opUDP_OPEN) opUDP_OPEN = true ∧ waits (hasU sessAt opUDP_CLOSE []) (cmdU opUDP_CLOSE) opUDP_CLOSE = true ∧
    sessAt.get R.MBX_UDP_HOST_ADDR = field { cmdU opUDP_OPEN with atTake := [1, 0, 0, 0, 1] }.atTake 0 4 ∧ (up .idle).flag R.MBX_UDP_SESS_OPEN = false := by decide

theorem witness_registers : 0x200FFFFF / 4 * 4 < 0x40100000 ∧ (0x40200000 ≤ 0x40200000 / 4 * 4 ∧ 0x40200000 / 4 * 4 < 0x200000000) ∧
    ((up .idle).setLock ⟨.bar, 63⟩ true).bitIn R.MBX_SLOTS_LOCKED ((0x40103FFC / 4 * 4 - 0x40100000) / 0x100) = true ∧
    (0x200000000 ≤ 0x200FFFFFF / 4 * 4 ∧ 0x200FFFFFF / 4 * 4 < 0x201000000) ∧ (up .idle).coreRuns 6 = false ∧ (cores (up .idle)).coreRuns 0 = true ∧
    (up .idle).denied 0 0x20000000 .write = true ∧ (up .idle).denied 0 0x40001000 .write = false ∧ isOpenCore 0 = false ∧ logged 0x40001000 = false := by
  decide

theorem witness_register_commands :
    waits (has (up .idle) opREG_READ (toBytes 4 0x40001000 ++ toBytes 4 0x10000000)) (cmd opREG_READ) opREG_READ = true ∧
    readable 0x40001000 = true ∧ readable 0x10000000 = false ∧
    waits (has (up .idle) opREG_WRITE (toBytes 4 0x40200000 ++ toBytes 4 1)) (cmd opREG_WRITE) opREG_WRITE = true ∧
    writable 0x40200000 = true ∧ writable 0x10000000 = false ∧
    waits (has (up .idle) opBLOCK_READ (toBytes 4 0x40001000 ++ toBytes 4 1 ++ toBytes 8 64)) (cmd opBLOCK_READ) opBLOCK_READ = true ∧
    waits (has (up .idle) opBLOCK_READ (toBytes 4 0x10000000 ++ toBytes 4 1 ++ toBytes 8 64)) (cmd opBLOCK_READ) opBLOCK_READ = true := by decide

/-- 64 keys, none of them of serial 0. -/
def keysAt : State := { up .idle with flash := { State.reset.flash with usageKeys := (List.range 64).map (fun (k : Nat) => (k + 1, 5)) } }

theorem witness_service :
    waits (has (up .idle) opIDENTIFY []) (cmd opIDENTIFY) opIDENTIFY = true ∧ waits (has (up .idle) opECHO [1, 2, 3]) (cmd opECHO) opECHO = true ∧
    waits (has (up .print) opSNAPSHOT (List.replicate 8 0)) (cmd opSNAPSHOT) opSNAPSHOT = true ∧
    waits (has (sets (up .print) [(R.CNT_SNAP_PENDING, 1)]) opSNAPSHOT (1 :: List.replicate 7 0)) (cmd opSNAPSHOT) opSNAPSHOT = true ∧
    (up .print).flag R.CNT_SNAP_PENDING = false ∧ (up .print).path.armed = false ∧ printAt.path.armed = true ∧
    waits (has (up .idle) opDROP_READ ([0, 0, 0, 0] ++ toBytes 4 0 ++ toBytes 4 196608 ++ List.replicate 12 0)) (cmd opDROP_READ) opDROP_READ = true ∧
    ((up .idle).bankOf 0).complete = false ∧
    ({ up .idle with acct := { State.reset.acct with bank0 := { complete := true } } }.bankOf 0).complete = true ∧
    waits (has (up .idle) opJOURNAL_READ (toBytes 8 64 ++ toBytes 4 64 ++ [0, 0, 0, 0])) (cmd opJOURNAL_READ) opJOURNAL_READ = true ∧
    waits (has (up .idle) opFAULT_CLEAR (List.replicate 8 255)) (cmd opFAULT_CLEAR) opFAULT_CLEAR = true ∧
    waits (has keysAt opUSAGE_KEY (List.replicate 48 0)) (cmd opUSAGE_KEY) opUSAGE_KEY = true ∧
    64 ≤ (keysAt.flash.usageKeys.filter (fun (e : Nat × Nat) => e.1 != 0)).length ∧
    (keysAt.flash.usageKeys.filter (fun (e : Nat × Nat) => e.1 != 1)).length < 64 ∧
    waits (has (up .idle) opSOFT_RESET (toBytes 4 0x5AA5)) (cmd opSOFT_RESET) opSOFT_RESET = true := by decide

/-- Camera unit 1 of PTP parted; the same with two restorations behind it. -/
def partedAt (n : Nat) : State :=
  let s := sets (up .idle) [(R.FLT_QUIET_HOLD_N, n)]
  { s with acct := { s.acct with parted := [⟨45, 1, 2, false, false⟩], restored := [(45, 0), (45, 0)] } }

theorem witness_faults : (up .print).running = true ∧ (48 ≤ 48 ∧ 56 ≤ 56 ∧ 50 ≠ 51) ∧ (up .print).bitIn R.FLT_CHIP_CHIP 48 = true ∧
    (up .print).bitIn R.FLT_CHIP_CHIP 51 = true ∧ (up .print).mode ≠ .safe ∧ (up .safe).mode = .safe ∧
    (up .print).bitIn R.FLT_CHIP_CHIP 45 = false ∧ (up .print).unitParted 45 1 = false ∧ (up .print).flag R.FLT_FIRST_VALID = false ∧
    (sets (up .print) [(R.FLT_FIRST_VALID, 1)]).flag R.FLT_FIRST_VALID = true := by decide

theorem witness_restoration : (up .idle).acct.parted.find? (fun (u : PartedUnit) => u.src == 45 && u.unit == 1) = none ∧
    (partedAt 0).acct.parted.find? (fun (u : PartedUnit) => u.src == 45 && u.unit == 1) = some ⟨45, 1, 2, false, false⟩ ∧ (partedAt 0).running = true ∧
    (partedAt 0).restorable ⟨45, 1, 2, false, false⟩ = true ∧ (partedAt 0).restorable ⟨45, 1, 2, true, false⟩ = false ∧
    (partedAt 0).get R.FLT_QUIET_HOLD_N = 0 ∧ (partedAt 2).get R.FLT_QUIET_HOLD_N ≠ 0 ∧
    (partedAt 2).get R.FLT_QUIET_HOLD_N ≤ (partedAt 2).recentRestores 45 ∧ (partedAt 2).restorable ⟨45, 1, 2, false, false⟩ = true ∧
    (56 < 57 ∧ 57 ≤ 63 ∧ 63 < 64) ∧ bit (2 ^ 56) 56 = true ∧ bit (2 ^ 56) 55 = false ∧
    (partedAt 0).acct.parted.any (fun (u : PartedUnit) => u.src == 45 && u.asserted) = false := by decide

theorem witness_snapshots : bit 2 0 = false ∧ bit 3 0 = true ∧ bit 3 1 = true ∧ printAt.flag R.CNT_SNAP_PENDING = false ∧ printAt.running = true ∧
    ({ up .idle with acct := { State.reset.acct with busy := some 1 } } : State).acct.busy = some 1 ∧
    (up .idle).flag R.CNT_DRAIN_BUSY = false ∧ (sets (up .idle) [(R.CNT_DRAIN_BUSY, 1)]).flag R.CNT_DRAIN_BUSY = true := by decide

/-- Source 191 pending, enabled and routed to core 3; in service there. -/
def hicAt : State := sets (cores (up .idle)) [(R.HIC_ROUTE_CORE 191, 3), (R.HIC_ROUTE_CUR 191, 3), (R.HIC_ROUTE_CLAIMER 191, 3), (R.HIC_ROUTE_ALT 191, 5)]
def pendAt : State := sets hicAt [(R.HIC_PEND_PEND 5, 2 ^ 31), (R.HIC_EN_EN 5, 2 ^ 31)]

theorem witness_hic : (up .idle).coreRuns 6 = false ∧ (cores (up .idle)).coreRuns 3 = true ∧ (cores (up .idle)).coreRuns 5 = true ∧
    (128 ≤ 128 ∧ 191 ≤ 191 ∧ 3 < 4 ∧ 176 ≤ 176) ∧ (127 < 128 ∧ 191 < 192 ∧ 175 < 176 ∧ 4 ≤ 4) ∧ hicExists 191 = true ∧ hicExists 511 = false ∧
    pendAt.deliverable 191 3 = true ∧ (up .idle).deliverable 191 3 = false ∧ (up .idle).isLevel 191 = false ∧ (up .idle).isLevel 127 = false := by decide

/-- Level sources, and the end of a service. -/
def servedAt : State := sets hicAt [(R.HIC_INSVC_INSVC 5, 2 ^ 31)]

theorem witness_service_ends : (2 ^ 31 + 191) % 512 = 191 ∧ hicExists 191 = true ∧ servedAt.insvc 191 = true ∧
    servedAt.get (R.HIC_ROUTE_CLAIMER 191) = 3 ∧ servedAt.running = true ∧ servedAt.coreRuns 3 = true ∧ bit (2 ^ 31 + 191) 31 = true ∧
    servedAt.get (R.HIC_ROUTE_CLAIMER 191) ≠ 2 ∧ hicExists 192 = false ∧ servedAt.insvc 190 = false ∧
    (sets servedAt [(R.HIC_ROUTE_LEVEL 15, 1)]).isLevel 15 = true := by decide

/-- Core 3 asleep with source 191 waiting for it; timer 15 come to its compare value; core 4 reaches outside its rights. -/
def asleepAt : State :=
  let s := sets pendAt [(R.HIC_CORE_SLEEP 3, 1)]
  { s with hic := { s.hic with redirect := [191] } }
def timerAt (period : Nat) : State :=
  let s := sets (up .idle) [(R.HIC_TMR_CTRL_EN 15, 1), (R.HIC_TMR_PERIOD_PERIOD 15, period)]
  { s with time40 := 5 }

theorem witness_hic_events : (cores (up .idle)).coreRuns 3 = true ∧ (cores (up .idle)).coreRuns 4 = true ∧ 15 < 16 ∧ bit (up .idle).hic.extLevel 15 = false ∧
    (sets (up .idle) [(R.HIC_ROUTE_LEVEL 15, 0), (R.HIC_EXT_SENSE 15, 2)]).isLevel 15 = false ∧ asleepAt.curCore 191 = some 3 ∧ asleepAt.hic.redirect.contains 191 = true ∧ asleepAt.deliverable 191 3 = true ∧
    asleepAt.coreAsleep 3 = true ∧ asleepAt.get (R.HIC_ROUTE_ALT 191) < 6 ∧ (timerAt 0).flag (R.HIC_TMR_CTRL_EN 15) = true ∧
    0 ≤ sdiff40 (timerAt 0).time40 ((timerAt 0).get (R.HIC_TMR_CMP_CMP 15)) ∧ (timerAt 0).get (R.HIC_TMR_PERIOD_PERIOD 15) = 0 ∧
    (timerAt 7).get (R.HIC_TMR_PERIOD_PERIOD 15) = 7 ∧ (up .idle).flag (R.HIC_TMR_CTRL_EN 15) = false ∧
    (up .idle).denied 4 0x20000000 .write = true ∧ (up .idle).denied 0 0x40001000 .read = false ∧ (up .idle).coreRuns 6 = false ∧
    (up .idle).flag R.HIC_AVIOL_INFO_VALID = false ∧ (sets (up .idle) [(R.HIC_AVIOL_INFO_VALID, 1)]).flag R.HIC_AVIOL_INFO_VALID = true := by decide

theorem witness_sleep : (cores (up .idle)).running = true ∧ (cores (up .idle)).coreRuns 2 = true ∧
    ∀ src, hicExists src = true → (cores (up .idle)).deliverable src 2 = false := by
  refine ⟨by decide, by decide, fun src h => ?_⟩
  simp only [hicExists, decide_eq_true_eq] at h
  have : ∀ w < 6, (cores (up .idle)).get (R.HIC_PEND_PEND w) = 0 := by decide
  simp [State.deliverable, State.pend, State.bitIn, this (src / 32) (by omega), bit]

/-- Channel 3 runs with two ranks; its alert line low; its third replay just done. -/
def dramAt : State :=
  let s := sets (up .idle) [(R.DRC_CH_STAT_STATE 3, 2), (R.DRC_CH_SIZE_MB 3, 4096), (R.DRC_CTRL_SCRUB_EN, 1)]
  { s with flash := { s.flash with bytes := [(0x50005, 2)] }, drc := { s.drc with layout := [3] } }
def alertAt (low : Bool) (n : Nat) : State :=
  { dramAt with now := 100, drc := { dramAt.drc with chans := List.replicate 3 {} ++ [{ low := low, attempt := n, replayT := 40, cmds := [(1, 7)] }] } }

theorem witness_dram : (up .idle).dramRuns 3 = false ∧ dramAt.dramRuns 3 = true ∧ 1 < field dramAt.dramDesc 5 1 ∧ dramAt.running = true ∧
    3 < dramAt.drc.chans.length ∧ (dramAt.chan 3).attempt = 0 ∧ (alertAt false 3).dramRuns 3 = true ∧ 3 ≤ ((alertAt false 3).chan 3).attempt ∧
    (alertAt false 3).now ≤ ((alertAt false 3).chan 3).replayT + 64 ∧ ((alertAt false 2).chan 3).attempt < 3 ∧
    ((alertAt false 0).chan 3).low = false ∧ ((alertAt true 1).chan 3).low = true ∧ dramAt.flag R.DRC_CTRL_SCRUB_EN = true ∧
    dramAt.drc.layout.contains 3 = true ∧ (4096 * 2 ^ 20 - 65) / 64 * 64 + 64 < dramAt.get (R.DRC_CH_SIZE_MB 3) * 2 ^ 20 ∧
    (∀ w ∈ ([0, 0, 0, 0] : List Nat).take 4, eccJudge w = .clean) ∧ eccJudge 5 = .fixed 0 5 ∧ dramAt.relayoutOk = false ∧
    (sets dramAt [(R.DRC_STAT_RELAYOUT_DUE, 1)]).relayoutOk = true := by decide

/-- Port 0 of network time is SLAVE and port 1 MASTER. -/
def ptpAt : State :=
  let s := sets (up .idle) [(R.TMB_CFG_P0EN, 1), (R.TMB_CFG_P1EN, 1), (R.TMB_STAT_STATE, 2)]
  { s with tmb := { s.tmb with ports := [1, 2], heard := [some goodAnnounce, none], delay := [some 100, none], meanDone := true } }

theorem witness_ptp : (up .idle).ptpEnabled 0 = false ∧ (up .idle).ptpEnabled 1 = false ∧ ptpAt.ptpEnabled 0 = true ∧ ptpAt.running = true ∧
    ptpAt.ptpBad { goodAnnounce.head with version := 1 } (-3) 4 = true ∧ ptpAt.ptpBad goodAnnounce.head (-3) 4 = false ∧
    ptpAt.ptpBad { goodDelay.head with logInterval := -8 } (-7) 5 = true ∧ ptpAt.ptpBad goodDelay.head (-7) 5 = false ∧
    ptpAt.ptpBad { goodSync.head with logInterval := 2 } (-7) 1 = true ∧ ptpAt.ptpBad goodSync.head (-7) 1 = false ∧
    (ptpAt.tmb.heard.getD 0 none).isSome = true ∧ ptpAt.tmb.ports.getD 0 0 = 1 ∧ ptpAt.tmb.ports.getD 1 0 ≠ 1 ∧
    ptpAt.tmb.delay.getD 0 none = some 100 ∧
    ({ ptpAt with tmb := { ptpAt.tmb with heard := [none, none] } } : State).bestPort = none ∧
    ({ ptpAt with tmb := { ptpAt.tmb with heard := [none, some goodAnnounce] } } : State).bestPort ≠ none ∧
    ptpAt.get R.TMB_STAT_STATE = 2 ∧ ptpAt.tmb.meanDone = true ∧ ptpAt.tmb.large < 3 ∧ 1000000 * 65536 < (-(1000000 * 65536 + 1) : Int).natAbs ∧
    (1000000 * 65536 : Int).natAbs ≤ 1000000 * 65536 ∧ (up .idle).get R.TMB_CFG_P0EN ≠ 1 % 2 := by decide

theorem witness_ptp_config :
    waits (has (up .idle) opPTP_CONFIG ([15, 3, 0, 0] ++ List.replicate 20 0)) (cmd opPTP_CONFIG) opPTP_CONFIG = true ∧
    waits (has (up .idle) opPTP_CONFIG ([0, 4, 0, 0] ++ List.replicate 20 0)) (cmd opPTP_CONFIG) opPTP_CONFIG = true := by decide

/-! ## Witnesses: motion, jobs, classes, calibration, maintenance -/

/-- Axis 7 in a state. -/
def axisAt (m : Mode) (a : Axis) : State := { up m with axes := List.replicate 7 {} ++ [a] }

theorem witness_profile : (axisAt .print {}).running = true ∧ (∀ n, n < 8 → ((axisAt .print {}).axis n).run = .rest) ∧
    ({ goal := 8, speed := 1, acc := 1 } : Axis).overrun = false ∧ (0 : Rat) ≤ ({ goal := 8, speed := 1, acc := 1 } : Axis).speed ∧
    ({ goal := 8, speed := 1, acc := 1 } : Axis).vel = 0 ∧ ({ goal := 8, speed := 1, acc := 1 } : Axis).pos ≤ ({ goal := 8, speed := 1, acc := 1 } : Axis).goal ∧
    ((axisAt .print { wait := [(0, .stop false)] }).axis 7).wait = [(0, .stop false)] ∧ reached40 0 (axisAt .print {}).axTime = true ∧
    reached40 5 (axisAt .print {}).axTime = false := by decide +kernel

theorem witness_axis_events : (axisAt .print { run := .home true, fast := 100000000 }).mode ≠ .shadow ∧ ((axisAt .print { run := .home true }).axis 7).run = .home true ∧
    (axisAt .print { run := .home true, fast := 100000000 }).stallCounts 7 = true ∧ ((axisAt .print { run := .homeWait }).axis 7).run = .homeWait ∧
    ((axisAt .print { run := .homeWait }).axis 7).backoff = 0 ∧ ((axisAt .print { run := .homeWait, backoff := 9 }).axis 7).backoff ≠ 0 ∧
    (sets (axisAt .print {}) [(R.MOT_AX_STAT_FAULT 7, 1)]).flag (R.MOT_AX_STAT_FAULT 7) = true ∧ (axisAt .print {}).flag (R.MOT_AX_STAT_FAULT 7) = false ∧
    (axisAt .print {}).flag (R.MOT_SSI_CFG_EN 3) = false ∧ (sets (axisAt .print {}) [(R.MOT_SSI_CFG_EN 3, 1)]).flag (R.MOT_SSI_CFG_EN 3) = true ∧
    (∀ n, n < 8 → (sets (axisAt .print {}) [(R.MOT_SSI_CFG_EN 3, 1)]).get (R.MOT_AX_W0_SSI n) ≠ 3) ∧ (axisAt .print {}).flag (R.MOT_AX_CMD_DRV_EN 7) = false ∧
    (sets (axisAt .print { run := .move }) [(R.MOT_AX_CMD_DRV_EN 7, 1)]).flag (R.MOT_AX_CMD_DRV_EN 7) = true ∧
    ((axisAt .print { run := .move }).axis 7).run = .move ∧ ((axisAt .print { drvOff := true }).axis 7).drvOff = true ∧
    ((axisAt .print { drvOff := true }).axis 7).run = .rest ∧ (axisAt .print {}).flag (R.MOT_AX_W0_RETAIN 7) = false ∧
    (sets (axisAt .print {}) [(R.MOT_AX_W0_RETAIN 7, 1)]).flag (R.MOT_AX_W0_RETAIN 7) = true := by decide +kernel

/-- Sensor 3 serves axis 7. -/
def sensedAt (a : Axis) (l : List (Fld × Nat)) : State :=
  sets (axisAt .print a) ([(R.MOT_SSI_CFG_EN 3, 1), (R.MOT_AX_W0_SSI 7, 3), (R.MOT_AX_W12_SSI_SCALE 7, 65536)] ++ l)

theorem witness_sensor : (sensedAt {} []).running = true ∧ (sensedAt {} []).mode ≠ .shadow ∧ (sensedAt {} []).get (R.MOT_AX_W0_SSI 7) = 3 ∧
    (sensedAt {} []).flag (R.MOT_SSI_CFG_EN 3) = true ∧ ((sensedAt { rebase := true } []).axis 7).rebase = true ∧ ((sensedAt {} []).axis 7).run = .rest ∧
    (sensedAt {} [(R.MOT_AX_STAT_LOST 7, 0)]).flag (R.MOT_AX_STAT_LOST 7) = false ∧
    (sensedAt {} []).get (R.MOT_AX_W14_SSI_TOL 7) < ((sensedAt {} []).axPos 7 - 200).natAbs ∧
    ((sensedAt {} []).axPos 7 - 0).natAbs ≤ (sensedAt {} []).get (R.MOT_AX_W14_SSI_TOL 7) ∧ (sensedAt {} []).get (R.MOT_AX_W0_SSI 7) < 4 ∧
    4 ≤ (axisAt .print {}).get (R.MOT_AX_W0_SSI 7) ∧ ((axisAt .print { run := .move }).axis 7).run ≠ .rest := by decide +kernel

/-- Every axis at a known place. -/
def known (s : State) : State := sets s ((List.range 8).map (fun (n : Nat) => (R.MOT_AX_STAT_LOST n, 0)))
def moveBytes (tgt : Nat) : List Nat := [7, 0, 0, 0] ++ toBytes 4 tgt ++ List.replicate 12 0
def groupBytes : List Nat := [0x81, 0, 0, 0] ++ List.replicate 12 0 ++ toBytes 4 5 ++ List.replicate 24 0 ++ toBytes 4 9

theorem witness_move : waits (has (up .idle) opMOVE (moveBytes 5)) (cmd opMOVE) opMOVE = true ∧
    (up .idle).flag (R.MOT_AX_STAT_LOST 7) = true ∧ (has (up .idle) opMOVE (moveBytes 5)).arg (cmd opMOVE) 0 1 = 7 ∧
    (known (up .idle)).flag (R.MOT_AX_STAT_LOST 7) = false ∧
    (sets (known (up .idle)) [(R.MOT_AX_LIM_LO_LIM_LO 7, 0), (R.MOT_AX_LIM_HI_LIM_HI 7, 4)]).axRefuse 7 false 5 = 0x0142 ∧
    (sets (known (up .idle)) [(R.MOT_AX_LIM_LO_LIM_LO 7, 0), (R.MOT_AX_LIM_HI_LIM_HI 7, 5)]).axRefuse 7 false 5 = 0 ∧
    (known (up .idle)).axTaken 7 = false ∧ (known (up .idle)).axBusy 7 = false ∧ (known (axisAt .idle { run := .home true })).axBusy 7 = true := by
  decide +kernel

theorem witness_axis_commands :
    waits (has (known (up .idle)) opHOME ([7, 1] ++ List.replicate 10 0)) (cmd opHOME) opHOME = true ∧
    waits (has (known (up .idle)) opAXIS_STOP [255, 1, 0, 0]) (cmd opAXIS_STOP) opAXIS_STOP = true ∧ (up .idle).logOpen = false ∧
    waits (has (known (up .idle)) opMOVE_GROUP groupBytes) (cmd opMOVE_GROUP) opMOVE_GROUP = true ∧
    (let s := has (known (up .idle)) opMOVE_GROUP groupBytes
     (∀ i, i < 8 → bit (s.arg (cmd opMOVE_GROUP) 0 1) i = false → s.argS (cmd opMOVE_GROUP) (16 + 4 * i) = 0) ∧
     (∀ i ∈ members 8 0x81, s.axRefuse i false (if i = 0 then 5 else 9) = 0 ∧ s.axTaken i = false ∧ (s.axis i).run = .rest)) ∧
    (has (up .idle) opMOVE_GROUP groupBytes).axRefuse 0 false 5 ≠ 0 := by decide +kernel

/-- Job 3: bands 0 to 7, with one range; a job that may start. -/
def jobBytes (next n first : Nat) : List Nat := [3, 2 * next, n, 0] ++ toBytes 4 7 ++ List.replicate 8 0 ++ (List.replicate n (toBytes 4 first ++ toBytes 4 2)).flatten
def jobAt (tmin : Nat) : State :=
  let s := sets (up .idle) [(R.FIR_TMIN_TMIN_N, tmin)]
  { s with store := { s.store with cur := some ⟨⟨3, false, 7, 0, 0, []⟩, 0, false, false⟩ } }

theorem witness_jobs : waits (has (up .idle) opJOB_DEFINE (jobBytes 0 1 6)) (cmd opJOB_DEFINE) opJOB_DEFINE = true ∧ jobBad (jobBytes 0 1 6) = false ∧
    gapListBad (jobDefOf (jobBytes 0 1 6)) = false ∧ gapListBad (jobDefOf (jobBytes 0 1 7)) = true ∧ jobBad (jobBytes 1 0 0) = false ∧
    waits (has (up .print) opJOB_DEFINE (jobBytes 1 0 0)) (cmd opJOB_DEFINE) opJOB_DEFINE = true ∧ (up .print).curJob ≠ 3 ∧ (up .print).store.next = none ∧
    waits (has (jobAt 0) opJOB_START ([3, 0, 0, 0] ++ toBytes 4 7)) (cmd opJOB_START) opJOB_START = true ∧ (up .idle).jobNamed 3 = none ∧
    ((jobAt 0).jobNamed 3).map (fun (j : Job) => (j.d.continuous, j.d.lastBand)) = some (false, 7) ∧
    (jobAt 0).tmin ((jobAt 0).get R.FIR_CTRL_CLASS_SEL) = 0 ∧ (jobAt 9).tmin ((jobAt 9).get R.FIR_CTRL_CLASS_SEL) ≠ 0 ∧
    turns (has (up .idle) opJOB_STOP (List.replicate 8 0)) (cmd opJOB_STOP) opJOB_STOP = true ∧
    turns (has (up .print) opJOB_STOP (1 :: List.replicate 7 0)) (cmd opJOB_STOP) opJOB_STOP = true ∧
    turns (has (up .print) opJOB_ABORT []) (cmd opJOB_ABORT) opJOB_ABORT = true ∧ (up .idle).path.aborted = false ∧
    ({ up .idle with path := { State.reset.path with aborted := true } } : State).path.aborted = true ∧
    waits (has (up .idle) opJOB_PURGE [3, 0, 0, 0]) (cmd opJOB_PURGE) opJOB_PURGE = true := by decide

theorem witness_geometry_skew :
    waits (has (up .idle) opGEOMETRY_SET ([8, 0, 0, 0] ++ List.replicate 24 7)) (cmd opGEOMETRY_SET) opGEOMETRY_SET = true ∧
    (∀ e ∈ List.replicate 24 7, e = 0xFF ∨ e < 8) ∧ (∃ e ∈ List.replicate 24 8, e ≠ 0xFF ∧ 8 ≤ e) ∧ (up .idle).nPorts = 24 ∧
    waits (has (up .idle) opSKEW_SET ([23, 0, 0, 0] ++ toBytes 2 16383 ++ [63, 0] ++ List.replicate 8 0)) (cmd opSKEW_SET) opSKEW_SET = true ∧
    waits (has (up .idle) opSKEW_SET ([23, 0, 0, 0] ++ toBytes 2 16384 ++ [63, 0] ++ List.replicate 8 0)) (cmd opSKEW_SET) opSKEW_SET = true ∧
    waits (has skewAt opSKEW_SET ([23, 1, 0, 0] ++ toBytes 2 64 ++ [0, 0] ++ List.replicate 8 0)) (cmd opSKEW_SET) opSKEW_SET = true ∧
    skewAt.get (R.BLT_SKEW_SUBLINE 23) = 0 ∧ (sets skewAt [(R.BLT_SKEW_SUBLINE 23, 9)]).get (R.BLT_SKEW_SUBLINE 23) ≠ 0 ∧
    (sets skewAt [(R.BLT_SKEW_PEND_ARM 23, 1)]).flag (R.BLT_SKEW_PEND_ARM 23) = true := by decide

/-- A class whose tables keep R145 is staged: one pulse of 16 units for every size and band. -/
def stagedAt : State :=
  sets (up .idle) ((R.FIR_PHASE_OFF_N, 1280) :: (List.range 12).map (fun (i : Nat) => (R.FIR_WF_WIDTH 0 (i / 3) (i % 3) 0, 16)))

/-- A stage of class 1, size 3, with every waveform at its greatest. -/
def stageBytes (w : Nat) : List Nat :=
  [1, 3, 1, 0] ++ toBytes 2 1280 ++ [0, 0] ++ List.replicate 32 0 ++ (List.replicate 12 (toBytes 2 0 ++ toBytes 2 w)).flatten

set_option maxRecDepth 20000 in
theorem witness_classes :
    waits (has (up .idle) opWAVE_STAGE (stageBytes 4095)) (cmd opWAVE_STAGE) opWAVE_STAGE = true ∧ stageBad (stageBytes 4095) = false ∧
    stageBad (stageBytes 4096) = true ∧ waits (has stagedAt opWAVE_LOAD [0, 0, 0, 0]) (cmd opWAVE_LOAD) opWAVE_LOAD = true ∧
    stagedAt.load = none ∧ stagedAt.flag R.FIR_CTRL_PEND = false ∧ (stagedAt.staged 0).ok 0 = true ∧ (stagedAt.staged 1).ok 1 = false ∧
    (loadAt false).load ≠ none ∧
    waits (has (linked .idle) opHEAD_MEM_READ ([23, 0] ++ toBytes 2 0 ++ toBytes 2 240 ++ [0, 0])) (cmd opHEAD_MEM_READ) opHEAD_MEM_READ = true ∧
    (up .idle).linkUp 23 = false ∧ (linked .idle).linkUp 23 = true ∧ 128 < 0 + 240 ∧
    turns (has (up .shadow) opHEAD_MEM_READ ([23, 0] ++ toBytes 2 64 ++ toBytes 2 64 ++ [0, 0])) (cmd opHEAD_MEM_READ) opHEAD_MEM_READ = true ∧
    (has (up .shadow) opHEAD_MEM_READ ([23, 0] ++ toBytes 2 64 ++ toBytes 2 64 ++ [0, 0])).admission opHEAD_MEM_READ
      ((has (up .shadow) opHEAD_MEM_READ ([23, 0] ++ toBytes 2 64 ++ toBytes 2 64 ++ [0, 0])).payloadOf (cmd opHEAD_MEM_READ)) = 0 := by decide

set_option maxRecDepth 20000 in
theorem witness_inspection :
    waits (has (up .idle) opCAPTURE ([3, 1, 0, 0] ++ toBytes 4 4096 ++ toBytes 8 64)) (cmd opCAPTURE) opCAPTURE = true ∧ (up .idle).nCams = 4 ∧
    ({ up .idle with fuse := { State.reset.fuse with part12A := true } } : State).nCams ≤ 3 ∧
    (up .idle).flag (R.CAM_CAP_BUSY 3) = false ∧ (up .idle).flag (R.CAM_CFG_EN 3) = false ∧
    waits (has (up .idle) opSTATS_RING (toBytes 8 1024 ++ [4, 1, 0, 0])) (cmd opSTATS_RING) opSTATS_RING = true ∧
    waits (has (up .idle) opGRAIN_WRITE ([1, 0, 14, 0] ++ List.replicate 236 0)) (cmd opGRAIN_WRITE) opGRAIN_WRITE = true ∧
    waits (has (up .idle) opGRAIN_WRITE ([2, 0] ++ toBytes 2 4096 ++ List.replicate 12 0 ++ toBytes 8 64)) (cmd opGRAIN_WRITE) opGRAIN_WRITE = true ∧
    (up .idle).flag R.GMP_CSTAT_BUSY = false ∧ (sets (up .idle) [(R.GMP_CSTAT_BUSY, 1)]).flag R.GMP_CSTAT_BUSY = true := by decide

/-- A calibration run at a sweep and a step, or at its commit. -/
def calAt (b st : Nat) (committing : Bool) : State :=
  { up .calibrate with
    calRun := some ⟨2, 0, 0, b, st, 0, {}, [], List.replicate 32 0, 0, [], [], [], [], committing, false⟩
    mbx := { (up .calibrate).mbx with cmds := [{ cmd opCAL_START with running := true }] } }

theorem witness_calibration :
    waits (has (up .idle) opCAL_START (List.replicate 8 0)) (cmd opCAL_START) opCAL_START = true ∧
    waits (has (up .idle) opCAL_START ([2, 0, 7, 15] ++ List.replicate 4 0)) (cmd opCAL_START) opCAL_START = true ∧
    waits (has (up .idle) opCAL_START ([16, 0, 7, 15] ++ List.replicate 4 0)) (cmd opCAL_START) opCAL_START = true ∧
    (up .calibrate).calRun = none ∧ (calAt 0 1 true).calRun.map (fun (r : CalRun) => r.committing) = some true ∧
    (calAt 1 1 false).calRun.map (fun (r : CalRun) => (r.bit_, r.step, r.committing)) = some (1, 1, false) ∧
    (calAt 2 1 false).calRun.map (fun (r : CalRun) => (r.bit_, r.step)) = some (2, 1) ∧ (calAt 3 2 false).testLeft = 0 ∧
    (calAt 0 1 true).running = true ∧ (calAt 0 1 true).chuck.calBank ≠ some 0 ∧
    ({ (calAt 0 1 true) with chuck := { State.reset.chuck with calBank := some 0 } } : State).chuck.calBank = some 0 ∧
    waits (has (up .calibrate) opCAL_ABORT []) (cmd opCAL_ABORT) opCAL_ABORT = true ∧
    waits (has (calAt 1 1 false) opCAL_ABORT []) (cmd opCAL_ABORT) opCAL_ABORT = true ∧
    waits (has (up .idle) opCAL_STATUS []) (cmd opCAL_STATUS) opCAL_STATUS = true := by decide

/-- Sequence 15 in hand at a step; 29 steps defined. -/
def stepAt (t : MaintStep) : State :=
  { known (axisAt .maintain {}) with maint := { State.reset.maint with run := some [t, ⟨2, 0, 1⟩], seqs := [(15, [t])], axes := 0x80 } }
def stepBytes (op a8 : Nat) : List Nat := [15, 29] ++ List.replicate 6 0 ++ (List.replicate 29 [op, a8, 0, 0, 0, 0, 0, 0]).flatten

theorem witness_maintenance :
    waits (has (up .idle) opMAINT_DEFINE (stepBytes 1 7)) (cmd opMAINT_DEFINE) opMAINT_DEFINE = true ∧
    (∀ t ∈ maintSteps (stepBytes 1 7), t.bad = false ∧ t.op ≠ 5) ∧ (∃ t ∈ maintSteps (stepBytes 1 8), t.bad = true) ∧
    waits (has (up .idle) opMAINT_START [15, 0, 0, 0]) (cmd opMAINT_START) opMAINT_START = true ∧
    (up .idle).maint.seqs.find? (fun (e : Nat × List MaintStep) => e.1 == 15) = none ∧
    (stepAt ⟨1, 7, 0⟩).maint.seqs.find? (fun (e : Nat × List MaintStep) => e.1 == 15) = some (15, [⟨1, 7, 0⟩]) ∧
    (stepAt ⟨1, 7, 0⟩).mode = .maintain ∧ (stepAt ⟨1, 7, 0⟩).maint.ending = none ∧ (stepAt ⟨1, 7, 0⟩).maint.run = some [⟨1, 7, 0⟩, ⟨2, 0, 1⟩] ∧
    (stepAt ⟨1, 7, 0⟩).moveBad 7 = 0 ∧ (stepAt ⟨1, 7, 0⟩).axIdle 7 = true ∧ (stepAt ⟨1, 7, 0⟩).axPos 7 = signed 32 0 ∧
    ({ stepAt ⟨1, 7, 0⟩ with axes := List.replicate 7 {} ++ [{ run := .move }] } : State).axIdle 7 = false ∧
    ({ stepAt ⟨3, 1, 0⟩ with path := { State.reset.path with test := some (1, 0, 9) } } : State).testLeft ≠ 0 ∧
    ({ stepAt ⟨2, 0, 0⟩ with maint := { State.reset.maint with ending := some (0, 0) } } : State).maint.ending ≠ none ∧
    waits (has (stepAt ⟨2, 0, 9⟩) opMAINT_STOP []) (cmd opMAINT_STOP) opMAINT_STOP = true ∧
    (∀ n, n < 8 → bit (stepAt ⟨2, 0, 9⟩).maint.axes n = true → (stepAt ⟨2, 0, 9⟩).axIdle n = true) := by decide +kernel

theorem witness_test_lines : (up .calibrate).testLeft = 0 ∧
    (let s : State := { up .calibrate with path := { State.reset.path with test := some (0, 0, 9) }, line := { State.reset.line with lastB := some 5 } }
     s.sweeping = true ∧ s.testLeft ≠ 0 ∧ s.line.lastB = some 5) ∧
    (let s : State := { up .maintain with path := { State.reset.path with test := some (1, 0, 9) }, line := { State.reset.line with lastB := some 5 } }
     s.sweeping = false ∧ s.testLeft ≠ 0 ∧ s.line.lastB = some 5) := by decide

end Sys2Proof.Tests
end

/-! The end of a service (R326): which registers each part of a write of HIC_EOI can reach, and from there O49. -/

namespace Sys2Proof.Machine

/-! ## What a transaction of the interrupt controller writes -/

/-- From `s` to `t` only the fields `fs` and the interrupt controller's working state were written. -/
structure HicWrites (fs : List Fld) (s t : State) : Prop where
  kept : RegsKept fs s t
  rest : t = { s with regs := t.regs, hic := t.hic }

namespace HicWrites

theorem refl (fs : List Fld) (s : State) : HicWrites fs s s := ⟨fun _ _ => rfl, rfl⟩

theorem mono {fs gs : List Fld} {s t : State} (h : HicWrites fs s t) (hsub : fs ⊆ gs) : HicWrites gs s t :=
  ⟨fun f hf => h.kept f fun g hg => hf g (hsub hg), h.rest⟩

theorem trans {fs : List Fld} {s t u : State} (h : HicWrites fs s t) (g : HicWrites fs t u) : HicWrites fs s u := by
  refine ⟨fun f hf => (g.kept f hf).trans (h.kept f hf), ?_⟩
  have hu := g.rest
  rw [h.rest] at hu
  exact hu

/-- One transaction after the other reaches what either of them reaches. -/
theorem append {fs gs : List Fld} {s t u : State} (h : HicWrites fs s t) (g : HicWrites gs t u) : HicWrites (fs ++ gs) s u :=
  (h.mono (List.subset_append_left _ _)).trans (g.mono (List.subset_append_right _ _))

theorem put {fs : List Fld} (s : State) {f : Fld} (v : Nat) (h : f ∈ fs) : HicWrites fs s (s.put f v) :=
  ⟨fun _ hg => State.get_put_ne s v (hg f h), rfl⟩

theorem hic (fs : List Fld) (s : State) (m : Hic) : HicWrites fs s { s with hic := m } := ⟨fun _ _ => rfl, rfl⟩

theorem ite {fs : List Fld} {s t u : State} {c : Prop} [Decidable c] (h : HicWrites fs s t) (g : HicWrites fs s u) :
    HicWrites fs s (if c then t else u) := by split <;> assumption

/-- Where all the fields lie inside the controller's block, every register outside it is kept. -/
theorem keptOutside {fs : List Fld} {s t : State} (h : HicWrites fs s t) (hin : ∀ g ∈ fs, ¬ outside g.key) :
    RegsKeptOutside [] s t :=
  fun f hf _ => h.kept f fun g hg he => hin g hg (he ▸ hf)

end HicWrites

/-! ## Bits of the PEND and INSVC maps -/

/-- A source's bit written in a map of 32-bit words leaves the bit of every other source alone. -/
theorem State.bitIn_map_ne (s : State) {m : Nat → Fld} (hm : ∀ a b, a ≠ b → (m a).key ≠ (m b).key) (hw : ∀ a, (m a).width = 32)
    (b : Bool) {src d : Nat} (h : d ≠ src) :
    (if b then s.setIn (m (src / 32)) (src % 32) else s.clrIn (m (src / 32)) (src % 32)).bitIn (m (d / 32)) (d % 32)
      = s.bitIn (m (d / 32)) (d % 32) := by
  by_cases hd : d / 32 = src / 32
  · have hne : src % 32 ≠ d % 32 := by omega
    have hlt : d % 32 < (m (src / 32)).width := by rw [hw]; omega
    cases b <;> simp [State.bitIn, State.setIn, State.clrIn, hd, bit_mod hlt, bit_setBit_ne _ hne, bit_clrBit_ne _ hne]
  · cases b <;> simp [State.bitIn, State.setIn, State.clrIn, State.get_put_ne _ _ (hm _ _ hd)]

theorem State.putPend_pend_ne (s : State) (b : Bool) {src d : Nat} (h : d ≠ src) : (s.putPend src b).pend d = s.pend d :=
  s.bitIn_map_ne (m := R.HIC_PEND_PEND) (fun a b h => by simp only [Fld.key, R.HIC_PEND_PEND]; omega) (fun _ => rfl) b h

theorem State.putInsvc_insvc_ne (s : State) (b : Bool) {src d : Nat} (h : d ≠ src) : (s.putInsvc src b).insvc d = s.insvc d :=
  s.bitIn_map_ne (m := R.HIC_INSVC_INSVC) (fun a b h => by simp only [Fld.key, R.HIC_INSVC_INSVC]; omega) (fun _ => rfl) b h

/-- A service that is taken back is over. -/
theorem State.putInsvc_false_insvc (s : State) (src : Nat) : (s.putInsvc src false).insvc src = false := by
  have hlt : src % 32 < (R.HIC_INSVC_INSVC (src / 32)).width := Nat.mod_lt _ (by decide)
  simp [State.insvc, State.putInsvc, State.bitIn, State.clrIn, bit_mod hlt, bit_clrBit]

theorem State.putPend_writes (s : State) (src : Nat) (b : Bool) : HicWrites [R.HIC_PEND_PEND (src / 32)] s (s.putPend src b) := by
  cases b <;> exact HicWrites.put s _ (List.mem_singleton_self _)

theorem State.putInsvc_writes (s : State) (src : Nat) (b : Bool) : HicWrites [R.HIC_INSVC_INSVC (src / 32)] s (s.putInsvc src b) := by
  cases b <;> exact HicWrites.put s _ (List.mem_singleton_self _)

/-! ## The delivery of a source looked at again -/

/-- What looking at a source's delivery can write: where the source goes, and the sleep of the core it wakes. -/
def settleFlds (src : Nat) : List Fld := R.HIC_ROUTE_CUR src :: R.HIC_ROUTE_REDIR src :: (List.range 6).map R.HIC_CORE_SLEEP

theorem forall_mem_settleFlds {src : Nat} {P : Fld → Prop} :
    (∀ g ∈ settleFlds src, P g) ↔ P (R.HIC_ROUTE_CUR src) ∧ P (R.HIC_ROUTE_REDIR src) ∧ ∀ c < 6, P (R.HIC_CORE_SLEEP c) := by
  simp [settleFlds]

theorem State.wakeCore_writes (s : State) (src : Nat) {c : Nat} (h : c < 6) : HicWrites (settleFlds src) s (s.wakeCore c) := by
  obtain ⟨-, -, hsleep⟩ := forall_mem_settleFlds.1 fun g (hg : g ∈ settleFlds src) => hg
  exact (HicWrites.put s 0 (hsleep c h)).trans (HicWrites.hic _ _ _)

theorem State.settle_writes (s : State) (src : Nat) : HicWrites (settleFlds src) s (s.settle src) := by
  have refl := HicWrites.refl (settleFlds src)
  unfold State.settle
  split
  · split
    · exact refl s
    · rename_i c hc
      exact .ite (refl s) (.ite (s.wakeCore_writes src (State.curCore_lt hc)) (.ite (refl s) (.ite (refl s) (.hic _ s _))))
  · refine (HicWrites.hic _ s _).trans (.ite ?_ (refl _))
    exact (HicWrites.put _ _ (by simp [settleFlds])).trans (.put _ _ (by simp [settleFlds]))

theorem State.settle_pend (s : State) {src d : Nat} (hd : d < 192) : (s.settle src).pend d = s.pend d := by
  have hkeep : (s.settle src).get (R.HIC_PEND_PEND (d / 32)) = s.get (R.HIC_PEND_PEND (d / 32)) := by
    refine (s.settle_writes src).kept _ (forall_mem_settleFlds.2 ⟨?_, ?_, fun c hc => ?_⟩)
    all_goals
      simp only [Fld.key, R.HIC_PEND_PEND, R.HIC_ROUTE_CUR, R.HIC_ROUTE_REDIR, R.HIC_CORE_SLEEP]
      omega
  simp [State.pend, State.bitIn, hkeep]

/-- A ring makes no other source pending. -/
theorem State.ring_pend_ne (s : State) {src d : Nat} (hd : d < 192) (h : d ≠ src) : (s.ring src).pend d = s.pend d := by
  unfold State.ring
  split
  · rw [State.settle_pend _ hd, State.putPend_pend_ne _ _ h]
  · rfl

/-- What the delivery of a source can write once it is pending or its service has ended. -/
def deliveryFlds (core src : Nat) : List Fld := R.HIC_PEND_PEND (src / 32) :: R.HIC_CORE_INFAST core :: settleFlds src

theorem forall_mem_deliveryFlds {core src : Nat} {P : Fld → Prop} :
    (∀ g ∈ deliveryFlds core src, P g) ↔ P (R.HIC_PEND_PEND (src / 32)) ∧ P (R.HIC_CORE_INFAST core) ∧
      P (R.HIC_ROUTE_CUR src) ∧ P (R.HIC_ROUTE_REDIR src) ∧ ∀ c < 6, P (R.HIC_CORE_SLEEP c) := by
  simp only [deliveryFlds, List.forall_mem_cons, forall_mem_settleFlds]

theorem settleFlds_subset (core src : Nat) : settleFlds src ⊆ deliveryFlds core src := by simp [deliveryFlds]

/-- A key in the PEND words, or in the CORE and ROUTE words up to REDIR (bit 11) and beside BAD_EOI (bit 6). -/
def deliveryKey (k : Nat) : Prop :=
  (0x40000100 * 32 ≤ k ∧ k < 0x40000118 * 32) ∨ (0x40001800 * 32 ≤ k ∧ k < 0x40002300 * 32 ∧ k % 32 ≤ 11 ∧ k % 32 ≠ 6)

theorem deliveryFlds_key {core src : Nat} (hs : src < 192) (hc : core < 6) : ∀ g ∈ deliveryFlds core src, deliveryKey g.key := by
  refine forall_mem_deliveryFlds.2 ⟨?_, ?_, ?_, ?_, fun c hc => ?_⟩
  all_goals
    simp only [deliveryKey, Fld.key, R.HIC_PEND_PEND, R.HIC_CORE_INFAST, R.HIC_ROUTE_CUR, R.HIC_ROUTE_REDIR, R.HIC_CORE_SLEEP]
    omega

theorem deliveryFlds_inside {core src : Nat} (hs : src < 192) (hc : core < 6) : ∀ g ∈ deliveryFlds core src, ¬ outside g.key :=
  fun g hg => by
    have := deliveryFlds_key hs hc g hg
    unfold deliveryKey at this
    unfold outside
    omega

/-- A ring sets the source's own pending bit and looks at its delivery. -/
theorem State.ring_writes (s : State) (core src : Nat) : HicWrites (deliveryFlds core src) s (s.ring src) := by
  unfold State.ring
  split
  · have hpend : [R.HIC_PEND_PEND (src / 32)] ⊆ deliveryFlds core src := by simp [deliveryFlds]
    exact ((s.putPend_writes src true).mono hpend).trans ((State.settle_writes _ src).mono (settleFlds_subset core src))
  · exact HicWrites.refl _ s

/-- Delivery alone ends no service, counts nothing and rejects no write of HIC_EOI. -/
theorem HicWrites.delivery_keeps {s t : State} {core src : Nat} (h : HicWrites (deliveryFlds core src) s t) (hs : src < 192)
    (hc : core < 6) :
    (∀ d < 192, t.insvc d = s.insvc d) ∧ t.get (R.HIC_ROUTE_CLAIMER src) = s.get (R.HIC_ROUTE_CLAIMER src) ∧
      (∀ d, t.get (R.HIC_SPUR_COUNT d) = s.get (R.HIC_SPUR_COUNT d)) ∧
      t.get (R.HIC_CORE_BAD_EOI core) = s.get (R.HIC_CORE_BAD_EOI core) := by
  have apart {f : Fld} (hf : ¬ deliveryKey f.key) : t.get f = s.get f :=
    h.kept f fun g hg he => hf (he ▸ deliveryFlds_key hs hc g hg)
  refine ⟨fun d hd => ?_, apart ?_, fun d => apart ?_, apart ?_⟩
  · have : t.get (R.HIC_INSVC_INSVC (d / 32)) = s.get (R.HIC_INSVC_INSVC (d / 32)) :=
      apart (by simp only [deliveryKey, Fld.key, R.HIC_INSVC_INSVC]; omega)
    simp [State.insvc, State.bitIn, this]
  · simp only [deliveryKey, Fld.key, R.HIC_ROUTE_CLAIMER]; omega
  · simp only [deliveryKey, Fld.key, R.HIC_SPUR_COUNT]; omega
  · simp only [deliveryKey, Fld.key, R.HIC_CORE_BAD_EOI]; omega

/-! ## A write of HIC_EOI -/

/-- The service of a source taken back from its claimer, with its count where it was spurious. -/
def State.serviceEnded (s : State) (src : Nat) (spurious : Bool) : State :=
  let s := (s.putInsvc src false).put (R.HIC_ROUTE_CLAIMER src) 0
  if spurious then s.bump (R.HIC_SPUR_COUNT src) else s

/-- What follows the end of a service by `core`: a level is shown again, the source returns to its route (R327, R329). -/
def State.redelivered (s : State) (core src : Nat) : State :=
  let s := if s.isLevel src then s.putPend src (s.flag (R.HIC_EXT_LINE src)) else s
  let s := (s.put (R.HIC_ROUTE_CUR src) (s.routeTarget src)).put (R.HIC_ROUTE_REDIR src) 0
  let s := if s.servesFast core then s else s.put (R.HIC_CORE_INFAST core) 0
  s.settle src

/-- HIC_EOI is accepted from the claimer of a source in service (R326). -/
theorem State.eoi_claimer {s : State} {core v : Nat} (he : hicExists (v % 512) = true) (hi : s.insvc (v % 512) = true)
    (hc : s.get (R.HIC_ROUTE_CLAIMER (v % 512)) = core) :
    s.eoi core v = (s.serviceEnded (v % 512) (bit v 31)).redelivered core (v % 512) := by
  have hguard : (hicExists (v % 512) && s.insvc (v % 512) && (s.get (R.HIC_ROUTE_CLAIMER (v % 512)) == core)) = true := by
    simp [he, hi, hc]
  exact if_pos hguard

theorem State.eoi_other {s : State} {core v : Nat}
    (h : hicExists (v % 512) = false ∨ s.insvc (v % 512) = false ∨ s.get (R.HIC_ROUTE_CLAIMER (v % 512)) ≠ core) :
    s.eoi core v = s.hicStat (R.HIC_CORE_BAD_EOI core) := by
  have hguard : ¬ (hicExists (v % 512) && s.insvc (v % 512) && (s.get (R.HIC_ROUTE_CLAIMER (v % 512)) == core)) = true := by
    rcases h with h | h | h <;> simp [h]
  exact if_neg hguard

theorem State.redelivered_writes (s : State) (core src : Nat) : HicWrites (deliveryFlds core src) s (s.redelivered core src) := by
  have refl := HicWrites.refl (deliveryFlds core src)
  have hpend : [R.HIC_PEND_PEND (src / 32)] ⊆ deliveryFlds core src := by simp [deliveryFlds]
  have hcur : R.HIC_ROUTE_CUR src ∈ deliveryFlds core src := by simp [deliveryFlds, settleFlds]
  have hredir : R.HIC_ROUTE_REDIR src ∈ deliveryFlds core src := by simp [deliveryFlds, settleFlds]
  have hfast : R.HIC_CORE_INFAST core ∈ deliveryFlds core src := by simp [deliveryFlds]
  unfold State.redelivered
  refine HicWrites.trans ?_ ((State.settle_writes _ src).mono (settleFlds_subset core src))
  refine HicWrites.trans ?_ (.ite (refl _) (.put _ _ hfast))
  refine HicWrites.trans ?_ ((HicWrites.put _ _ hcur).trans (.put _ _ hredir))
  exact .ite ((s.putPend_writes src _).mono hpend) (refl s)

/-- What the end of a service itself writes. -/
def serviceFlds (src : Nat) : List Fld := [R.HIC_INSVC_INSVC (src / 32), R.HIC_ROUTE_CLAIMER src, R.HIC_SPUR_COUNT src]

theorem forall_mem_serviceFlds {src : Nat} {P : Fld → Prop} : (∀ g ∈ serviceFlds src, P g) ↔
    P (R.HIC_INSVC_INSVC (src / 32)) ∧ P (R.HIC_ROUTE_CLAIMER src) ∧ P (R.HIC_SPUR_COUNT src) := by
  simp [serviceFlds]

theorem serviceFlds_inside {src : Nat} (hs : src < 192) : ∀ g ∈ serviceFlds src, ¬ outside g.key := by
  refine forall_mem_serviceFlds.2 ?_
  simp only [outside, Fld.key, R.HIC_INSVC_INSVC, R.HIC_ROUTE_CLAIMER, R.HIC_SPUR_COUNT]
  omega

theorem State.serviceEnded_writes (s : State) (src : Nat) (b : Bool) : HicWrites (serviceFlds src) s (s.serviceEnded src b) := by
  unfold State.serviceEnded
  have hinsvc : [R.HIC_INSVC_INSVC (src / 32)] ⊆ serviceFlds src := by simp [serviceFlds]
  refine HicWrites.trans (((s.putInsvc_writes src false).mono hinsvc).trans (.put _ 0 ?_)) (.ite (.put _ _ ?_) (.refl _ _))
  · simp [serviceFlds]
  · simp [serviceFlds]

/-- Beside the bit in INSVC the end of a service moves CLAIMER and SPUR alone. -/
theorem State.serviceEnded_get (s : State) {src : Nat} (b : Bool) {f : Fld} (hclaim : f.key ≠ (R.HIC_ROUTE_CLAIMER src).key)
    (hspur : f.key ≠ (R.HIC_SPUR_COUNT src).key) : (s.serviceEnded src b).get f = (s.putInsvc src false).get f := by
  cases b <;> simp [State.serviceEnded, State.bump, State.get_put_ne _ _ hclaim, State.get_put_ne _ _ hspur]

theorem State.serviceEnded_insvc (s : State) {src d : Nat} (b : Bool) (hd : d < 192) :
    (s.serviceEnded src b).insvc d = (s.putInsvc src false).insvc d := by
  have : (s.serviceEnded src b).get (R.HIC_INSVC_INSVC (d / 32)) = (s.putInsvc src false).get (R.HIC_INSVC_INSVC (d / 32)) := by
    refine s.serviceEnded_get b ?_ ?_
    · simp only [Fld.key, R.HIC_INSVC_INSVC, R.HIC_ROUTE_CLAIMER]; omega
    · simp only [Fld.key, R.HIC_INSVC_INSVC, R.HIC_SPUR_COUNT]; omega
  simp [State.insvc, State.bitIn, this]

theorem State.serviceEnded_claimer (s : State) (src : Nat) (b : Bool) :
    (s.serviceEnded src b).get (R.HIC_ROUTE_CLAIMER src) = 0 := by
  have hspur : (R.HIC_ROUTE_CLAIMER src).key ≠ (R.HIC_SPUR_COUNT src).key := by
    simp only [Fld.key, R.HIC_ROUTE_CLAIMER, R.HIC_SPUR_COUNT]; omega
  cases b <;> simp [State.serviceEnded, State.bump, State.get_put_ne _ _ hspur]

theorem State.serviceEnded_spur (s : State) {src : Nat} (b : Bool) (hs : src < 192) :
    (s.serviceEnded src b).get (R.HIC_SPUR_COUNT src) =
      if b then min (s.get (R.HIC_SPUR_COUNT src) + 1) (2 ^ 16 - 1) else s.get (R.HIC_SPUR_COUNT src) := by
  have hinsvc : (R.HIC_SPUR_COUNT src).key ≠ (R.HIC_INSVC_INSVC (src / 32)).key := by
    simp only [Fld.key, R.HIC_SPUR_COUNT, R.HIC_INSVC_INSVC]; omega
  have hclaim : (R.HIC_SPUR_COUNT src).key ≠ (R.HIC_ROUTE_CLAIMER src).key := by
    simp only [Fld.key, R.HIC_SPUR_COUNT, R.HIC_ROUTE_CLAIMER]; omega
  have hkeep : ((s.putInsvc src false).put (R.HIC_ROUTE_CLAIMER src) 0).get (R.HIC_SPUR_COUNT src) = s.get (R.HIC_SPUR_COUNT src) :=
    (State.get_put_ne _ _ hclaim).trans (State.get_put_ne _ _ hinsvc)
  cases b with
  | false => exact hkeep
  | true =>
    have hfit : min (s.get (R.HIC_SPUR_COUNT src) + 1) (2 ^ 16 - 1) < 2 ^ 16 := by omega
    rw [State.serviceEnded, if_pos rfl, if_pos rfl, State.bump, State.get_put_self, hkeep]
    exact Nat.mod_eq_of_lt hfit

/-- Ending a service rejects nothing. -/
theorem State.serviceEnded_badEoi (s : State) (src core : Nat) (b : Bool) :
    (s.serviceEnded src b).get (R.HIC_CORE_BAD_EOI core) = s.get (R.HIC_CORE_BAD_EOI core) := by
  refine (s.serviceEnded_writes src b).kept _ (forall_mem_serviceFlds.2 ?_)
  simp only [Fld.key, R.HIC_CORE_BAD_EOI, R.HIC_INSVC_INSVC, R.HIC_ROUTE_CLAIMER, R.HIC_SPUR_COUNT]
  omega

/-- The whole of an accepted write of HIC_EOI reaches the fields of the service and those of its delivery. -/
theorem State.eoi_claimer_writes (s : State) (core src : Nat) (b : Bool) :
    HicWrites (serviceFlds src ++ deliveryFlds core src) s ((s.serviceEnded src b).redelivered core src) :=
  (s.serviceEnded_writes src b).append (State.redelivered_writes _ core src)

/-- A rejected write of HIC_EOI: nothing where BAD_EOI stands already, or else BAD_EOI and the ring of its event. -/
theorem State.hicStat_badEoi_cases (s : State) (core : Nat) :
    s.flag (R.HIC_CORE_BAD_EOI core) = true ∧ s.hicStat (R.HIC_CORE_BAD_EOI core) = s ∨
      s.hicStat (R.HIC_CORE_BAD_EOI core) = (s.put (R.HIC_CORE_BAD_EOI core) 1).ring srcHIC := by
  unfold State.hicStat State.raise
  by_cases h : s.flag (R.HIC_CORE_BAD_EOI core) = true
  · exact .inl ⟨h, if_pos h⟩
  · exact .inr (if_neg h)

theorem State.badEoi_writes (s : State) (core : Nat) :
    HicWrites ([R.HIC_CORE_BAD_EOI core] ++ deliveryFlds core srcHIC) s (s.hicStat (R.HIC_CORE_BAD_EOI core)) := by
  obtain ⟨-, h⟩ | h := s.hicStat_badEoi_cases core
  · rw [h]; exact HicWrites.refl _ s
  · rw [h]; exact (HicWrites.put s 1 (List.mem_singleton_self _)).append (State.ring_writes _ core srcHIC)

theorem badEoi_inside {core : Nat} (hc : core < 6) : ∀ g ∈ [R.HIC_CORE_BAD_EOI core], ¬ outside g.key := by
  simp only [List.mem_singleton, forall_eq, outside, Fld.key, R.HIC_CORE_BAD_EOI]
  omega

/-- BAD_EOI set for a core touches neither the maps of the controller nor its counts of spurious services. -/
theorem State.put_badEoi_keeps (s : State) (core v : Nat) :
    (∀ d, (s.put (R.HIC_CORE_BAD_EOI core) v).insvc d = s.insvc d) ∧ (∀ d, (s.put (R.HIC_CORE_BAD_EOI core) v).pend d = s.pend d) ∧
      ∀ d, (s.put (R.HIC_CORE_BAD_EOI core) v).get (R.HIC_SPUR_COUNT d) = s.get (R.HIC_SPUR_COUNT d) := by
  have hinsvc (w : Nat) : (R.HIC_INSVC_INSVC w).key ≠ (R.HIC_CORE_BAD_EOI core).key := by
    simp only [Fld.key, R.HIC_INSVC_INSVC, R.HIC_CORE_BAD_EOI]; omega
  have hpend (w : Nat) : (R.HIC_PEND_PEND w).key ≠ (R.HIC_CORE_BAD_EOI core).key := by
    simp only [Fld.key, R.HIC_PEND_PEND, R.HIC_CORE_BAD_EOI]; omega
  have hspur (d : Nat) : (R.HIC_SPUR_COUNT d).key ≠ (R.HIC_CORE_BAD_EOI core).key := by
    simp only [Fld.key, R.HIC_SPUR_COUNT, R.HIC_CORE_BAD_EOI]; omega
  simp [State.insvc, State.pend, State.bitIn, State.get_put_ne _ _ (hinsvc _), State.get_put_ne _ _ (hpend _),
    State.get_put_ne _ _ (hspur _)]

/-- A rejected write ends no service, counts nothing, and sets BAD_EOI. -/
theorem State.badEoi_keeps (s : State) {core : Nat} (hc : core < 6) :
    (∀ d < 192, (s.hicStat (R.HIC_CORE_BAD_EOI core)).insvc d = s.insvc d) ∧
      (∀ d, (s.hicStat (R.HIC_CORE_BAD_EOI core)).get (R.HIC_SPUR_COUNT d) = s.get (R.HIC_SPUR_COUNT d)) ∧
      (s.hicStat (R.HIC_CORE_BAD_EOI core)).flag (R.HIC_CORE_BAD_EOI core) = true := by
  obtain ⟨hset, h⟩ | h := s.hicStat_badEoi_cases core
  · rw [h]; exact ⟨fun _ _ => rfl, fun _ => rfl, hset⟩
  · rw [h]
    obtain ⟨insvc, -, spur, badEoi⟩ :=
      (State.ring_writes (s.put (R.HIC_CORE_BAD_EOI core) 1) core srcHIC).delivery_keeps (by decide) hc
    obtain ⟨insvc', -, spur'⟩ := s.put_badEoi_keeps core 1
    refine ⟨fun d hd => (insvc d hd).trans (insvc' d), fun d => (spur d).trans (spur' d), ?_⟩
    rw [State.flag, badEoi, State.get_put_self]
    rfl

/-- A rejected write rings source 105 alone. -/
theorem State.badEoi_pend_ne (s : State) (core : Nat) {d : Nat} (hd : d < 192) (h : d ≠ srcHIC) :
    (s.hicStat (R.HIC_CORE_BAD_EOI core)).pend d = s.pend d := by
  obtain ⟨-, heq⟩ | heq := s.hicStat_badEoi_cases core
  · rw [heq]
  · obtain ⟨-, pend, -⟩ := s.put_badEoi_keeps core 1
    rw [heq, State.ring_pend_ne _ hd h, pend]

/-! ## The command -/

theorem State.coreRuns_lt {s : State} {core : Nat} (h : s.coreRuns core = true) : core < 6 := by
  simp only [State.coreRuns, Bool.and_eq_true, decide_eq_true_eq] at h
  obtain ⟨⟨hlt, -⟩, -⟩ := h
  exact hlt

theorem exec_hicEoi {s : State} {core v : Nat} (hr : s.running = true) (hc : s.coreRuns core = true) :
    exec (.hicEoi core v) s = .next (s.framed (s.eoi core v)) := by
  show coreEvent s (fun s => if s.coreRuns core then s.eoi core v else s) = _
  simp only [coreEvent_run hr, hc, if_true, State.framed]

/-- A transaction of the controller leaves the always-on domain and the queue as they are. -/
theorem HicWrites.framed {fs : List Fld} {s t : State} (h : HicWrites fs s t) : s.framed t = t := by
  rw [State.framed, h.rest]

/-- Settles O49: the claimer's write ends the service, and what delivery does then touches no service, count or BAD_EOI;
any other write reaches BAD_EOI and the ring of source 105 alone (R326). -/
theorem endOfService : Obligations.EndOfService := by
  unfold Obligations.EndOfService
  intro s core v hr hrun src
  have hcore := State.coreRuns_lt hrun
  refine ⟨fun he hi hc => ?_, fun h => ?_⟩
  · have hs : src < 192 := hicExists_lt he
    have hall := s.eoi_claimer_writes core src (bit v 31)
    obtain ⟨insvc, claimer, spur, badEoi⟩ :=
      ((s.serviceEnded src (bit v 31)).redelivered_writes core src).delivery_keeps hs hcore
    refine ⟨(s.serviceEnded src (bit v 31)).redelivered core src, ?_, ?_, ?_, ?_, ?_, ?_, ?_, hall.rest⟩
    · rw [exec_hicEoi hr hrun, State.eoi_claimer he hi hc, hall.framed]
    · rw [insvc src hs, s.serviceEnded_insvc _ hs, s.putInsvc_false_insvc]
    · rw [claimer, State.serviceEnded_claimer]
    · rw [spur, s.serviceEnded_spur _ hs]
    · intro d hd hne
      rw [insvc d hd, s.serviceEnded_insvc _ hd, s.putInsvc_insvc_ne _ hne]
    · rw [State.flag, State.flag, badEoi, State.serviceEnded_badEoi]
    · exact hall.keptOutside (List.forall_mem_append.2 ⟨serviceFlds_inside hs, deliveryFlds_inside hs hcore⟩)
  · have hall := s.badEoi_writes core
    obtain ⟨insvc, spur, badEoi⟩ := s.badEoi_keeps hcore
    refine ⟨s.hicStat (R.HIC_CORE_BAD_EOI core), ?_, badEoi, insvc, fun d hd => s.badEoi_pend_ne core hd, spur, ?_, hall.rest⟩
    · rw [exec_hicEoi hr hrun, State.eoi_other h, hall.framed]
    · exact hall.keptOutside (List.forall_mem_append.2 ⟨badEoi_inside hcore, deliveryFlds_inside (by decide) hcore⟩)

end Sys2Proof.Machine

/-! A good frame of a position sensor and REBASE (R413, R414): what each axis keeps while the others take the frame, and from
there O55. -/

namespace Sys2Proof.Machine

/-! ## The registers of one axis -/

/-- The first key of the registers of axis `n`. -/
def axBase (n : Nat) : Nat := (0x41000000 + 0x80 * n) * 32

/-- A key in the registers of axis `n`. -/
def axKey (n k : Nat) : Prop := axBase n ≤ k ∧ k < axBase n + 0x80 * 32

@[simp] theorem axKey_base_add {n c : Nat} : axKey n (axBase n + c) ↔ c < 0x80 * 32 := by simp [axKey]

theorem axKey_apart {m n k : Nat} (h : axKey n k) (hmn : m ≠ n) : ¬ axKey m k := by
  unfold axKey axBase at *
  omega

theorem axKey_outside {n k : Nat} (h : axKey n k) : outside k := by
  unfold axKey axBase at h
  unfold outside
  omega

@[simp] theorem key_W0_SSI (n : Nat) : (R.MOT_AX_W0_SSI n).key = axBase n + 16 := by
  simp only [Fld.key, R.MOT_AX_W0_SSI, axBase]
@[simp] theorem key_W0_SSI_ACT (n : Nat) : (R.MOT_AX_W0_SSI_ACT n).key = axBase n + 19 := by
  simp only [Fld.key, R.MOT_AX_W0_SSI_ACT, axBase]
@[simp] theorem key_SSI_SCALE (n : Nat) : (R.MOT_AX_W12_SSI_SCALE n).key = axBase n + 0x30 * 32 := by
  simp only [Fld.key, R.MOT_AX_W12_SSI_SCALE, axBase]; omega
@[simp] theorem key_SSI_OFF (n : Nat) : (R.MOT_AX_W13_SSI_OFF n).key = axBase n + 0x34 * 32 := by
  simp only [Fld.key, R.MOT_AX_W13_SSI_OFF, axBase]; omega
@[simp] theorem key_SSI_TOL (n : Nat) : (R.MOT_AX_W14_SSI_TOL n).key = axBase n + 0x38 * 32 := by
  simp only [Fld.key, R.MOT_AX_W14_SSI_TOL, axBase]; omega
@[simp] theorem key_LOST (n : Nat) : (R.MOT_AX_STAT_LOST n).key = axBase n + (0x40 * 32 + 3) := by
  simp only [Fld.key, R.MOT_AX_STAT_LOST, axBase]; omega
@[simp] theorem key_UNCERTAIN (n : Nat) : (R.MOT_AX_STAT_UNCERTAIN n).key = axBase n + (0x40 * 32 + 4) := by
  simp only [Fld.key, R.MOT_AX_STAT_UNCERTAIN, axBase]; omega
@[simp] theorem key_SSI_DEV (n : Nat) : (R.MOT_AX_STAT_SSI_DEV n).key = axBase n + (0x40 * 32 + 10) := by
  simp only [Fld.key, R.MOT_AX_STAT_SSI_DEV, axBase]; omega
@[simp] theorem key_HOMED (n : Nat) : (R.MOT_AX_STAT_HOMED n).key = axBase n + (0x40 * 32 + 13) := by
  simp only [Fld.key, R.MOT_AX_STAT_HOMED, axBase]; omega
@[simp] theorem key_POS (n : Nat) : (R.MOT_AX_POS_POS n).key = axBase n + 0x44 * 32 := by
  simp only [Fld.key, R.MOT_AX_POS_POS, axBase]; omega
@[simp] theorem key_UNCERT_E (n : Nat) : (R.MOT_AX_UNCERT_E n).key = axBase n + 0x50 * 32 := by
  simp only [Fld.key, R.MOT_AX_UNCERT_E, axBase]; omega
@[simp] theorem key_SSIPOS (n : Nat) : (R.MOT_AX_SSIPOS_S n).key = axBase n + 0x54 * 32 := by
  simp only [Fld.key, R.MOT_AX_SSIPOS_S, axBase]; omega

/-! ## An axis of the list -/

theorem modifyNth_eq_modify {α : Type} (l : List α) (i : Nat) (f : α → α) : modifyNth l i f = l.modify i f := by
  induction l generalizing i with
  | nil => cases i <;> rfl
  | cons x t ih => cases i <;> simp [modifyNth, ih]

theorem State.onAxis_axis_ne (s : State) {m n : Nat} (f : Axis → Axis) (h : m ≠ n) : (s.onAxis m f).axis n = s.axis n := by
  simp [State.axis, State.onAxis, modifyNth_eq_modify, List.getD_eq_getElem?_getD, h]

theorem State.onAxis_axis_self (s : State) {n : Nat} (f : Axis → Axis) (h : n < s.axes.length) :
    (s.onAxis n f).axis n = f (s.axis n) := by
  simp [State.axis, State.onAxis, modifyNth_eq_modify, List.getD_eq_getElem?_getD, h]

/-- An axis that waits for a frame to rebase to is one of the list. -/
theorem State.lt_of_rebase {s : State} {n : Nat} (h : (s.axis n).rebase = true) : n < s.axes.length := by
  by_contra hge
  have hnone : s.axis n = {} := List.getD_eq_default _ _ (Nat.le_of_not_lt hge)
  rw [hnone] at h
  cases h

/-! ## What an axis keeps -/

/-- From `s` to `t` axis `n` keeps its registers and its state, and the block its mode. -/
structure AxKept (n : Nat) (s t : State) : Prop where
  get : ∀ f : Fld, axKey n f.key → t.get f = s.get f
  axis : t.axis n = s.axis n
  mode : t.mode = s.mode

namespace AxKept

variable {n : Nat} {s t u : State}

theorem refl (n : Nat) (s : State) : AxKept n s s := ⟨fun _ _ => rfl, rfl, rfl⟩

theorem trans (h : AxKept n s t) (g : AxKept n t u) : AxKept n s u :=
  ⟨fun f hf => (g.get f hf).trans (h.get f hf), g.axis.trans h.axis, g.mode.trans h.mode⟩

theorem put (s : State) {f : Fld} (v : Nat) (hf : ¬ axKey n f.key) : AxKept n s (s.put f v) :=
  ⟨fun _ hg => State.get_put_ne s v fun he => hf (he ▸ hg), rfl, rfl⟩

theorem putOther {m : Nat} (h : m ≠ n) (s : State) {f : Fld} (v : Nat) (hf : axKey m f.key) : AxKept n s (s.put f v) :=
  put s v (axKey_apart hf h.symm)

theorem onAxis (s : State) {m : Nat} (f : Axis → Axis) (h : m ≠ n) : AxKept n s (s.onAxis m f) :=
  ⟨fun _ _ => rfl, s.onAxis_axis_ne f h, rfl⟩

theorem framed (n : Nat) (s t : State) : AxKept n t (s.framed t) := ⟨fun _ _ => rfl, rfl, rfl⟩

theorem of_notice (h : Notice s t) : AxKept n s t :=
  ⟨fun _ hf => h.get (axKey_outside hf), by rw [State.axis, State.axis, h.same_axes], h.same_mode⟩

theorem of_logged (h : Logged s t) : AxKept n s t := by
  refine ⟨fun f hf => ?_, by rw [h.rest]; rfl, by rw [h.rest]⟩
  have hkey : f.key ≠ R.TSL_LOG_TX_OFF.key := by
    unfold axKey axBase at hf
    simp only [Fld.key, R.TSL_LOG_TX_OFF] at *
    omega
  simp only [State.get, h.regs _ hkey]

theorem ite {c : Prop} [Decidable c] (h : AxKept n s t) (g : AxKept n s u) : AxKept n s (if c then t else u) := by
  split <;> assumption

theorem flag (h : AxKept n s t) {f : Fld} (hf : axKey n f.key) : t.flag f = s.flag f := by
  rw [State.flag, State.flag, h.get f hf]

theorem axPos (h : AxKept n s t) : t.axPos n = s.axPos n := by
  rw [State.axPos, State.axPos, h.get _ (by simp)]

theorem ssiPos (h : AxKept n s t) (v : Nat) : t.ssiPos n v = s.ssiPos n v := by
  rw [State.ssiPos, State.ssiPos, h.get _ (by simp), h.get _ (by simp)]

end AxKept

theorem State.forEach_kept {f : State → Nat → State} {n : Nat} (hf : ∀ s m, m ≠ n → AxKept n s (f s m)) {l : List Nat}
    (hn : n ∉ l) (s : State) : AxKept n s (s.forEach l f) := by
  induction l generalizing s with
  | nil => exact .refl n s
  | cons m t ih =>
    obtain ⟨hm, ht⟩ := not_or.1 (List.mem_cons.not.1 hn)
    exact (hf s m (Ne.symm hm)).trans (ih ht _)

/-- A list of axes taken in turn, each leaving the others alone: axis `n` is taken as it stood, and keeps what that gives. -/
theorem State.forEach_at {f : State → Nat → State} {n : Nat} (hf : ∀ s m, m ≠ n → AxKept n s (f s m)) {l : List Nat}
    (hl : l.Nodup) (hn : n ∈ l) (s : State) : ∃ u, AxKept n s u ∧ AxKept n (f u n) (s.forEach l f) := by
  induction l generalizing s with
  | nil => cases hn
  | cons m t ih =>
    obtain ⟨hm, ht⟩ := List.nodup_cons.1 hl
    by_cases h : m = n
    · subst h
      exact ⟨s, .refl m s, State.forEach_kept hf hm _⟩
    · obtain ⟨u, hu, hrest⟩ := ih ht (List.mem_of_ne_of_mem (Ne.symm h) hn) (f s m)
      exact ⟨u, (hf s m h).trans hu, hrest⟩

/-! ## The operations of a frame -/

theorem State.axEvent_kept (s : State) (m n kind : Nat) : AxKept n s (s.axEvent m kind) := .of_notice (s.postEvent_notice _ _ _)

theorem State.axLog_kept (s : State) (m n : Nat) : AxKept n s (s.axLog m) := .of_logged (s.logOne_logged _ _ _ _)

theorem State.axRaise_kept (s : State) {m n : Nat} (h : m ≠ n) {f : Fld} (hf : axKey m f.key) : AxKept n s (s.axRaise f) :=
  .ite (.refl n s) ((AxKept.putOther h s 1 hf).trans (.of_notice (State.ring_notice _ _)))

/-- LOST sets and HOMED clears; the rest of the axis is as before. -/
theorem State.axLost_get (s : State) {n : Nat} {f : Fld} (hf : axKey n f.key) (hlost : f.key ≠ (R.MOT_AX_STAT_LOST n).key)
    (hhomed : f.key ≠ (R.MOT_AX_STAT_HOMED n).key) : (s.axLost n).get f = s.get f := by
  unfold State.axLost
  split
  · rfl
  · rw [(State.axEvent_kept _ n n 5).get f hf, State.get_put_ne _ _ hhomed, State.get_put_ne _ _ hlost]

theorem State.axLost_flag (s : State) (n : Nat) : (s.axLost n).flag (R.MOT_AX_STAT_LOST n) = true := by
  unfold State.axLost
  split
  · assumption
  · rw [(State.axEvent_kept _ n n 5).flag (by simp), State.flag, State.get_put_ne _ _ (by simp), State.get_put_self]
    rfl

theorem State.axLost_kept (s : State) {m n : Nat} (h : m ≠ n) : AxKept n s (s.axLost m) :=
  .ite (.refl n s) (.trans (.trans (.putOther h s 1 (by simp)) (.putOther h _ 0 (by simp))) (State.axEvent_kept _ m n 5))

/-- LOST and UNCERTAIN clear, with the bound of UNCERTAIN; the rest is as before. -/
theorem State.axFound_get (s : State) {n : Nat} {f : Fld} (hlost : f.key ≠ (R.MOT_AX_STAT_LOST n).key)
    (huncertain : f.key ≠ (R.MOT_AX_STAT_UNCERTAIN n).key) (hbound : f.key ≠ (R.MOT_AX_UNCERT_E n).key) :
    (s.axFound n).get f = s.get f := by
  rw [State.axFound, State.get_put_ne _ _ hbound, State.get_put_ne _ _ huncertain, State.get_put_ne _ _ hlost]

theorem State.axFound_flags (s : State) (n : Nat) :
    (s.axFound n).flag (R.MOT_AX_STAT_LOST n) = false ∧ (s.axFound n).flag (R.MOT_AX_STAT_UNCERTAIN n) = false := by
  constructor <;> simp [State.axFound, State.flag, State.get_put_ne]

theorem State.axFound_kept (s : State) {m n : Nat} (h : m ≠ n) : AxKept n s (s.axFound m) :=
  .trans (.trans (.putOther h s 0 (by simp)) (.putOther h _ 0 (by simp))) (.putOther h _ 0 (by simp))

/-! ## The three ways an axis takes a good frame -/

/-- S is shown in SSIPOS (R413). -/
def State.ssiShown (s : State) (n v : Nat) : State := s.put (R.MOT_AX_SSIPOS_S n) (unsigned 32 (s.ssiPos n v))

/-- The position is loaded from `p`, and LOST and UNCERTAIN clear (R414). -/
def State.ssiLoaded (s : State) (n : Nat) (p : Int) : State :=
  (((s.put (R.MOT_AX_POS_POS n) (unsigned 32 p)).axFound n).onAxis n
    (fun a => { a with rebase := false, pos := (signed 32 (unsigned 32 p) : Rat) })).axLog n

/-- SSI_DEV sets, and with SSI_ACT also LOST (R413). -/
def State.ssiDeviates (s : State) (n : Nat) : State :=
  (if (s.axRaise (R.MOT_AX_STAT_SSI_DEV n)).flag (R.MOT_AX_W0_SSI_ACT n) then (s.axRaise (R.MOT_AX_STAT_SSI_DEV n)).axLost n
    else s.axRaise (R.MOT_AX_STAT_SSI_DEV n)).axLog n

/-- What a good frame does to an axis, once S is shown: it is taken up only at rest, where inputs count. -/
theorem State.axSsi_eq (s : State) (n v : Nat) : s.axSsi n v =
    if s.mode = .shadow ∨ (s.axis n).run ≠ .rest then s.ssiShown n v
    else if (s.axis n).rebase = true then (s.ssiShown n v).ssiLoaded n (s.ssiPos n v)
    else if s.flag (R.MOT_AX_STAT_LOST n) = true then s.ssiShown n v
    else if s.get (R.MOT_AX_W14_SSI_TOL n) < (s.axPos n - s.ssiPos n v).natAbs then (s.ssiShown n v).ssiDeviates n
    else s.ssiShown n v := by
  have hlost : (s.ssiShown n v).flag (R.MOT_AX_STAT_LOST n) = s.flag (R.MOT_AX_STAT_LOST n) := by
    simp [State.ssiShown, State.flag, State.get_put_ne]
  have htol : (s.ssiShown n v).get (R.MOT_AX_W14_SSI_TOL n) = s.get (R.MOT_AX_W14_SSI_TOL n) := by
    simp [State.ssiShown, State.get_put_ne]
  have hpos : (s.ssiShown n v).axPos n = s.axPos n := by simp [State.ssiShown, State.axPos, State.get_put_ne]
  have hguard : (!(s.ssiShown n v).axInputs || ((s.ssiShown n v).axis n).run != .rest) = true ↔
      s.mode = .shadow ∨ (s.axis n).run ≠ .rest := by
    simp [State.axInputs, State.ssiShown, State.axis]
  rw [← hlost, ← htol, ← hpos]
  simp only [← hguard]
  rfl

theorem State.ssiShown_kept (s : State) (v : Nat) {m n : Nat} (h : m ≠ n) : AxKept n s (s.ssiShown m v) :=
  .putOther h s _ (by simp)

theorem State.ssiLoaded_kept (s : State) (p : Int) {m n : Nat} (h : m ≠ n) : AxKept n s (s.ssiLoaded m p) :=
  .trans (.trans (.trans (.putOther h s _ (by simp)) (State.axFound_kept _ h)) (.onAxis _ _ h)) (State.axLog_kept _ m n)

theorem State.ssiDeviates_kept (s : State) {m n : Nat} (h : m ≠ n) : AxKept n s (s.ssiDeviates m) := by
  have raised : AxKept n s (s.axRaise (R.MOT_AX_STAT_SSI_DEV m)) := s.axRaise_kept h (by simp)
  exact .trans (.ite (raised.trans (State.axLost_kept _ h)) raised) (State.axLog_kept _ m n)

/-- The frame taken by one axis leaves every other alone. -/
theorem State.axSsi_kept (s : State) (v : Nat) {m n : Nat} (h : m ≠ n) : AxKept n s (s.axSsi m v) := by
  have shown := s.ssiShown_kept v h
  rw [State.axSsi_eq]
  exact .ite shown (.ite (shown.trans (State.ssiLoaded_kept _ _ h)) (.ite shown
    (.ite (shown.trans (State.ssiDeviates_kept _ h)) shown)))

/-! ## What a frame shows of its axis -/

theorem unsigned_mod (w : Nat) (p : Int) : unsigned w p % 2 ^ w = unsigned w p := by
  have hpos : (0 : Int) < (2 ^ w : Nat) := Int.natCast_pos.2 (Nat.two_pow_pos w)
  have hlt : p % (2 ^ w : Nat) < (2 ^ w : Nat) := Int.emod_lt_of_pos p hpos
  exact Nat.mod_eq_of_lt ((Int.toNat_lt (Int.emod_nonneg p hpos.ne')).2 hlt)

theorem State.ssiShown_ssipos (s : State) (n v : Nat) :
    (s.ssiShown n v).get (R.MOT_AX_SSIPOS_S n) = unsigned 32 (s.ssiPos n v) :=
  (State.get_put_self ..).trans (unsigned_mod 32 _)

theorem State.ssiShown_get (s : State) (n v : Nat) {f : Fld} (hf : f.key ≠ (R.MOT_AX_SSIPOS_S n).key) :
    (s.ssiShown n v).get f = s.get f := State.get_put_ne _ _ hf

theorem State.ssiLoaded_get (s : State) {n : Nat} (p : Int) {f : Fld} (hf : axKey n f.key) :
    (s.ssiLoaded n p).get f = ((s.put (R.MOT_AX_POS_POS n) (unsigned 32 p)).axFound n).get f :=
  (State.axLog_kept _ n n).get f hf

theorem State.ssiLoaded_pos (s : State) (n : Nat) (p : Int) : (s.ssiLoaded n p).get (R.MOT_AX_POS_POS n) = unsigned 32 p := by
  rw [s.ssiLoaded_get p (by simp), State.axFound_get _ (by simp) (by simp) (by simp), State.get_put_self]
  exact unsigned_mod 32 p

/-- Beside the position, LOST, UNCERTAIN and its bound the axis keeps its registers, HOMED among them. -/
theorem State.ssiLoaded_get_other (s : State) {n : Nat} (p : Int) {f : Fld} (hf : axKey n f.key) (hpos : f.key ≠ (R.MOT_AX_POS_POS n).key)
    (hlost : f.key ≠ (R.MOT_AX_STAT_LOST n).key) (huncertain : f.key ≠ (R.MOT_AX_STAT_UNCERTAIN n).key)
    (hbound : f.key ≠ (R.MOT_AX_UNCERT_E n).key) : (s.ssiLoaded n p).get f = s.get f := by
  rw [s.ssiLoaded_get p hf, State.axFound_get _ hlost huncertain hbound, State.get_put_ne _ _ hpos]

theorem State.ssiLoaded_found (s : State) (n : Nat) (p : Int) : (s.ssiLoaded n p).flag (R.MOT_AX_STAT_LOST n) = false ∧
    (s.ssiLoaded n p).flag (R.MOT_AX_STAT_UNCERTAIN n) = false := by
  rw [State.flag, State.flag, s.ssiLoaded_get p (by simp), s.ssiLoaded_get p (by simp)]
  exact State.axFound_flags _ n

/-- A rebase is done once. -/
theorem State.ssiLoaded_rebase {s : State} {n : Nat} (p : Int) (h : n < s.axes.length) :
    ((s.ssiLoaded n p).axis n).rebase = false := by
  rw [State.ssiLoaded, (State.axLog_kept _ n n).axis]
  exact congrArg Axis.rebase (State.onAxis_axis_self ((s.put _ _).axFound n) _ h)

theorem State.ssiDeviates_get (s : State) {n : Nat} {f : Fld} (hf : axKey n f.key) (hdev : f.key ≠ (R.MOT_AX_STAT_SSI_DEV n).key)
    (hlost : f.key ≠ (R.MOT_AX_STAT_LOST n).key) (hhomed : f.key ≠ (R.MOT_AX_STAT_HOMED n).key) :
    (s.ssiDeviates n).get f = s.get f := by
  have raised : (s.axRaise (R.MOT_AX_STAT_SSI_DEV n)).get f = s.get f := State.raise_get _ (axKey_outside hf) hdev
  rw [State.ssiDeviates, (State.axLog_kept _ n n).get f hf]
  split
  · rw [State.axLost_get _ hf hlost hhomed, raised]
  · exact raised

theorem State.ssiDeviates_dev (s : State) (n : Nat) : (s.ssiDeviates n).flag (R.MOT_AX_STAT_SSI_DEV n) = true := by
  have hkey : axKey n (R.MOT_AX_STAT_SSI_DEV n).key := by simp
  have raised : (s.axRaise (R.MOT_AX_STAT_SSI_DEV n)).flag (R.MOT_AX_STAT_SSI_DEV n) = true :=
    State.raise_flag _ (axKey_outside hkey) Nat.one_pos
  rw [State.ssiDeviates, (State.axLog_kept _ n n).flag hkey]
  split
  · rw [State.flag, State.axLost_get _ hkey (by simp) (by simp)]
    exact raised
  · exact raised

/-- A deviation makes an axis LOST where SSI_ACT says so. -/
theorem State.ssiDeviates_lost {s : State} {n : Nat} (h : s.flag (R.MOT_AX_STAT_LOST n) = false) :
    (s.ssiDeviates n).flag (R.MOT_AX_STAT_LOST n) = s.flag (R.MOT_AX_W0_SSI_ACT n) := by
  have raised {f : Fld} (hf : axKey n f.key) (hne : f.key ≠ (R.MOT_AX_STAT_SSI_DEV n).key) :
      (s.axRaise (R.MOT_AX_STAT_SSI_DEV n)).flag f = s.flag f := by
    rw [State.flag, State.flag, State.axRaise, State.raise_get _ (axKey_outside hf) hne]
  rw [State.ssiDeviates, (State.axLog_kept _ n n).flag (by simp), raised (f := R.MOT_AX_W0_SSI_ACT n) (by simp) (by simp)]
  split
  next hact => rw [State.axLost_flag, hact]
  next hact => rw [raised (by simp) (by simp), h, Bool.eq_false_of_not_eq_true hact]

/-! ## The comparison and the rebase of one axis -/

/-- From `s` to `t` axis `n` has taken a good frame of sensor position `p` (R413, R414). -/
structure Sensed (n : Nat) (p : Int) (s t : State) : Prop where
  shown : t.get (R.MOT_AX_SSIPOS_S n) = unsigned 32 p
  rebased : (s.axis n).run = .rest → (s.axis n).rebase = true →
    t.get (R.MOT_AX_POS_POS n) = unsigned 32 p ∧ t.flag (R.MOT_AX_STAT_LOST n) = false ∧
      t.flag (R.MOT_AX_STAT_UNCERTAIN n) = false ∧ t.get (R.MOT_AX_STAT_HOMED n) = s.get (R.MOT_AX_STAT_HOMED n) ∧
      (t.axis n).rebase = false
  position : (s.axis n).rebase = false → t.get (R.MOT_AX_POS_POS n) = s.get (R.MOT_AX_POS_POS n)
  deviates : (s.axis n).rebase = false → (s.axis n).run = .rest → s.flag (R.MOT_AX_STAT_LOST n) = false →
    s.get (R.MOT_AX_W14_SSI_TOL n) < (s.axPos n - p).natAbs →
      t.flag (R.MOT_AX_STAT_SSI_DEV n) = true ∧ t.flag (R.MOT_AX_STAT_LOST n) = s.flag (R.MOT_AX_W0_SSI_ACT n)
  agrees : (s.axis n).rebase = false → ((s.axis n).run ≠ .rest ∨ s.flag (R.MOT_AX_STAT_LOST n) = true ∨
    (s.axPos n - p).natAbs ≤ s.get (R.MOT_AX_W14_SSI_TOL n)) →
      t.get (R.MOT_AX_STAT_SSI_DEV n) = s.get (R.MOT_AX_STAT_SSI_DEV n) ∧ t.get (R.MOT_AX_STAT_LOST n) = s.get (R.MOT_AX_STAT_LOST n)

theorem State.axSsi_rebased {s : State} {n : Nat} (v : Nat) (hm : s.mode ≠ .shadow) (hrest : (s.axis n).run = .rest)
    (hre : (s.axis n).rebase = true) : s.axSsi n v = (s.ssiShown n v).ssiLoaded n (s.ssiPos n v) := by
  rw [State.axSsi_eq, if_neg (by simp [hm, hrest]), if_pos hre]

theorem State.axSsi_deviates {s : State} {n v : Nat} (hm : s.mode ≠ .shadow) (hre : (s.axis n).rebase = false)
    (hrest : (s.axis n).run = .rest) (hlost : s.flag (R.MOT_AX_STAT_LOST n) = false)
    (htol : s.get (R.MOT_AX_W14_SSI_TOL n) < (s.axPos n - s.ssiPos n v).natAbs) :
    s.axSsi n v = (s.ssiShown n v).ssiDeviates n := by
  rw [State.axSsi_eq, if_neg (by simp [hm, hrest]), if_neg (by simp [hre]), if_neg (by simp [hlost]), if_pos htol]

theorem State.axSsi_agrees {s : State} {n v : Nat} (hre : (s.axis n).rebase = false)
    (h : (s.axis n).run ≠ .rest ∨ s.flag (R.MOT_AX_STAT_LOST n) = true ∨
      (s.axPos n - s.ssiPos n v).natAbs ≤ s.get (R.MOT_AX_W14_SSI_TOL n)) : s.axSsi n v = s.ssiShown n v := by
  rw [State.axSsi_eq, if_neg (c := (s.axis n).rebase = true) (by simp [hre])]
  split_ifs with _ _ htol
  · rfl
  · rfl
  · obtain h | h | h := h
    · tauto
    · contradiction
    · omega
  · rfl

/-- A good frame, where inputs count, does to its axis what R413 and R414 say. -/
theorem State.axSsi_sensed {s : State} (n v : Nat) (hm : s.mode ≠ .shadow) : Sensed n (s.ssiPos n v) s (s.axSsi n v) where
  shown := by
    have hshown := s.ssiShown_ssipos n v
    rw [State.axSsi_eq]
    split_ifs
    · exact hshown
    · rw [State.ssiLoaded_get_other _ _ (by simp) (by simp) (by simp) (by simp) (by simp), hshown]
    · exact hshown
    · rw [State.ssiDeviates_get _ (by simp) (by simp) (by simp) (by simp), hshown]
    · exact hshown
  rebased hrest hre := by
    rw [State.axSsi_rebased v hm hrest hre]
    obtain ⟨hlost, huncertain⟩ := (s.ssiShown n v).ssiLoaded_found n (s.ssiPos n v)
    refine ⟨State.ssiLoaded_pos _ n _, hlost, huncertain, ?_, State.ssiLoaded_rebase _ (State.lt_of_rebase hre)⟩
    rw [State.ssiLoaded_get_other _ _ (by simp) (by simp) (by simp) (by simp) (by simp), State.ssiShown_get _ _ _ (by simp)]
  position hre := by
    have hkeep := s.ssiShown_get n v (f := R.MOT_AX_POS_POS n) (by simp)
    rw [State.axSsi_eq, if_neg (c := (s.axis n).rebase = true) (by simp [hre])]
    split_ifs
    · exact hkeep
    · exact hkeep
    · rw [State.ssiDeviates_get _ (by simp) (by simp) (by simp) (by simp), hkeep]
    · exact hkeep
  deviates hre hrest hlost htol := by
    rw [State.axSsi_deviates hm hre hrest hlost htol]
    refine ⟨State.ssiDeviates_dev _ n, ?_⟩
    rw [State.ssiDeviates_lost, State.flag, State.ssiShown_get _ _ _ (by simp)]
    · rfl
    · rw [State.flag, State.ssiShown_get _ _ _ (by simp)]
      exact hlost
  agrees hre h := by
    rw [State.axSsi_agrees hre h]
    exact ⟨State.ssiShown_get _ _ _ (by simp), State.ssiShown_get _ _ _ (by simp)⟩

/-- What a frame does to its axis is not touched by what goes on elsewhere before and after. -/
theorem Sensed.of_kept {n : Nat} {p : Int} {s s' t' t : State} (h : Sensed n p s' t') (hs : AxKept n s s') (ht : AxKept n t' t) :
    Sensed n p s t where
  shown := by simpa [ht.get] using h.shown
  rebased := by simpa [hs.axis, hs.get, ht.axis, ht.get, ht.flag] using h.rebased
  position := by simpa [hs.axis, hs.get, ht.get] using h.position
  deviates := by simpa [hs.axis, hs.axPos, hs.get, hs.flag, ht.flag] using h.deviates
  agrees := by simpa [hs.axis, hs.axPos, hs.get, hs.flag, ht.get] using h.agrees

/-! ## The commands -/

/-- The value of a frame: its data bits, converted from Gray code where the channel says so (R412). -/
def State.ssiValue (s : State) (k raw : Nat) : Nat :=
  if s.flag (R.MOT_SSI_CFG_GRAY k) then grayOf (raw % 2 ^ max 8 (min 32 (s.get (R.MOT_SSI_CFG_BITS k))))
  else raw % 2 ^ max 8 (min 32 (s.get (R.MOT_SSI_CFG_BITS k)))

/-- The state once MOT_SSIk_DATA shows the value of a good frame (R412). -/
def State.ssiData (s : State) (k raw : Nat) : State := s.put (R.MOT_SSI_DATA_VALUE k) (s.ssiValue k raw)

theorem State.ssiData_kept (s : State) {k n : Nat} (raw : Nat) (hk : k < 4) (hn : n < 8) : AxKept n s (s.ssiData k raw) := by
  refine .put s _ ?_
  simp only [axKey, axBase, Fld.key, R.MOT_SSI_DATA_VALUE]
  omega

theorem exec_ssiFrame {s : State} {k : Nat} (raw : Nat) (hr : s.running = true) (hk : k < 4)
    (hen : s.flag (R.MOT_SSI_CFG_EN k) = true) :
    exec (.ssiFrame k raw true) s = .next (s.framed ((s.ssiData k raw).forEach
      ((List.range 8).filter fun n => (s.ssiData k raw).get (R.MOT_AX_W0_SSI n) == k)
      (fun t n => t.axSsi n (s.ssiValue k raw)))) := by
  show execSsiFrame k raw true s = _
  rw [execSsiFrame, coreEvent_run hr, if_neg (by simp [hen, hk]), if_neg (by simp)]
  rfl

theorem exec_rebase {s : State} {ax : Nat} (hr : s.running = true) (hax : ax < 8) :
    exec (.rebase ax) s = .next (s.framed (if s.axInputs then s.rebaseWrite ax else s)) := by
  show coreEvent s (fun s => if ax < 8 && s.axInputs then s.rebaseWrite ax else s) = _
  simp [coreEvent_run hr, hax, State.framed]

/-- A good frame reaches each axis whose sensor it is. -/
theorem exec_ssiFrame_sensed {s : State} {n k : Nat} (raw : Nat) (hr : s.running = true) (hm : s.mode ≠ .shadow) (hn : n < 8)
    (hk : k < 4) (hssi : s.get (R.MOT_AX_W0_SSI n) = k) (hen : s.flag (R.MOT_SSI_CFG_EN k) = true) :
    ∃ t, exec (.ssiFrame k raw true) s = .next t ∧ Sensed n (s.ssiPos n (s.ssiValue k raw)) s t := by
  have data := s.ssiData_kept raw hk hn
  have hsensor : (s.ssiData k raw).get (R.MOT_AX_W0_SSI n) = k := (data.get _ (by simp)).trans hssi
  have hmem : n ∈ (List.range 8).filter fun m => (s.ssiData k raw).get (R.MOT_AX_W0_SSI m) == k := by simp [hn, hsensor]
  obtain ⟨u, hu, after⟩ := State.forEach_at (f := fun t m => t.axSsi m (s.ssiValue k raw))
    (fun t m hne => t.axSsi_kept _ hne) (List.nodup_range.filter _) hmem (s.ssiData k raw)
  have before := data.trans hu
  refine ⟨_, exec_ssiFrame raw hr hk hen, ?_⟩
  rw [← before.ssiPos]
  exact (State.axSsi_sensed n _ (before.mode.trans_ne hm)).of_kept before (after.trans (.framed n s _))

/-- Settles O55: a good frame takes each axis of its sensor by itself and does to it what R413 and R414 say; REBASE notes the axis
where it is at rest with a sensor, and otherwise does nothing. -/
theorem sensorPosition : Obligations.SensorPosition := by
  unfold Obligations.SensorPosition
  refine ⟨fun s n k raw v hr hm hn hk hssi hen hv => ?_, fun s ax hr hax => ⟨fun hm hrest hssi => ?_, fun h => ?_⟩⟩
  · obtain rfl : v = s.ssiValue k raw := hv
    obtain ⟨t, hexec, h⟩ := exec_ssiFrame_sensed raw hr hm hn hk hssi hen
    exact ⟨t, hexec, h.shown, h.rebased, fun hre => ⟨h.position hre, h.deviates hre, h.agrees hre⟩⟩
  · have hin : s.axInputs = true := by simp [State.axInputs, hm]
    rw [exec_rebase hr hax, if_pos hin, State.rebaseWrite, if_pos ⟨hrest, hssi⟩]
    rfl
  · have hno : ¬ ((s.axis ax).run = .rest ∧ s.get (R.MOT_AX_W0_SSI ax) < 4) := fun ⟨hrest, hssi⟩ =>
      h.elim (· hrest) (Nat.not_le.2 hssi)
    rw [exec_rebase hr hax, State.rebaseWrite, if_neg hno, ite_self]
    rfl

end Sys2Proof.Machine

/-! The registers a command leaves alone: how `RegsKept` and `RegsKeptOutside` go through writes, notices and the pair log. -/

namespace Sys2Proof.Machine

/-- `outside`, as it computes. -/
def outsideB (k : Nat) : Bool :=
  (decide (k < 0x40000000 * 32) || decide (0x40010000 * 32 ≤ k)) && (decide (k < 0x40100000 * 32) || decide (0x40120000 * 32 ≤ k))

theorem outside_of {k : Nat} (h : outsideB k = true) : outside k := by simpa [outsideB, outside] using h

namespace RegsKept

variable {fs gs : List Fld} {s t u : State}

theorem refl (fs : List Fld) (s : State) : RegsKept fs s s := fun _ _ => rfl

theorem of_regs (h : t.regs = s.regs) : RegsKept fs s t := fun f _ => State.get_congr h f

theorem trans (h : RegsKept fs s t) (g : RegsKept fs t u) : RegsKept fs s u := fun f hf => (g f hf).trans (h f hf)

theorem mono (h : RegsKept fs s t) (hsub : fs ⊆ gs) : RegsKept gs s t := fun f hf => h f fun g hg => hf g (hsub hg)

theorem put (h : RegsKept fs s t) {f : Fld} (hf : f ∈ fs) (v : Nat) : RegsKept fs s (t.put f v) :=
  fun g hg => (State.get_put_ne t v (hg f hf)).trans (h g hg)

theorem bump (h : RegsKept fs s t) {f : Fld} (hf : f ∈ fs) (n : Nat) : RegsKept fs s (t.bump f n) := h.put hf _

theorem count (h : RegsKept fs s t) {f : Fld} (hf : f ∈ fs) (n : Nat) : RegsKept fs s (t.count f n) := h.put hf _

theorem ite {c : Prop} [Decidable c] (h : RegsKept fs s t) (g : RegsKept fs s u) : RegsKept fs s (if c then t else u) := by
  split <;> assumption

/-- Records of the pair log move the offset of its stream and no other register. -/
theorem logged (h : RegsKept fs s t) (hf : R.TSL_LOG_TX_OFF ∈ fs) (hl : Logged t u) : RegsKept fs s u :=
  fun f hg => by rw [← h f hg, State.get, State.get, hl.regs f.key (hg _ hf)]

theorem forEach {l : List Nat} {f : State → Nat → State} (hf : ∀ n ∈ l, ∀ t, RegsKept fs t (f t n)) (s : State) :
    RegsKept fs s (s.forEach l f) := by
  induction l generalizing s with
  | nil => exact refl fs s
  | cons n l ih => exact (hf n (by simp) s).trans (ih (fun m hm => hf m (by simp [hm])) _)

theorem outside (h : RegsKept fs s t) : RegsKeptOutside fs s t := fun f _ hf => h f hf

theorem get (h : RegsKept fs s t) {f : Fld} (hf : ∀ g ∈ fs, f.key ≠ g.key) : t.get f = s.get f := h f hf

theorem flag (h : RegsKept fs s t) {f : Fld} (hf : ∀ g ∈ fs, f.key ≠ g.key) : t.flag f = s.flag f := by
  rw [State.flag, State.flag, h f hf]

end RegsKept

namespace RegsKeptOutside

variable {fs gs : List Fld} {s t u : State}

theorem refl (fs : List Fld) (s : State) : RegsKeptOutside fs s s := fun _ _ _ => rfl

theorem of_regs (h : t.regs = s.regs) : RegsKeptOutside fs s t := fun f _ _ => State.get_congr h f

theorem trans (h : RegsKeptOutside fs s t) (g : RegsKeptOutside fs t u) : RegsKeptOutside fs s u :=
  fun f ho hf => (g f ho hf).trans (h f ho hf)

theorem mono (h : RegsKeptOutside fs s t) (hsub : fs ⊆ gs) : RegsKeptOutside gs s t :=
  fun f ho hf => h f ho fun g hg => hf g (hsub hg)

theorem put (h : RegsKeptOutside fs s t) {f : Fld} (hf : f ∈ fs) (v : Nat) : RegsKeptOutside fs s (t.put f v) :=
  fun g ho hg => (State.get_put_ne t v (hg f hf)).trans (h g ho hg)

/-- A write inside the interrupt controller or the mailbox block. -/
theorem putInside (h : RegsKeptOutside fs s t) {f : Fld} (hf : ¬ Machine.outside f.key) (v : Nat) : RegsKeptOutside fs s (t.put f v) :=
  fun g ho hg => (State.get_put_ne t v fun he => hf (he ▸ ho)).trans (h g ho hg)

theorem bump (h : RegsKeptOutside fs s t) {f : Fld} (hf : f ∈ fs) (n : Nat) : RegsKeptOutside fs s (t.bump f n) := h.put hf _

theorem notice (h : RegsKeptOutside fs s t) (hn : Notice t u) : RegsKeptOutside fs s u :=
  fun f ho hf => (hn.get ho).trans (h f ho hf)

theorem raise (h : RegsKeptOutside fs s t) {f : Fld} (hf : f ∈ fs) (src : Nat) : RegsKeptOutside fs s (t.raise f src) :=
  fun g ho hg => (State.raise_get src ho (hg f hf)).trans (h g ho hg)

theorem ite {c : Prop} [Decidable c] (h : RegsKeptOutside fs s t) (g : RegsKeptOutside fs s u) :
    RegsKeptOutside fs s (if c then t else u) := by split <;> assumption

theorem logged (h : RegsKeptOutside fs s t) (hf : R.TSL_LOG_TX_OFF ∈ fs) (hl : Logged t u) : RegsKeptOutside fs s u :=
  fun f ho hg => by rw [← h f ho hg, State.get, State.get, hl.regs f.key (hg _ hf)]

end RegsKeptOutside

theorem State.flag_eq (s : State) (f : Fld) : s.flag f = (s.get f == 1) := rfl

/-- A flag that is written reads as the lowest bit written. -/
theorem State.flag_put_self (s : State) {f : Fld} (hw : f.width = 1) (v : Nat) : (s.put f v).flag f = (v % 2 == 1) := by
  rw [State.flag, State.get_put_self, hw, pow_one]

theorem State.flag_put_ne (s : State) {f g : Fld} (v : Nat) (h : g.key ≠ f.key) : (s.put f v).flag g = s.flag g := by
  rw [State.flag, State.flag, State.get_put_ne s v h]

/-- A counter that saturates shows one more, or its greatest value. -/
theorem State.get_bump_self (s : State) (f : Fld) (n : Nat) : (s.bump f n).get f = min (s.get f + n) (2 ^ f.width - 1) := by
  have hpos := Nat.two_pow_pos f.width
  rw [State.bump, State.get_put_self, Nat.mod_eq_of_lt (by omega)]

theorem State.get_bump_ne (s : State) {f g : Fld} (n : Nat) (h : g.key ≠ f.key) : (s.bump f n).get g = s.get g :=
  State.get_put_ne s _ h

/-- An event of a core logic that runs leaves the always-on domain and the queue as they are. -/
theorem coreEvent_framed {s : State} (h : s.running = true) (k : State → State) : coreEvent s k = .next (s.framed (k s)) :=
  coreEvent_run h k

theorem State.framed_self (s : State) : s.framed s = s := rfl

/-- The frame keeps nothing back where the work itself left the always-on domain and the queue alone. -/
theorem State.framed_eq {s t : State} (ha : t.aon = s.aon) (hp : t.pending = s.pending) : s.framed t = t := by
  rw [State.framed, ← ha, ← hp]

theorem Notice.framed {s t : State} (h : Notice s t) : s.framed t = t := State.framed_eq (by rw [h.rest]) (by rw [h.rest])

/-- The core logic does not run: an event of it has no effect. -/
theorem State.running_iff (s : State) : s.running = true ↔ s.aon.thermLatch = false ∧ s.mode ≠ .reset := by
  simp [State.running]

theorem coreEvent_eq {s u : State} {k : State → State} (h : s.running = true) (hk : k s = u) : coreEvent s k = .next (s.framed u) :=
  hk ▸ coreEvent_framed h k

/-- What an event of the core answers, where its work leaves the always-on domain and the queue alone. -/
theorem coreEvent_next {s u : State} {k : State → State} (h : s.running = true) (hk : k s = u) (ha : u.aon = s.aon)
    (hp : u.pending = s.pending) : coreEvent s k = .next u := by
  rw [coreEvent_eq h hk, State.framed_eq ha hp]

theorem coreEvent_of_noop {s : State} {k : State → State} (h : s.running = true → s.framed (k s) = s) : coreEvent s k = .next s := by
  by_cases hr : s.running = true
  · rw [coreEvent_framed hr, h hr]
  · exact coreEvent_stop (by simpa using hr) k

theorem State.logDecide_logged (s : State) (e : Option Nat) (src k i a : Nat) : Logged s (s.logDecide e src k i a) :=
  s.logOne_logged ..

theorem State.logMode_logged (s : State) (e : Option Nat) (src k j a : Nat) : Logged s (s.logMode e src k j a) := s.logOne_logged ..

/-- A core's write to a sealed block has no effect in SHADOW (R219). -/
theorem State.sealedWrite_shadow {s : State} (h : s.mode = .shadow) (l : List (Nat × Nat)) (k : State → State) : s.sealedWrite l k = s :=
  if_pos h

/-- In another mode it is the write and its record. -/
theorem State.sealedWrite_logged {s : State} (h : s.mode ≠ .shadow) (l : List (Nat × Nat)) (k : State → State) :
    Logged (k s) (s.sealedWrite l k) := by
  rw [State.sealedWrite, if_neg h]
  exact State.logOne_logged ..

end Sys2Proof.Machine

/-! The machine as a whole: a step takes the front of the queue; no command touches the queue; the always-on domain, its latch and
the reset sources (R47, R296–R298). -/

namespace Sys2Proof.Machine

/-! ## A step -/

/-- Settles O1: one step of a state whose queue has a front. -/
theorem stepRunsFront : Obligations.StepRunsFront := fun _ _ _ => rfl

theorem State.step_idle {s : State} (h : s.pending = []) : step s = .next s.idleTick := by
  unfold step
  rw [h]

theorem State.step_front {s : State} {c : Instr} {rest : List Instr} (h : s.pending = c :: rest) :
    step s = exec c { s with pending := rest } := by
  unfold step
  rw [h]

/-- Beside the flags of the partner's life the age of what was heard changes nothing. -/
theorem State.liveAge_rest (s : State) : s.liveAge = { s with regs := s.liveAge.regs } := by
  unfold State.liveAge
  dsimp only
  split_ifs <;> rfl

theorem State.liveAge_kept (s : State) : RegsKept [R.TSL_STAT_PEER_LIVE, R.TSL_STAT_HB_OK] s s.liveAge := by
  have live {t : State} (h : RegsKept [R.TSL_STAT_PEER_LIVE, R.TSL_STAT_HB_OK] s t) :
      RegsKept [R.TSL_STAT_PEER_LIVE, R.TSL_STAT_HB_OK] s (t.put R.TSL_STAT_PEER_LIVE 0) := h.put (by simp) 0
  have heard {t : State} (h : RegsKept [R.TSL_STAT_PEER_LIVE, R.TSL_STAT_HB_OK] s t) :
      RegsKept [R.TSL_STAT_PEER_LIVE, R.TSL_STAT_HB_OK] s (t.put R.TSL_STAT_HB_OK 0) := h.put (by simp) 0
  have same := RegsKept.refl [R.TSL_STAT_PEER_LIVE, R.TSL_STAT_HB_OK] s
  unfold State.liveAge
  dsimp only
  split_ifs
  · exact heard (live same)
  · exact live same
  · exact heard same
  · exact same

/-- Settles O2: the tick of the clocks, and then the age of what was heard of the partner. -/
theorem idleTickPasses : Obligations.IdleTickPasses := by
  unfold Obligations.IdleTickPasses
  intro s h
  have hrest := s.timeTick.liveAge_rest
  refine ⟨s.idleTick, s.step_idle h, ?_, ?_, ?_, s.timeTick.liveAge_kept⟩
  · rw [State.idleTick, hrest]; rfl
  · rw [State.idleTick, hrest]; exact ⟨rfl, rfl⟩
  · rw [State.idleTick, hrest]; rfl

/-- Settles O3: the register table of the reset state is empty, so every field reads as unlisted. -/
theorem resetState : Obligations.ResetState :=
  ⟨rfl, rfl, rfl, rfl, fun _ => rfl, by decide, rfl⟩

/-- Settles O4: no latch is set at reset. -/
theorem latchSafeAtReset : Obligations.LatchSafeAtReset := fun h => by cases h

/-! ## The chip in RESET -/

theorem State.resetChip_mode (s : State) (a : Aon) : (s.resetChip a).mode = .reset := rfl
theorem State.resetChip_aon (s : State) (a : Aon) : (s.resetChip a).aon = a := rfl
theorem State.resetChip_pending (s : State) (a : Aon) : (s.resetChip a).pending = s.pending := rfl

/-- The bits of BTJ_RSTCAUSE are those of the cause the always-on domain holds (Table 13.11). -/
theorem State.resetChip_cause (s : State) {a : Aon} {c : Nat} (h : a.cause = c) :
    (s.resetChip a).get R.BTJ_RSTCAUSE_POR = c % 2 ∧ (s.resetChip a).get R.BTJ_RSTCAUSE_PIN = c / 2 % 2 ∧
      (s.resetChip a).get R.BTJ_RSTCAUSE_SOFT = c / 4 % 2 ∧ (s.resetChip a).get R.BTJ_RSTCAUSE_WDOG = c / 8 % 2 ∧
      (s.resetChip a).get R.BTJ_RSTCAUSE_CLEAN = c / 16 % 2 := by
  subst h
  unfold State.resetChip
  simp [State.get_put, Fld.key, R.BTJ_RSTCAUSE_POR, R.BTJ_RSTCAUSE_PIN, R.BTJ_RSTCAUSE_SOFT, R.BTJ_RSTCAUSE_WDOG, R.BTJ_RSTCAUSE_CLEAN]

/-! ## A slot of the housekeeping round (R390) -/

/-- The converter channel's reading taken, and the next slot. -/
def State.slotTaken (s : State) (value : Nat) : State :=
  { s with chuck := { s.chuck with
    slot := (if s.aon.retention = 2 ∧ 27 ≤ s.chuck.slot then 0 else (s.chuck.slot + 1) % 64),
    raw := modifyNth s.chuck.raw s.chuck.slot (fun _ => value % 2 ^ 16) } }

/-- The reading of channel `k` shown, unless its sensor counts as broken. -/
def State.slotShown (s : State) (k value : Nat) (valid : Bool) : State :=
  if k < 24 && s.bitIn R.CHK_TS_BROKEN_BROKEN k then s else (s.put (R.CHK_CH_VALUE k) value).put (R.CHK_CH_VALID k) (b2n valid)

/-- The channels of the core rails are shown as measured voltages too. -/
def State.slotRail (s : State) (k value : Nat) : State :=
  if k = 28 then s.put R.CHK_VCORE_MEAS value else if k = 29 then s.put R.CHK_VSP_MEAS value else s

/-- The state once a reading is taken and shown. -/
def State.slotRead (s : State) (value : Nat) (valid : Bool) : State :=
  ((s.slotTaken value).slotShown s.chuck.slot value valid).slotRail s.chuck.slot value

/-- What a slot does: beside the reading, a reference that is not valid is reported. -/
def State.slotDone (s : State) (value : Nat) (valid : Bool) : State :=
  if 24 ≤ s.chuck.slot ∧ s.chuck.slot ≤ 27 ∧ valid = false ∧ (s.slotRead value valid).aon.thermLatch = false then
    (s.slotRead value valid).raise R.CHK_STAT_RD_BAD srcCHK
  else s.slotRead value valid

theorem State.slotRead_rest (s : State) (value : Nat) (valid : Bool) :
    s.slotRead value valid = { s.slotTaken value with regs := (s.slotRead value valid).regs } := by
  unfold State.slotRead State.slotShown State.slotRail
  split_ifs <;> rfl

/-- A slot leaves everything but registers, notices and Chuck's own readings. -/
theorem State.slotDone_rest (s : State) (value : Nat) (valid : Bool) :
    s.slotDone value valid = { s.slotTaken value with
      regs := (s.slotDone value valid).regs, mbx := (s.slotDone value valid).mbx, hic := (s.slotDone value valid).hic
      out := (s.slotDone value valid).out } := by
  have hread := s.slotRead_rest value valid
  unfold State.slotDone
  split
  · have hraise := (s.slotRead value valid).raise_rest R.CHK_STAT_RD_BAD srcCHK
    generalize s.slotRead value valid = u at hread hraise
    generalize u.raise R.CHK_STAT_RD_BAD srcCHK = v at hraise
    rw [hread] at hraise
    rw [hraise]
  · rw [hread]

theorem exec_housekeepingSlot {s : State} (h : s.mode ≠ .reset) (value : Nat) (valid : Bool) :
    exec (.housekeepingSlot value valid) s = .next (s.slotDone value valid) := by
  have hpend : (s.slotDone value valid).pending = s.pending := by rw [s.slotDone_rest]; rfl
  show execHousekeepingSlot value valid s = _
  rw [execHousekeepingSlot, aonEvent, if_neg h]
  show Host.Outcome.next { s.slotDone value valid with pending := s.pending } = _
  rw [← hpend]

theorem exec_housekeepingSlot_reset {s : State} (h : s.mode = .reset) (value : Nat) (valid : Bool) :
    exec (.housekeepingSlot value valid) s = .next s := by
  show execHousekeepingSlot value valid s = _
  rw [execHousekeepingSlot, aonEvent, if_pos h]

/-- A housekeeping slot keeps the mode, the always-on domain and the queue. -/
theorem exec_housekeepingSlot_kept {s t : State} {value : Nat} {valid : Bool} (h : exec (.housekeepingSlot value valid) s = .next t) :
    t.mode = s.mode ∧ t.aon = s.aon ∧ t.pending = s.pending := by
  by_cases hm : s.mode = .reset
  · rw [exec_housekeepingSlot_reset hm] at h
    cases h
    exact ⟨rfl, rfl, rfl⟩
  · rw [exec_housekeepingSlot hm] at h
    cases h
    rw [s.slotDone_rest]
    exact ⟨rfl, rfl, rfl⟩

/-! ## What each command with a form of its own leaves of the always-on domain, the mode and the queue -/

theorem exec_powerOnReset (s : State) : exec .powerOnReset s
    = .next (s.resetChip { thermLatch := false, cause := rcPOR, lowNs := 0, failRunClear := true, retention := 0 }) := rfl

/-- RESET_N in the latch, or low for less than 200 ns, does nothing (R296, R298). -/
theorem exec_resetNAssert_noop {s : State} {n : Nat} (h : s.aon.thermLatch = true ∨ n < 200) : exec (.resetNAssert n) s = .next s := by
  show execResetNAssert n s = _
  unfold execResetNAssert
  split
  · rfl
  · obtain h | h := h
    · contradiction
    · have h1 : ¬ 1000 ≤ n := by omega
      have h2 : ¬ 200 ≤ n := by omega
      simp [h1, h2]

/-- RESET_N low for 1 µs resets the chip, and from 1 s it is a clean reset (R296). -/
theorem exec_resetNAssert_reset {s : State} {n : Nat} (hl : s.aon.thermLatch = false) (h : 1000 ≤ n) : exec (.resetNAssert n) s
    = .next (s.resetChip { s.aon with cause := if 1000000000 ≤ n then rcPIN + rcCLEAN else rcPIN, lowNs := n }) := by
  show execResetNAssert n s = _
  have h1 : ¬ n < 1000 := by omega
  simp [execResetNAssert, hl, h, h1]

/-- Between the two bounds a free value decides (log entry 15). -/
theorem exec_resetNAssert_cases (s : State) (n : Nat) : exec (.resetNAssert n) s = .next s ∨ s.aon.thermLatch = false ∧
    (exec (.resetNAssert n) s = .next s.took ∨ ∃ u a, (u = s ∨ u = s.took) ∧ a.thermLatch = false ∧
      exec (.resetNAssert n) s = .next (u.resetChip a)) := by
  by_cases hl : s.aon.thermLatch = true
  · exact .inl (exec_resetNAssert_noop (.inl hl))
  · have hl : s.aon.thermLatch = false := by simpa using hl
    show execResetNAssert n s = .next s ∨ _ ∧ (execResetNAssert n s = _ ∨ ∃ u a, _ ∧ _ ∧ execResetNAssert n s = _)
    unfold execResetNAssert
    rw [if_neg (by simp [hl])]
    dsimp only
    split
    · refine .inr ⟨hl, .inr ⟨_, _, ?_, ?_, rfl⟩⟩
      · split
        · exact .inr rfl
        · exact .inl rfl
      · show (if _ then s.took else s).aon.thermLatch = false
        split <;> exact hl
    · split
      · exact .inr ⟨hl, .inl rfl⟩
      · exact .inl rfl

theorem exec_resetRelease_kept {s t : State} {a b c : Nat} (h : exec (.resetRelease a b c) s = .next t) :
    t.aon = s.aon ∧ t.pending = s.pending ∧ (s.aon.thermLatch = true → t = s) := by
  change execResetRelease a b c s = _ at h
  unfold execResetRelease at h
  split at h
  next hgo =>
    cases h
    exact ⟨rfl, rfl, fun hl => by simp [hgo.2] at hl⟩
  next => cases h; exact ⟨rfl, rfl, fun _ => rfl⟩

theorem exec_bootWatchdog_noop {s : State} (h : s.aon.thermLatch = true) : exec .bootWatchdog s = .next s := by
  show execBootWatchdog s = _
  simp [execBootWatchdog, h]

theorem exec_bootWatchdog_reset {s : State} (hl : s.aon.thermLatch = false) (h : s.mode = .boot) :
    exec .bootWatchdog s = .next (s.resetChip { s.aon with cause := rcWDOG, failRunClear := false }) := by
  show execBootWatchdog s = _
  simp [execBootWatchdog, hl, h]

theorem exec_bootWatchdog_kept {s t : State} (h : exec .bootWatchdog s = .next t) :
    t.aon.thermLatch = s.aon.thermLatch ∧ t.pending = s.pending ∧ (s.aon.thermLatch = true → t = s) := by
  change execBootWatchdog s = _ at h
  unfold execBootWatchdog at h
  split at h
  next hgo => cases h; exact ⟨rfl, rfl, fun hl => by simp [hgo.1] at hl⟩
  next => cases h; exact ⟨rfl, rfl, fun _ => rfl⟩

theorem exec_bootStepEnd_kept {s t : State} {ok : Bool} {mask : Nat} (h : exec (.bootStepEnd ok mask) s = .next t) :
    t.aon.thermLatch = s.aon.thermLatch ∧ t.pending = s.pending ∧ (s.aon.thermLatch = true → t = s) := by
  change execBootStepEnd ok mask s = _ at h
  unfold execBootStepEnd at h
  split at h
  next hgo =>
    cases h
    exact ⟨rfl, rfl, fun hl => by simp [State.running, hl] at hgo⟩
  next => cases h; exact ⟨rfl, rfl, fun _ => rfl⟩

theorem exec_softReset_kept {s t : State} {r : SlotRef} (h : exec (.softReset r) s = .next t) :
    t.aon.thermLatch = s.aon.thermLatch ∧ t.pending = s.pending ∧ (s.aon.thermLatch = true → t = s) := by
  change execSoftReset r s = _ at h
  unfold execSoftReset at h
  split at h
  next hgo =>
    cases h
    exact ⟨rfl, rfl, fun hl => by simp [State.running, hl] at hgo⟩
  next => cases h; exact ⟨rfl, rfl, fun _ => rfl⟩

theorem exec_housekeepingRoundEnd_stop {s : State} (h : s.running = false) : exec .housekeepingRoundEnd s = .next s := by
  show aonEvent s _ = _
  simp [aonEvent, h]

theorem exec_housekeepingRoundEnd_run {s : State} (h : s.running = true) :
    exec .housekeepingRoundEnd s = .next { s.roundEnd with pending := s.pending } := by
  show aonEvent s _ = _
  simp [aonEvent, h]

theorem exec_errorReport_stop {s : State} (h : s.running = false) (src unit cause : Nat) :
    exec (.errorReport src unit cause) s = .next s := by
  show execErrorReport src unit cause s = _
  simp [execErrorReport, h]

theorem exec_errorReport_run {s : State} (h : s.running = true) (src unit cause : Nat) : exec (.errorReport src unit cause) s
    = .next { s.report src unit cause with
        aon := if src = 51 then (s.report src unit cause).aon else s.aon, pending := s.pending } := by
  show execErrorReport src unit cause s = _
  rw [execErrorReport, if_pos h]

/-- The retention of the core rails (R382): the two targets, the enables and power-goods of rails 7 to 3, the mark that it is done. -/
def State.retained (s : State) : State :=
  let u := (((s.emit (.avs 0 600)).emit (.avs 1 600)).put R.CHK_VCORE_TARGET 600).put R.CHK_VSP_TARGET 600
  let u := u.forEach [7, 6, 5, 4, 3] (fun s k =>
    ((s.put R.CHK_RAIL_EN (clrBit (s.get R.CHK_RAIL_EN) (k - 1))).put R.CHK_RAIL_PG (clrBit (s.get R.CHK_RAIL_PG) (k - 1))).emit (.pin .railEn k 0))
  { u with aon := { u.aon with retention := 2 } }

theorem exec_railRetention (s : State) : exec .railRetention s
    = .next (if s.aon.thermLatch = true ∧ s.aon.retention = 1 then s.retained else s) := by
  show aonEvent s _ = _
  unfold aonEvent
  by_cases h : s.aon.thermLatch = true ∧ s.aon.retention = 1
  · have hgo : (s.aon.thermLatch && (s.aon.retention == 1)) = true := by simp [h]
    rw [if_pos h, if_pos hgo]
    rfl
  · have hgo : ¬ (s.aon.thermLatch && (s.aon.retention == 1)) = true := by simpa using h
    rw [if_neg h, if_neg hgo]

/-- Retention keeps the mode, the latch and the queue. -/
theorem exec_railRetention_kept {s t : State} (h : exec .railRetention s = .next t) :
    t.mode = s.mode ∧ t.aon.thermLatch = s.aon.thermLatch ∧ t.pending = s.pending := by
  rw [exec_railRetention] at h
  split at h <;> cases h <;> exact ⟨rfl, rfl, rfl⟩

/-! ## The thermal latch -/

/-- A report of source 51 leaves the latch as it is, or takes the block into it, in SAFE. -/
theorem State.report_51 (s : State) (unit cause : Nat) :
    (s.report 51 unit cause).aon = s.aon ∨ (s.report 51 unit cause).mode = .safe := by
  have hlatch : (s.latch 51 unit cause).aon = s.aon := by
    unfold State.latch
    simp only [Nat.reduceLeDiff, if_true]
    split <;> rfl
  have hreport : s.report 51 unit cause = (s.latch 51 unit cause).chipReport 51 unit cause := by
    unfold State.report
    simp
  rw [hreport]
  unfold State.chipReport
  rw [if_pos rfl]
  split
  · exact .inl hlatch
  · obtain ⟨hm, -, -⟩ := (s.latch 51 unit cause).thermalShutdown_spec
    exact .inr hm

/-- The end of a round leaves the always-on domain as it is, or takes the block into the latch, in SAFE. -/
theorem State.roundEnd_latch (s : State) : s.roundEnd.aon = s.aon ∨ s.roundEnd.mode = .safe := by
  unfold State.roundEnd
  dsimp only
  split
  · exact .inr s.roundForm.thermalShutdown_spec.1
  · exact .inl rfl

theorem running_of_latch {s : State} (h : s.aon.thermLatch = true) : s.running = false := by simp [State.running, h]

/-- Every command keeps the property of the latch: outside the latch only the die limit and source 51 take the block into it, and
both lead to SAFE; in the latch nothing but the always-on domain acts, and that keeps the mode. -/
theorem exec_latchSafe {c : Instr} {s t : State} (hs : LatchSafe s) (h : exec c s = .next t) : LatchSafe t := by
  have same {u : State} (hl : u.aon.thermLatch = s.aon.thermLatch) (hm : s.aon.thermLatch = true → u.mode = s.mode) : LatchSafe u :=
    fun hu => (hm (hl ▸ hu)).trans (hs (hl ▸ hu))
  cases hown : ownForm c with
  | false =>
    obtain ⟨k, hk⟩ := exec_core hown s
    rw [hk] at h
    refine same (by rw [(coreEvent_kept h).1]) fun hl => ?_
    rw [coreEvent_stop (running_of_latch hl)] at h
    cases h
    rfl
  | true =>
    cases c
    case powerOnReset => cases h; exact fun hl => by cases hl
    case resetNAssert n =>
      obtain he | ⟨hl, he | ⟨u, a, -, ha, he⟩⟩ := exec_resetNAssert_cases s n
      · rw [he] at h; cases h; exact hs
      · rw [he] at h; cases h; exact hs
      · rw [he] at h; cases h; exact fun hu => by rw [State.resetChip_aon, ha] at hu; cases hu
    case resetRelease a b n =>
      obtain ⟨ha, -, hsame⟩ := exec_resetRelease_kept h
      exact same (by rw [ha]) fun hl => by rw [hsame hl]
    case bootWatchdog =>
      obtain ⟨hl, -, hsame⟩ := exec_bootWatchdog_kept h
      exact same hl fun hl => by rw [hsame hl]
    case bootStepEnd ok m =>
      obtain ⟨hl, -, hsame⟩ := exec_bootStepEnd_kept h
      exact same hl fun hl => by rw [hsame hl]
    case softReset r =>
      obtain ⟨hl, -, hsame⟩ := exec_softReset_kept h
      exact same hl fun hl => by rw [hsame hl]
    case railRetention =>
      obtain ⟨hm, hl, -⟩ := exec_railRetention_kept h
      exact same hl fun _ => hm
    case housekeepingSlot v ok =>
      obtain ⟨hm, ha, -⟩ := exec_housekeepingSlot_kept h
      exact same (by rw [ha]) fun _ => hm
    case housekeepingRoundEnd =>
      cases hr : s.running with
      | false => rw [exec_housekeepingRoundEnd_stop hr] at h; cases h; exact hs
      | true =>
        rw [exec_housekeepingRoundEnd_run hr] at h
        have hround := s.roundEnd_latch
        generalize s.roundEnd = u at h hround
        cases h
        obtain ha | hm := hround
        · refine same (congrArg Aon.thermLatch ha) fun hl => ?_
          simp [running_of_latch hl] at hr
        · exact fun _ => hm
    case errorReport src unit cause =>
      cases hr : s.running with
      | false => rw [exec_errorReport_stop hr] at h; cases h; exact hs
      | true =>
        have hno : s.aon.thermLatch = false := ((State.running_iff s).1 hr).1
        rw [exec_errorReport_run hr] at h
        by_cases hsrc : src = 51
        · subst hsrc
          have hreport := s.report_51 unit cause
          generalize s.report 51 unit cause = u at h hreport
          cases h
          obtain ha | hm := hreport
          · exact fun hl => by simp [ha, hno] at hl
          · exact fun _ => hm
        · generalize s.report src unit cause = u at h
          cases h
          exact fun hl => by simp [hsrc, hno] at hl
    all_goals cases hown

/-- Settles O5: a step is a tick, which touches neither mode nor latch, or a command. -/
theorem latchSafeKept : Obligations.LatchSafeKept := by
  unfold Obligations.LatchSafeKept
  intro s t hs h
  cases hp : s.pending with
  | nil =>
    rw [State.step_idle hp] at h
    cases h
    rw [State.idleTick, State.liveAge_rest]
    exact hs
  | cons c rest =>
    rw [State.step_front hp] at h
    exact exec_latchSafe (s := { s with pending := rest }) hs h

/-- Settles O6: events of the core keep the queue by their frame, and so does each command with a form of its own. -/
theorem commandsKeepQueue : Obligations.CommandsKeepQueue := by
  unfold Obligations.CommandsKeepQueue
  intro c s t h
  cases hown : ownForm c with
  | false =>
    obtain ⟨k, hk⟩ := exec_core hown s
    exact (coreEvent_kept (hk ▸ h)).2
  | true =>
    cases c
    case powerOnReset => cases h; rfl
    case resetNAssert n =>
      obtain he | ⟨-, he | ⟨u, a, rfl | rfl, -, he⟩⟩ := exec_resetNAssert_cases s n
      all_goals rw [he] at h; cases h; rfl
    case resetRelease => exact (exec_resetRelease_kept h).2.1
    case bootWatchdog => exact (exec_bootWatchdog_kept h).2.1
    case bootStepEnd => exact (exec_bootStepEnd_kept h).2.1
    case softReset => exact (exec_softReset_kept h).2.1
    case railRetention => exact (exec_railRetention_kept h).2.2
    case housekeepingSlot => exact (exec_housekeepingSlot_kept h).2.2
    case housekeepingRoundEnd =>
      cases hr : s.running with
      | false => rw [exec_housekeepingRoundEnd_stop hr] at h; cases h; rfl
      | true =>
        rw [exec_housekeepingRoundEnd_run hr] at h
        generalize s.roundEnd = u at h
        cases h
        rfl
    case errorReport =>
      cases hr : s.running with
      | false => rw [exec_errorReport_stop hr] at h; cases h; rfl
      | true =>
        rw [exec_errorReport_run hr] at h
        generalize s.report _ _ _ = u at h
        cases h
        rfl
    all_goals cases hown

/-- Settles O7: the latch stops the core logic, and with it every event of the core and every other command with a form of its own. -/
theorem latchStopsCommands : Obligations.LatchStopsCommands := by
  unfold Obligations.LatchStopsCommands
  intro c s hl hc
  have hr := running_of_latch hl
  cases hown : ownForm c with
  | false =>
    obtain ⟨k, hk⟩ := exec_core hown s
    rw [hk, coreEvent_stop hr]
  | true =>
    cases c
    case resetNAssert => exact exec_resetNAssert_noop (.inl hl)
    case resetRelease a b n =>
      show execResetRelease a b n s = _
      simp [execResetRelease, hl]
    case bootWatchdog => exact exec_bootWatchdog_noop hl
    case bootStepEnd ok m =>
      show execBootStepEnd ok m s = _
      simp [execBootStepEnd, hr]
    case softReset r =>
      show execSoftReset r s = _
      simp [execSoftReset, hr]
    case housekeepingRoundEnd => exact exec_housekeepingRoundEnd_stop hr
    case errorReport => exact exec_errorReport_stop hr ..
    case powerOnReset => cases hc
    case railRetention => cases hc
    case housekeepingSlot => cases hc
    all_goals cases hown

/-- Settles O8: events of the core keep the always-on domain by their frame. -/
theorem commandsKeepAlwaysOn : Obligations.CommandsKeepAlwaysOn := by
  unfold Obligations.CommandsKeepAlwaysOn
  intro c s t h
  cases hown : ownForm c with
  | false =>
    obtain ⟨k, hk⟩ := exec_core hown s
    have ha := (coreEvent_kept (hk ▸ h)).1
    split <;> trivial
  | true =>
    cases c
    case resetRelease => exact (exec_resetRelease_kept h).1
    case housekeepingSlot => exact (exec_housekeepingSlot_kept h).2.1
    case powerOnReset | resetNAssert | bootWatchdog | bootStepEnd | railRetention | housekeepingRoundEnd | errorReport | softReset => trivial
    all_goals cases hown

/-- Settles O9: which cause the always-on domain holds when each source takes the chip to RESET. -/
theorem resetSources : Obligations.ResetSources := by
  unfold Obligations.ResetSources
  refine ⟨fun s => ?_, fun s n hl hn => ?_, fun s n hn => exec_resetNAssert_noop (.inr hn), fun s hl hm => ?_,
    fun s n hl => ⟨exec_resetNAssert_noop (.inl hl), exec_bootWatchdog_noop hl⟩⟩
  · obtain ⟨hpor, hpin, hsoft, hwdog, -⟩ := s.resetChip_cause
      (a := { thermLatch := false, cause := rcPOR, lowNs := 0, failRunClear := true, retention := 0 }) (c := rcPOR) rfl
    exact ⟨_, exec_powerOnReset s, rfl, rfl, rfl, rfl, hpor, hpin, hsoft, hwdog⟩
  · obtain ⟨hpor, hpin, -, -, hclean⟩ := s.resetChip_cause
      (a := { s.aon with cause := if 1000000000 ≤ n then rcPIN + rcCLEAN else rcPIN, lowNs := n })
      (c := if 1000000000 ≤ n then rcPIN + rcCLEAN else rcPIN) rfl
    refine ⟨_, exec_resetNAssert_reset hl hn, rfl, rfl, rfl, hpor.trans ?_, hpin.trans ?_, hclean.trans ?_⟩
    all_goals split <;> rfl
  · obtain ⟨-, hpin, -, hwdog, -⟩ := s.resetChip_cause
      (a := { s.aon with cause := rcWDOG, failRunClear := false }) (c := rcWDOG) rfl
    exact ⟨_, exec_bootWatchdog_reset hl hm, rfl, rfl, rfl, hwdog, hpin⟩

end Sys2Proof.Machine

/-! The symbol code (R27–R29): the syndrome adds up over the symbols, so an error of one symbol shows its own column. -/

namespace Sys2Proof.Machine

/-! ## The syndrome as a sum over the symbols -/

/-- One component of the syndrome over the first `n` symbols; `h` is the row of the check matrix. -/
def eccRow (h : Nat → Nat) (n w : Nat) : Nat := (List.range n).foldl (fun s i => Nat.xor s (gfMul (w / 16 ^ i % 16) (h i))) 0

theorem eccRow_succ (h : Nat → Nat) (n w : Nat) : eccRow h (n + 1) w = Nat.xor (eccRow h n w) (gfMul (w / 16 ^ n % 16) (h n)) := by
  simp [eccRow, List.range_succ]

theorem eccSyndrome_eq (w : Nat) : eccSyndrome w = (eccRow (fun i => (eccColumn i).1) 36 w, eccRow (fun i => (eccColumn i).2.1) 36 w,
    eccRow (fun i => (eccColumn i).2.2.1) 36 w, eccRow (fun i => (eccColumn i).2.2.2) 36 w) := by
  unfold eccSyndrome
  generalize 36 = n
  induction n with
  | zero => rfl
  | succ n ih =>
    simp only [List.range_succ, List.foldl_append, List.foldl_cons, List.foldl_nil, eccRow_succ] at ih ⊢
    rw [ih]

/-- Words with the same syndrome are judged alike. -/
theorem eccJudge_congr {v w : Nat} (h : eccSyndrome v = eccSyndrome w) : eccJudge v = eccJudge w := by
  unfold eccJudge
  rw [h]

/-! ## Additivity -/

theorem natXor_eq (a b : Nat) : Nat.xor a b = a ^^^ b := rfl

theorem gfTwice_xor : ∀ a < 16, ∀ b < 16, gfTwice (a ^^^ b) = gfTwice a ^^^ gfTwice b := by decide +kernel

theorem gfTwice_lt : ∀ a < 16, gfTwice a < 16 := by decide

/-- Multiplication in GF(16) distributes over addition. -/
theorem gfMul_xor {a b : Nat} (ha : a < 16) (hb : b < 16) (c : Nat) : gfMul (a ^^^ b) c = gfMul a c ^^^ gfMul b c := by
  have h1 := gfTwice_xor a ha b hb
  have h2 := gfTwice_xor _ (gfTwice_lt a ha) _ (gfTwice_lt b hb)
  have h3 := gfTwice_xor _ (gfTwice_lt _ (gfTwice_lt a ha)) _ (gfTwice_lt _ (gfTwice_lt b hb))
  have term (p : Prop) [Decidable p] (x y : Nat) : (if p then x ^^^ y else 0) = (if p then x else 0) ^^^ (if p then y else 0) := by
    split <;> simp
  simp only [gfMul, natXor_eq, h1, h2, h3, term]
  ac_rfl

theorem gfMul_zero (c : Nat) : gfMul 0 c = 0 := by
  simp [gfMul, show gfTwice 0 = 0 from rfl]

/-- A symbol of a sum is the sum of the symbols. -/
theorem symbol_xor (a b i : Nat) : (a ^^^ b) / 16 ^ i % 16 = (a / 16 ^ i % 16) ^^^ (b / 16 ^ i % 16) := by
  have h16 : (16 : Nat) = 2 ^ 4 := rfl
  rw [h16, ← pow_mul, ← Nat.shiftRight_eq_div_pow, ← Nat.shiftRight_eq_div_pow, ← Nat.shiftRight_eq_div_pow,
    Nat.shiftRight_xor_distrib, Nat.xor_mod_two_pow]

theorem eccRow_xor (h : Nat → Nat) (n a b : Nat) : eccRow h n (a ^^^ b) = eccRow h n a ^^^ eccRow h n b := by
  induction n with
  | zero => simp [eccRow]
  | succ n ih =>
    have hlt (w : Nat) : w / 16 ^ n % 16 < 16 := Nat.mod_lt _ (by decide)
    simp only [eccRow_succ, natXor_eq, ih, symbol_xor, gfMul_xor (hlt a) (hlt b)]
    ac_rfl

/-- An error added to a word whose syndrome is 0 shows the syndrome of the error alone. -/
theorem eccSyndrome_xor {w : Nat} (hw : eccSyndrome w = (0, 0, 0, 0)) (x : Nat) : eccSyndrome (Nat.xor w x) = eccSyndrome x := by
  rw [eccSyndrome_eq] at hw ⊢
  simp only [Prod.mk.injEq] at hw
  obtain ⟨h1, h2, h3, h4⟩ := hw
  show (eccRow _ 36 (w ^^^ x), _) = _
  rw [eccSyndrome_eq]
  simp only [show Nat.xor w x = w ^^^ x from rfl, eccRow_xor, h1, h2, h3, h4, Nat.zero_xor]

/-! ## A word as encoded -/

theorem eccRow_congr {h : Nat → Nat} {n v w : Nat} (hs : ∀ i < n, v / 16 ^ i % 16 = w / 16 ^ i % 16) : eccRow h n v = eccRow h n w := by
  induction n with
  | zero => rfl
  | succ n ih => rw [eccRow_succ, eccRow_succ, ih fun i hi => hs i (by omega), hs n (by omega)]

theorem gfMul_lt {a : Nat} (ha : a < 16) (c : Nat) : gfMul a c < 16 := by
  have h1 := gfTwice_lt a ha
  have h2 := gfTwice_lt _ h1
  have h3 := gfTwice_lt _ h2
  have term (p : Prop) [Decidable p] {x : Nat} (hx : x < 2 ^ 4) : (if p then x else 0) < 2 ^ 4 := by split <;> omega
  exact Nat.xor_lt_two_pow (Nat.xor_lt_two_pow (term _ ha) (term _ h1)) (Nat.xor_lt_two_pow (term _ h2) (term _ h3))

theorem eccRow_lt (h : Nat → Nat) (n w : Nat) : eccRow h n w < 16 := by
  induction n with
  | zero => exact Nat.zero_lt_succ 15
  | succ n ih =>
    rw [eccRow_succ]
    exact Nat.xor_lt_two_pow (n := 4) ih (gfMul_lt (Nat.mod_lt _ (by decide)) _)

/-- The symbols of 128 data bits with four check symbols above them. -/
theorem symbol_of_parts (d k : Nat) {i : Nat} (hi : i < 32) : (d + 2 ^ 128 * k) / 16 ^ i % 16 = d / 16 ^ i % 16 := by
  have h : (2 : Nat) ^ 128 = 16 ^ i * (16 * 16 ^ (31 - i)) := by
    rw [← pow_succ', ← pow_add, show i + (31 - i + 1) = 32 by omega]; rfl
  rw [h, mul_assoc, Nat.add_mul_div_left _ _ (by positivity), mul_assoc, Nat.add_mul_mod_self_left]

/-- The check symbols of a word as encoded (R28). -/
def eccCheck (d : Nat) : Nat × Nat × Nat × Nat :=
  let s := eccSyndrome d
  (s.1 ^^^ s.2.1 ^^^ s.2.2.1, s.2.2.2 ^^^ s.2.1 ^^^ gfMul 8 s.2.2.1, s.2.1, s.2.2.1)

theorem eccEncode_eq {d : Nat} (hd : d < 2 ^ 128) : eccEncode d = d + 2 ^ 128 *
    ((eccCheck d).1 + 16 * (eccCheck d).2.1 + 256 * (eccCheck d).2.2.1 + 4096 * (eccCheck d).2.2.2) := by
  have h : eccEncode d = d % 2 ^ 128 + (eccCheck (d % 2 ^ 128)).1 * 2 ^ 128 + (eccCheck (d % 2 ^ 128)).2.1 * 2 ^ 132
      + (eccCheck (d % 2 ^ 128)).2.2.1 * 2 ^ 136 + (eccCheck (d % 2 ^ 128)).2.2.2 * 2 ^ 140 := rfl
  rw [h, Nat.mod_eq_of_lt hd]
  omega

/-- The row of a word with its four check symbols: that of its data, and the check symbols' own columns. -/
theorem eccRow_encoded (h : Nat → Nat) {d a b c e : Nat} (hd : d < 2 ^ 128) (ha : a < 16) (hb : b < 16) (hc : c < 16) (he : e < 16) :
    eccRow h 36 (d + 2 ^ 128 * (a + 16 * b + 256 * c + 4096 * e))
      = eccRow h 36 d ^^^ gfMul a (h 32) ^^^ gfMul b (h 33) ^^^ gfMul c (h 34) ^^^ gfMul e (h 35) := by
  have data : eccRow h 32 (d + 2 ^ 128 * (a + 16 * b + 256 * c + 4096 * e)) = eccRow h 32 d :=
    eccRow_congr fun i hi => symbol_of_parts d _ hi
  have high {i : Nat} (hi : 32 ≤ i) : d / 16 ^ i % 16 = 0 := by
    rw [Nat.div_eq_of_lt (lt_of_lt_of_le hd ?_), Nat.zero_mod]
    calc (2 : Nat) ^ 128 = 16 ^ 32 := rfl
      _ ≤ 16 ^ i := Nat.pow_le_pow_right (by decide) hi
  have s32 : (d + 2 ^ 128 * (a + 16 * b + 256 * c + 4096 * e)) / 16 ^ 32 % 16 = a := by omega
  have s33 : (d + 2 ^ 128 * (a + 16 * b + 256 * c + 4096 * e)) / 16 ^ 33 % 16 = b := by omega
  have s34 : (d + 2 ^ 128 * (a + 16 * b + 256 * c + 4096 * e)) / 16 ^ 34 % 16 = c := by omega
  have s35 : (d + 2 ^ 128 * (a + 16 * b + 256 * c + 4096 * e)) / 16 ^ 35 % 16 = e := by omega
  simp only [eccRow_succ (n := 35), eccRow_succ (n := 34), eccRow_succ (n := 33), eccRow_succ (n := 32), data, s32, s33, s34, s35,
    high (show 32 ≤ 32 by decide), high (show 32 ≤ 33 by decide), high (show 32 ≤ 34 by decide), high (show 32 ≤ 35 by decide),
    gfMul_zero, natXor_eq, Nat.xor_zero]

theorem gfMul_zero_right : ∀ a < 16, gfMul a 0 = 0 := by decide
theorem gfMul_one : ∀ a < 16, gfMul a 1 = a := by decide
theorem gfMul_eight : ∀ a < 16, gfMul a 8 = gfMul 8 a := by decide

/-- The syndrome of a word as encoded is 0. -/
theorem eccSyndrome_encode {d : Nat} (hd : d < 2 ^ 128) : eccSyndrome (eccEncode d) = (0, 0, 0, 0) := by
  rw [eccEncode_eq hd]
  unfold eccCheck
  rw [eccSyndrome_eq (d + _), eccSyndrome_eq d]
  dsimp only
  have lt (h : Nat → Nat) := eccRow_lt h 36 d
  generalize ha : eccRow (fun i => (eccColumn i).1) 36 d = a
  generalize hb : eccRow (fun i => (eccColumn i).2.1) 36 d = b
  generalize hc : eccRow (fun i => (eccColumn i).2.2.1) 36 d = c
  generalize hf : eccRow (fun i => (eccColumn i).2.2.2) 36 d = f
  have la : a < 16 := ha ▸ lt _
  have lb : b < 16 := hb ▸ lt _
  have lc : c < 16 := hc ▸ lt _
  have lf : f < 16 := hf ▸ lt _
  have lg : gfMul 8 c < 16 := gfMul_lt (by decide) c
  have l32 : a ^^^ b ^^^ c < 16 := Nat.xor_lt_two_pow (n := 4) (Nat.xor_lt_two_pow (n := 4) la lb) lc
  have l33 : f ^^^ b ^^^ gfMul 8 c < 16 := Nat.xor_lt_two_pow (n := 4) (Nat.xor_lt_two_pow (n := 4) lf lb) lg
  rw [eccRow_encoded _ hd l32 l33 lb lc, eccRow_encoded _ hd l32 l33 lb lc, eccRow_encoded _ hd l32 l33 lb lc,
    eccRow_encoded _ hd l32 l33 lb lc, ha, hb, hc, hf]
  simp only [eccColumn, Nat.reduceLT, Nat.reduceEqDiff, if_true, if_false, gfMul_zero_right _ l32, gfMul_zero_right _ l33,
    gfMul_zero_right _ lb, gfMul_zero_right _ lc, gfMul_one _ l32, gfMul_one _ l33, gfMul_one _ lb, gfMul_one _ lc, gfMul_eight _ lc,
    Nat.xor_zero, Nat.xor_self, Prod.mk.injEq, true_and]
  have cancel (x y z : Nat) : x ^^^ (x ^^^ y ^^^ z) ^^^ y ^^^ z = 0 := by
    rw [show x ^^^ (x ^^^ y ^^^ z) ^^^ y ^^^ z = (x ^^^ x) ^^^ (y ^^^ y) ^^^ (z ^^^ z) by ac_rfl]
    simp
  exact ⟨cancel a b c, cancel f b _⟩

/-! ## An error of one symbol -/

theorem eccJudge_symbol : ∀ i < 36, ∀ e < 16, 0 < e → eccJudge (e * 16 ^ i) = .fixed i e := by decide +kernel

/-- Settles O18: the error's own column decides what is found, whatever the word. -/
theorem symbolCode : Obligations.SymbolCode := by
  unfold Obligations.SymbolCode
  intro d hd
  have hclean := eccSyndrome_encode hd
  refine ⟨by rw [eccJudge, hclean]; rfl, by rw [eccEncode_eq hd]; omega, fun i e hi he hlt => ?_⟩
  have hjudge : eccJudge (Nat.xor (eccEncode d) (e * 16 ^ i)) = .fixed i e :=
    (eccJudge_congr (eccSyndrome_xor hclean _)).trans (eccJudge_symbol i hi e hlt he)
  refine ⟨hjudge, ?_⟩
  rw [eccCorrect, hjudge]
  exact Nat.xor_xor_cancel_right _ _

end Sys2Proof.Machine

/-! Chuck (chapter 18): rails, the housekeeping round, AVSBus and the head supplies. -/

namespace Sys2Proof.Machine

theorem State.bitIn_eq (s : State) (f : Fld) (i : Nat) : s.bitIn f i = bit (s.get f) i := rfl

/-! ## Bits of a register that is written -/

/-- A bit that a write sets within the register's width reads as set. -/
theorem State.bit_put_setBit (s : State) {f : Fld} {i : Nat} (hi : i < f.width) (v : Nat) :
    bit ((s.put f (setBit v i)).get f) i = true := by
  rw [State.get_put_self, bit_mod hi, bit_setBit]

/-- A bit that a write clears reads as clear. -/
theorem State.bit_put_clrBit (s : State) {f : Fld} {i : Nat} (hi : i < f.width) (v : Nat) :
    bit ((s.put f (clrBit v i)).get f) i = false := by
  rw [State.get_put_self, bit_mod hi, bit_clrBit]

/-! ## A chip-level report (R46, R369) -/

/-- The latch of a source of the chip itself touches the collector's own registers only. -/
theorem State.latch_chip (s : State) {src : Nat} (h : 48 ≤ src) (unit cause : Nat) :
    RegsKept [R.FLT_SRC_UNIT src, R.FLT_SRC_CAUSE src, R.FLT_STATUS_STATUS, R.FLT_FIRST_SRC, R.FLT_FIRST_UNIT, R.FLT_FIRST_CAUSE,
        R.FLT_FIRST_VALID, R.FLT_FIRST_T_T] s (s.latch src unit cause) ∧
      s.latch src unit cause = { s with regs := (s.latch src unit cause).regs } := by
  have first := ((RegsKept.refl [R.FLT_SRC_UNIT src, R.FLT_SRC_CAUSE src, R.FLT_STATUS_STATUS, R.FLT_FIRST_SRC, R.FLT_FIRST_UNIT,
    R.FLT_FIRST_CAUSE, R.FLT_FIRST_VALID, R.FLT_FIRST_T_T] s).put (f := R.FLT_SRC_UNIT src) (by simp) unit).put
      (f := R.FLT_SRC_CAUSE src) (by simp) cause
  have latched := first.put (f := R.FLT_STATUS_STATUS) (by simp)
    (setBit (((s.put (R.FLT_SRC_UNIT src) unit).put (R.FLT_SRC_CAUSE src) cause).get R.FLT_STATUS_STATUS) src)
  unfold State.latch
  rw [if_pos h]
  dsimp only
  split
  · exact ⟨latched, rfl⟩
  · exact ⟨((((latched.put (by simp) src).put (by simp) unit).put (by simp) cause).put (by simp) 1).put (by simp) _, rfl⟩

/-- A report of a chip-level source, but for the die limit, takes a block that is not in SAFE there. -/
theorem State.report_safe {s : State} {src : Nat} (h48 : 48 ≤ src) (h57 : src < 57) (h51 : src ≠ 51) (hm : s.mode ≠ .safe)
    (hchip : s.bitIn R.FLT_CHIP_CHIP src = true) (unit cause : Nat) :
    (s.report src unit cause).mode = .safe ∧ (s.report src unit cause).safeCause = src := by
  obtain ⟨hkept, hrest⟩ := s.latch_chip h48 unit cause
  have hlevel : (s.latch src unit cause).chipLevel src = true := by
    rw [State.chipLevel, State.bitIn_eq, hkept.get (by
      simp [Fld.key, R.FLT_CHIP_CHIP, R.FLT_SRC_UNIT, R.FLT_SRC_CAUSE, R.FLT_STATUS_STATUS, R.FLT_FIRST_SRC, R.FLT_FIRST_UNIT,
        R.FLT_FIRST_CAUSE, R.FLT_FIRST_VALID, R.FLT_FIRST_T_T]
      omega)]
    exact hchip
  have hmode : (s.latch src unit cause).mode ≠ .safe := by rw [hrest]; exact hm
  have heq : s.report src unit cause = (s.latch src unit cause).safeEntry src unit cause mcFAULT := by
    rw [State.report, if_neg (by omega), if_neg (by omega), State.chipReport, if_neg (by simp [hlevel]), if_neg h51, if_neg hmode]
  rw [heq]
  exact ⟨(State.safeEntry_spec ..).1, (State.safeEntry_spec ..).2.1⟩

/-! ## Rails (R382, R383) -/

/-- The retention of rail `k`: its enable and its power-good fall. -/
def State.railDown (s : State) (k : Nat) : State :=
  ((s.put R.CHK_RAIL_EN (clrBit (s.get R.CHK_RAIL_EN) (k - 1))).put R.CHK_RAIL_PG (clrBit (s.get R.CHK_RAIL_PG) (k - 1))).emit
    (.pin .railEn k 0)

/-- Of the enables and the power-goods only the bits of rail `k` fall. -/
theorem State.railDown_bits (s : State) (k : Nat) {i : Nat} (hi : i < 7) :
    bit ((s.railDown k).get R.CHK_RAIL_EN) i = (bit (s.get R.CHK_RAIL_EN) i && decide (i ≠ k - 1)) ∧
      bit ((s.railDown k).get R.CHK_RAIL_PG) i = (bit (s.get R.CHK_RAIL_PG) i && decide (i ≠ k - 1)) := by
  have cleared (m : Nat) : bit (clrBit m (k - 1) % 2 ^ 7) i = (bit m i && decide (i ≠ k - 1)) := by
    rw [bit_mod hi]
    by_cases h : i = k - 1
    · simp [h, bit_clrBit]
    · simp [bit_clrBit_ne _ (Ne.symm h), h]
  constructor
  · rw [State.railDown, State.emit_get, State.get_put_ne _ _ (by decide), State.get_put_self]
    exact cleared _
  · rw [State.railDown, State.emit_get, State.get_put_self]
    exact cleared _

theorem State.railDown_kept (s : State) (k : Nat) : RegsKept [R.CHK_RAIL_EN, R.CHK_RAIL_PG] s (s.railDown k) :=
  ((RegsKept.refl _ s).put (by simp) _).put (by simp) _

theorem State.forEach_railDown_bits (l : List Nat) (s : State) {i : Nat} (hi : i < 7) (hl : i + 1 ∈ l) :
    bit ((s.forEach l State.railDown).get R.CHK_RAIL_EN) i = false ∧ bit ((s.forEach l State.railDown).get R.CHK_RAIL_PG) i = false := by
  have stay (l : List Nat) (u : State) (he : bit (u.get R.CHK_RAIL_EN) i = false) (hp : bit (u.get R.CHK_RAIL_PG) i = false) :
      bit ((u.forEach l State.railDown).get R.CHK_RAIL_EN) i = false ∧ bit ((u.forEach l State.railDown).get R.CHK_RAIL_PG) i = false := by
    induction l generalizing u with
    | nil => exact ⟨he, hp⟩
    | cons k l ih =>
      obtain ⟨hen, hpg⟩ := u.railDown_bits k hi
      exact ih _ (by rw [hen, he]; rfl) (by rw [hpg, hp]; rfl)
  induction l generalizing s with
  | nil => simp at hl
  | cons k l ih =>
    obtain ⟨hen, hpg⟩ := s.railDown_bits k hi
    by_cases hk : i + 1 = k
    · have hik : decide (i ≠ k - 1) = false := by simp; omega
      exact stay l _ (by rw [hen, hik, Bool.and_false]) (by rw [hpg, hik, Bool.and_false])
    · exact ih _ ((List.mem_cons.1 hl).resolve_left hk)

/-- Both core rails at their retention voltage. -/
def State.coreRetained (s : State) : State :=
  (((s.emit (.avs 0 600)).emit (.avs 1 600)).put R.CHK_VCORE_TARGET 600).put R.CHK_VSP_TARGET 600

theorem State.coreRetained_targets (s : State) : s.coreRetained.get R.CHK_VCORE_TARGET = 600 ∧ s.coreRetained.get R.CHK_VSP_TARGET = 600 :=
  ⟨(State.get_put_ne _ _ (by decide)).trans (State.get_put_self ..), State.get_put_self ..⟩

theorem State.retained_eq (s : State) : s.retained = { s with
    regs := (s.coreRetained.forEach [7, 6, 5, 4, 3] State.railDown).regs, aon := { s.aon with retention := 2 }
    out := (s.coreRetained.forEach [7, 6, 5, 4, 3] State.railDown).out } := rfl

/-- Settles O11: the order of the rails, their failures, and retention in the latch. -/
theorem rails : Obligations.Rails := by
  unfold Obligations.Rails
  refine ⟨fun s k hr h1 h7 hseq => ?_, fun s hr hseq => ?_, fun s k hr hm hseq hk hchip => ?_, fun s k hr hm h1 h7 hpg hchip => ?_,
    fun s hl hret => ?_⟩
  · have hin : k = s.chuck.seqRail ∧ 1 ≤ k ∧ k ≤ 7 := by omega
    refine ⟨_, coreEvent_eq hr ((if_pos hin).trans (if_pos h7)), ?_, ?_, rfl, rfl, ?_, rfl⟩
    · show bit ((State.put _ _ _).get _) _ = true
      rw [State.get_put_ne _ _ (by decide)]
      exact State.bit_put_setBit _ (show k - 1 < 7 by omega) _
    · exact State.bit_put_setBit _ (show k + 1 - 1 < 7 by omega) _
    · exact ((RegsKept.refl [R.CHK_RAIL_PG, R.CHK_RAIL_EN] s).put (by simp) _).put (by simp) _
  · have hin : 7 = s.chuck.seqRail ∧ 1 ≤ 7 ∧ 7 ≤ 7 := by omega
    refine ⟨_, coreEvent_eq hr ((if_pos hin).trans (if_neg (by omega))), ?_, rfl, ?_, rfl⟩
    · exact State.bit_put_setBit _ (by decide) _
    · exact (RegsKept.refl [R.CHK_RAIL_PG] s).put (by simp) _
  · obtain ⟨hmode, hcause⟩ := State.report_safe (s := { s with chuck := { s.chuck with seqRail := 0 } }) (src := 50)
      (by decide) (by decide) (by decide) hm hchip 0 1
    exact ⟨_, coreEvent_eq hr (if_pos ⟨hseq.symm, hk⟩), hmode, hcause⟩
  · obtain ⟨hmode, hcause⟩ := State.report_safe (src := 50) (by decide) (by decide) (by decide) hm hchip 0 1
    exact ⟨_, coreEvent_eq hr (if_pos ⟨h1, h7, hpg⟩), hmode, hcause⟩
  · have hdown : RegsKept [R.CHK_RAIL_EN, R.CHK_RAIL_PG] s.coreRetained (s.coreRetained.forEach [7, 6, 5, 4, 3] State.railDown) :=
      RegsKept.forEach (fun k _ u => u.railDown_kept k) _
    refine ⟨_, (exec_railRetention s).trans (by rw [if_pos ⟨hl, hret⟩, State.retained_eq]), rfl, ?_, ?_, fun i h2 h6 => ⟨?_, ?_⟩, ?_, rfl⟩
    · exact (hdown.get (f := R.CHK_VCORE_TARGET) (by decide)).trans s.coreRetained_targets.1
    · exact (hdown.get (f := R.CHK_VSP_TARGET) (by decide)).trans s.coreRetained_targets.2
    · exact (State.forEach_railDown_bits _ _ (by omega) (by simp; omega)).1
    · exact (State.forEach_railDown_bits _ _ (by omega) (by simp; omega)).2
    · exact (((RegsKept.refl _ s).put (f := R.CHK_VCORE_TARGET) (by simp) 600).put (f := R.CHK_VSP_TARGET) (by simp) 600).trans
        (hdown.mono (by simp))

/-! ## The housekeeping round (R390, R394) -/

/-- A channel's reading is shown, unless its sensor counts as broken; then its value stays. -/
theorem State.slotRead_shown (s : State) {k : Nat} (hk : s.chuck.slot = k) (v : Nat) (ok : Bool) :
    (¬ (k < 24 ∧ s.bitIn R.CHK_TS_BROKEN_BROKEN k = true) →
      (s.slotRead v ok).get (R.CHK_CH_VALUE k) = v % 2 ^ 16 ∧ (s.slotRead v ok).get (R.CHK_CH_VALID k) = b2n ok) ∧
    (k < 24 ∧ s.bitIn R.CHK_TS_BROKEN_BROKEN k = true → (s.slotRead v ok).get (R.CHK_CH_VALUE k) = s.get (R.CHK_CH_VALUE k)) := by
  subst hk
  have rail {f : Fld} (u : State) (h1 : f.key ≠ R.CHK_VCORE_MEAS.key) (h2 : f.key ≠ R.CHK_VSP_MEAS.key) (k : Nat) :
      (u.slotRail k v).get f = u.get f := by
    unfold State.slotRail
    split_ifs
    · exact State.get_put_ne _ _ h1
    · exact State.get_put_ne _ _ h2
    · rfl
  have hvalue := rail ((s.slotTaken v).slotShown s.chuck.slot v ok) (f := R.CHK_CH_VALUE s.chuck.slot)
    (by simp only [Fld.key, R.CHK_CH_VALUE, R.CHK_VCORE_MEAS]; omega) (by simp only [Fld.key, R.CHK_CH_VALUE, R.CHK_VSP_MEAS]; omega)
  have hvalid := rail ((s.slotTaken v).slotShown s.chuck.slot v ok) (f := R.CHK_CH_VALID s.chuck.slot)
    (by simp only [Fld.key, R.CHK_CH_VALID, R.CHK_VCORE_MEAS]; omega) (by simp only [Fld.key, R.CHK_CH_VALID, R.CHK_VSP_MEAS]; omega)
  have hbroken : (s.slotTaken v).bitIn R.CHK_TS_BROKEN_BROKEN s.chuck.slot = s.bitIn R.CHK_TS_BROKEN_BROKEN s.chuck.slot := rfl
  unfold State.slotRead
  rw [hvalue, hvalid, State.slotShown, hbroken]
  constructor
  · intro h
    rw [if_neg (by simpa using h)]
    refine ⟨?_, ?_⟩
    · rw [State.get_put_ne _ _ (by simp only [Fld.key, R.CHK_CH_VALUE, R.CHK_CH_VALID]; omega), State.get_put_self]; rfl
    · rw [State.get_put_self]; cases ok <;> rfl
  · intro h
    rw [if_pos (by simpa using h)]
    rfl

theorem State.slotRead_kept (s : State) (v : Nat) (ok : Bool) :
    RegsKept [R.CHK_CH_VALUE s.chuck.slot, R.CHK_CH_VALID s.chuck.slot, R.CHK_VCORE_MEAS, R.CHK_VSP_MEAS] s (s.slotRead v ok) := by
  have hshown : RegsKept [R.CHK_CH_VALUE s.chuck.slot, R.CHK_CH_VALID s.chuck.slot, R.CHK_VCORE_MEAS, R.CHK_VSP_MEAS] s
      ((s.slotTaken v).slotShown s.chuck.slot v ok) := by
    unfold State.slotShown
    exact RegsKept.ite (RegsKept.refl _ s) (((RegsKept.refl _ s).put (by simp) _).put (by simp) _)
  unfold State.slotRead State.slotRail
  exact RegsKept.ite (hshown.put (by simp) _) (RegsKept.ite (hshown.put (by simp) _) hshown)

theorem outside_chk_ch {k : Nat} (h : k < 64) : outside (R.CHK_CH_VALUE k).key ∧ outside (R.CHK_CH_VALID k).key := by
  simp only [outside, Fld.key, R.CHK_CH_VALUE, R.CHK_CH_VALID]
  omega

theorem State.roundEnd_hot {s : State} (h : s.roundForm.dieLimitReached = true) : s.roundEnd = s.roundForm.thermalShutdown := by
  unfold State.roundEnd
  dsimp only
  rw [if_pos h]

theorem State.roundEnd_aon {s : State} (h : s.roundForm.dieLimitReached = false) : s.roundEnd.aon = s.aon := by
  unfold State.roundEnd
  dsimp only
  split
  next hhot => rw [h] at hhot; cases hhot
  next => rfl

/-- Settles O12: the slots of a round, and its end at the die limit or short of it. -/
theorem housekeeping : Obligations.Housekeeping := by
  unfold Obligations.Housekeeping
  refine ⟨fun s v ok hm hret hslot => ?_, fun s hr hlim => ?_, fun s hr hlim => ?_⟩
  · obtain ⟨hshown, hbroken⟩ := s.slotRead_shown rfl v ok
    obtain ⟨hov, hok⟩ := outside_chk_ch hslot
    have hkept := s.slotRead_kept v ok
    have same {f : Fld} (ho : outside f.key) (hf : f.key ≠ R.CHK_STAT_RD_BAD.key) : (s.slotDone v ok).get f = (s.slotRead v ok).get f := by
      unfold State.slotDone
      split
      · exact State.raise_get _ ho hf
      · rfl
    have hvalue := same hov (by simp only [Fld.key, R.CHK_CH_VALUE, R.CHK_STAT_RD_BAD]; omega)
    have hvalid := same hok (by simp only [Fld.key, R.CHK_CH_VALID, R.CHK_STAT_RD_BAD]; omega)
    refine ⟨_, exec_housekeepingSlot hm v ok, ?_, ?_, ?_, ?_⟩
    · rw [s.slotDone_rest]
      exact if_neg fun h => hret h.1
    · rw [hvalue, hvalid]; exact hshown
    · rw [hvalue]; exact hbroken
    · have houtside := (hkept.mono (gs := [R.CHK_CH_VALUE s.chuck.slot, R.CHK_CH_VALID s.chuck.slot, R.CHK_VCORE_MEAS, R.CHK_VSP_MEAS,
        R.CHK_STAT_RD_BAD]) (by simp)).outside
      exact RegsKeptOutside.ite (houtside.raise (by simp) _) houtside
  · obtain ⟨hmode, hcause, hlatch⟩ := s.roundForm.thermalShutdown_spec
    rw [← State.roundEnd_hot hlim] at hmode hcause hlatch
    have hrun := exec_housekeepingRoundEnd_run hr
    generalize s.roundEnd = u at hrun hmode hcause hlatch
    exact ⟨_, hrun, hmode, hlatch, hcause⟩
  · have haon := State.roundEnd_aon hlim
    have hrun := exec_housekeepingRoundEnd_run hr
    generalize s.roundEnd = u at hrun haon
    exact ⟨_, hrun, haon⟩

/-! ## AVSBus, the head supplies and ALIVE (R384–R386, R35) -/

/-- The next transaction changes no register: it only takes the bus. -/
theorem State.avsKick_rest (s : State) : s.avsKick = { s with chuck := s.avsKick.chuck, out := s.avsKick.out } := by
  unfold State.avsKick
  split
  · rfl
  · split
    · rfl
    · split <;> rfl

/-- Settles O13: what each end of an AVSBus transaction does, the head supplies, and ALIVE. -/
theorem supplyTransactions : Obligations.SupplyTransactions := by
  unfold Obligations.SupplyTransactions
  refine ⟨fun s mv hr havs => ?_, fun s mv hr havs => ?_, fun s rail mv hr havs htry => ?_, fun s g hr hg hhv => ?_,
    fun s hr hm hon => ?_, fun s hr => ?_⟩
  · have hdone : s.avsDone = ((({ s with chuck := { s.chuck with avs := none, avsTries := 0 } } : State).put R.CHK_VCORE_TARGET mv)).avsKick := by
      simp [State.avsDone, havs]
    have hrest := (({ s with chuck := { s.chuck with avs := none, avsTries := 0 } } : State).put R.CHK_VCORE_TARGET mv).avsKick_rest
    refine ⟨_, coreEvent_eq hr hdone, ?_, ?_⟩
    · rw [hrest]
      exact State.get_put_self ..
    · rw [hrest]
      exact (RegsKept.refl [R.CHK_VCORE_TARGET] s).put (by simp) mv
  · have hdone : s.avsDone = ({ ((({ s with chuck := { s.chuck with avs := none, avsTries := 0 } } : State).put R.CHK_VSP_TARGET mv).put
        R.SPN_PACE_VSTEP ((mv - 700) / 10)) with path := { s.path with sinceStep := 0 } } : State).avsKick := by
      simp [State.avsDone, havs]
    have hrest := ({ ((({ s with chuck := { s.chuck with avs := none, avsTries := 0 } } : State).put R.CHK_VSP_TARGET mv).put
        R.SPN_PACE_VSTEP ((mv - 700) / 10)) with path := { s.path with sinceStep := 0 } } : State).avsKick_rest
    refine ⟨_, coreEvent_eq hr hdone, ?_, ?_, ?_, ?_⟩
    · rw [hrest]
      exact (State.get_put_ne _ _ (by decide)).trans (State.get_put_self ..)
    · rw [hrest]
      exact State.get_put_self ..
    · rw [hrest]
      rfl
    · rw [hrest]
      exact ((RegsKept.refl [R.CHK_VSP_TARGET, R.SPN_PACE_VSTEP] s).put (by simp) mv).put (by simp) _
  · have hfail : s.avsFail = ({ (s.bump R.CHK_CNT_AVS_RETRY).raise R.CHK_STAT_AVS_RETRY srcCHK with
        chuck := { s.chuck with avsTries := s.chuck.avsTries + 1 } } : State).emit (.avs rail mv) := by
      have hrest := State.raise_rest (s.bump R.CHK_CNT_AVS_RETRY) R.CHK_STAT_AVS_RETRY srcCHK
      have hchuck : ((s.bump R.CHK_CNT_AVS_RETRY).raise R.CHK_STAT_AVS_RETRY srcCHK).chuck = s.chuck := by rw [hrest]; rfl
      simp [State.avsFail, havs, hchuck, htry]
    have hkept := ((RegsKeptOutside.refl [R.CHK_CNT_AVS_RETRY, R.CHK_STAT_AVS_RETRY] s).bump (f := R.CHK_CNT_AVS_RETRY) (by simp) 1).raise
      (f := R.CHK_STAT_AVS_RETRY) (by simp) srcCHK
    have hcount := (State.raise_get (s := s.bump R.CHK_CNT_AVS_RETRY) (f := R.CHK_STAT_AVS_RETRY) (g := R.CHK_CNT_AVS_RETRY) srcCHK
      (outside_of rfl) (by decide)).trans (State.get_bump_self ..)
    have hflag := State.raise_flag (s := s.bump R.CHK_CNT_AVS_RETRY) (f := R.CHK_STAT_AVS_RETRY) srcCHK (outside_of rfl) (by decide)
    generalize (s.bump R.CHK_CNT_AVS_RETRY).raise R.CHK_STAT_AVS_RETRY srcCHK = u at hfail hkept hcount hflag
    exact ⟨_, coreEvent_eq hr hfail, coreEvent_eq hr hfail, hcount, hflag, rfl, rfl, hkept⟩
  · have hrest := State.raise_rest (s.put R.CHK_HV_PG (clrBit (s.get R.CHK_HV_PG) g)) R.CHK_STAT_HV_PG_LOST srcCHK
    refine ⟨_, coreEvent_next hr (if_pos ⟨hg, hhv⟩) (by rw [hrest]; rfl) (by rw [hrest]; rfl),
      coreEvent_next hr (if_pos ⟨hg, hhv⟩) (by rw [hrest]; rfl) (by rw [hrest]; rfl), ?_, ?_, ?_, hrest⟩
    · rw [State.raise_get srcCHK (outside_of rfl) (by decide)]
      exact State.bit_put_clrBit _ hg _
    · exact State.raise_flag srcCHK (outside_of rfl) (by decide)
    · exact ((RegsKeptOutside.refl _ s).put (by simp) _).raise (by simp) srcCHK
  · exact coreEvent_next hr (if_pos (by simp [hon, hm])) rfl rfl
  · show execAliveServiceTimeout s = _
    rw [execAliveServiceTimeout]
    exact coreEvent_next hr rfl rfl rfl

end Sys2Proof.Machine

/-! What has left the block stays on the record: an interrupt ring emits nothing, and other notices only add to it. -/

namespace Sys2Proof.Machine

/-- What holds of both branches holds of the choice. -/
theorem State.ite_both (P : State → Prop) {c : Prop} [Decidable c] {t e : State} (ht : P t) (he : P e) : P (if c then t else e) := by
  split <;> assumption

theorem State.get_framed (s t : State) (f : Fld) : (s.framed t).get f = t.get f := rfl

theorem State.flag_framed (s t : State) (f : Fld) : (s.framed t).flag f = t.flag f := rfl

theorem State.raise_aon (s : State) (f : Fld) (src : Nat) : (s.raise f src).aon = s.aon := by rw [s.raise_rest f src]

theorem State.raise_pending (s : State) (f : Fld) (src : Nat) : (s.raise f src).pending = s.pending := by rw [s.raise_rest f src]

/-- A notice in a state with the same registers. -/
theorem RegsKeptOutside.of_notice {fs : List Fld} {s t u : State} (hn : Notice t u) (hr : t.regs = s.regs) : RegsKeptOutside fs s u :=
  (RegsKeptOutside.of_regs hr).notice hn

/-- Records of the pair log in a state with the same registers. -/
theorem RegsKept.of_logged {fs : List Fld} {s t u : State} (hl : Logged t u) (hr : t.regs = s.regs) (hf : R.TSL_LOG_TX_OFF ∈ fs) :
    RegsKept fs s u :=
  (RegsKept.of_regs hr).logged hf hl

theorem State.putBytes_out (s : State) (a : Nat) (b : List Nat) : (s.putBytes a b).out = s.out := by
  unfold State.putBytes
  generalize List.range (ceilDiv b.length 4) = l
  induction l generalizing s with
  | nil => rfl
  | cons i l ih => exact (ih _).trans rfl

theorem State.settle_out (s : State) (src : Nat) : (s.settle src).out = s.out := by
  unfold State.settle
  split
  · split
    · rfl
    · split_ifs <;> rfl
  · dsimp only
    split <;> rfl

theorem State.ring_out (s : State) (src : Nat) : (s.ring src).out = s.out := by
  unfold State.ring
  split
  · rw [State.settle_out]
    unfold State.putPend
    dsimp only
    split <;> rfl
  · rfl

theorem State.raise_out (s : State) (f : Fld) (src : Nat) : (s.raise f src).out = s.out := by
  unfold State.raise
  split
  · rfl
  · rw [State.ring_out]; rfl

theorem State.sendIrq_out (s : State) (v : Nat) : s.out <:+ (s.sendIrq v).out := by
  unfold State.sendIrq
  split_ifs
  · exact List.suffix_refl _
  · exact List.suffix_refl _
  · exact List.suffix_cons ..
  · exact List.suffix_cons ..

theorem State.writeEntry_out (s : State) (e : List Nat) : s.out <:+ (s.writeEntry e).out := by
  have hbytes := s.putBytes_out (0x40110000 + 32 * s.get R.MBX_CQ_TAIL_TAIL) (modifyNth e 7 (fun f => f + 0x80 * b2n s.mbx.phase))
  unfold State.writeEntry
  dsimp only
  rw [← hbytes]
  generalize s.putBytes _ _ = u
  split_ifs
  · exact List.suffix_cons ..
  · exact List.suffix_refl _
  · exact List.suffix_cons ..
  · exact List.suffix_refl _

theorem State.postLost_out (s : State) : s.out <:+ s.postLost.out := by
  have hentry := s.writeEntry_out (s.entry 0 0x8005 0 0xFF 2 0 0 0 s.mbx.lost 0)
  unfold State.postLost
  generalize s.writeEntry (s.entry 0 0x8005 0 0xFF 2 0 0 0 s.mbx.lost 0) = u at hentry ⊢
  have hsend := State.sendIrq_out { u with mbx := { u.mbx with lost := 0 } }
  split
  · dsimp only
    split
    · exact hentry.trans (hsend _)
    · exact hentry
  · exact List.suffix_refl _

theorem State.postSoft_out (s : State) (e : List Nat) (b : Bool) : s.out <:+ (s.postSoft e b).out := by
  have hlost := s.postLost_out
  have hentry := s.postLost.writeEntry_out e
  unfold State.postSoft
  split
  · exact List.suffix_refl _
  · dsimp only
    split
    · split
      · exact hlost.trans (hentry.trans (State.sendIrq_out _ _))
      · exact hlost.trans hentry
    · exact hlost

theorem State.postEvent_out (s : State) (code detail data : Nat) : s.out <:+ (s.postEvent code detail data).out := by
  have hsoft (u : State) (hu : s.out <:+ u.out) (e : List Nat) : s.out <:+ (u.postSoft e true).out := hu.trans (u.postSoft_out e true)
  unfold State.postEvent
  dsimp only
  split
  · exact hsoft _ (List.suffix_cons ..) _
  · exact hsoft _ (List.suffix_refl _) _

end Sys2Proof.Machine

/-! Encoders and line timing (chapter 6): counts, marks, standstill, loads; triggers, the cross-check and the speed ceiling. -/

namespace Sys2Proof.Machine

/-! ## Line triggers (R127) -/

theorem State.schedule_rest (s : State) : s.schedule = { s with line := s.schedule.line } := rfl

theorem State.trigger_false (s : State) (t : Nat) : s.trigger t false = { s with line := { s.line with
    due := s.line.due ++ [⟨s.line.trig, t + s.encLatency, false⟩], trig := s.line.trig + 1 } } := rfl

theorem State.trigger_kept (s : State) (t : Nat) (b : Bool) : RegsKept [R.ENC_STAT_TRIG_LAG] s (s.trigger t b) := by
  cases b
  · exact RegsKept.refl _ s
  · exact (RegsKept.refl _ s).put (by simp) 1

theorem State.reachLines_kept (fuel t : Nat) (b : Bool) (s : State) : RegsKept [R.ENC_STAT_TRIG_LAG] s (State.reachLines fuel t b s) := by
  induction fuel generalizing s with
  | zero => exact RegsKept.refl _ s
  | succ fuel ih =>
    unfold State.reachLines
    split
    · exact RegsKept.refl _ s
    · exact RegsKept.ite ((s.trigger_kept t b).trans (ih _)) (RegsKept.refl _ s)

theorem State.lineReach_kept (s : State) (t : Nat) (b : Bool) : RegsKept [R.ENC_STAT_TRIG_LAG] s (s.lineReach t b) := by
  unfold State.lineReach
  split
  · exact s.reachLines_kept 65536 t b |>.trans (RegsKept.refl _ _)
  · exact RegsKept.refl _ s

theorem State.settleSched_rest (fuel t : Nat) (s : State) :
    State.settleSched fuel t s = { s with line := (State.settleSched fuel t s).line } := by
  induction fuel generalizing s with
  | zero => rfl
  | succ fuel ih =>
    unfold State.settleSched
    split
    · split
      · rw [ih]; rfl
      · rfl
    · rfl

theorem State.withdraw_rest (s : State) (up : Bool) : s.withdraw up = { s with line := (s.withdraw up).line } := by
  unfold State.withdraw
  split <;> rfl

/-! ## Compare outputs beside a count (R138) -/

theorem State.cmpHold_rest (s : State) (k t : Nat) (up : Bool) : s.cmpHold k t up = { s with cmp := (s.cmpHold k t up).cmp } := rfl

theorem State.cmpReach_rest (s : State) (k t : Nat) : s.cmpReach k t = { s with cmp := (s.cmpReach k t).cmp } := by
  unfold State.cmpReach
  dsimp only
  split_ifs <;> rfl

/-- What changes the compare outputs alone does so over any list of them. -/
theorem State.forEach_cmp {f : State → Nat → State} (hf : ∀ s k, f s k = { s with cmp := (f s k).cmp }) (l : List Nat) (s : State) :
    s.forEach l f = { s with cmp := (s.forEach l f).cmp } := by
  induction l generalizing s with
  | nil => rfl
  | cons k l ih =>
    have hfirst := hf s k
    have hrest := ih (f s k)
    show (f s k).forEach l f = { s with cmp := ((f s k).forEach l f).cmp }
    generalize f s k = u at hfirst hrest ⊢
    generalize u.forEach l f = v at hrest ⊢
    rw [hfirst] at hrest
    exact hrest

/-! ## One count (R124) -/

theorem State.xchkCount_rest (s : State) (n : Nat) (up : Bool) : s.xchkCount n up = { s with line := (s.xchkCount n up).line } := by
  unfold State.xchkCount
  split
  · rfl
  · split <;> split_ifs <;> rfl

theorem State.xchkBad_rest (s : State) (n : Nat) : s.xchkBad n = { s with line := (s.xchkBad n).line } := by
  unfold State.xchkBad
  split <;> rfl

/-- The position moved by one count, the standstill over. -/
def State.moved (s : State) (n : Nat) (up : Bool) : State :=
  (s.put (R.ENC_CH_POS_POS n) (s.posOf n + (if up then 65536 else 2 ^ 40 - 65536))).put (R.ENC_CH_STAT_STANDSTILL n) 0

/-- Direction, speed and what the channel remembers after a count (R124). -/
def State.counted (s : State) (n pos : Nat) (up : Bool) (t : Nat) (iv : Rat) : State :=
  let c := s.ench n
  if s.dirUp n = up then
    let beyond := if up then decide (0 < sdiff40 pos c.ext) else decide (sdiff40 pos c.ext < 0)
    let s := s.onEnc n (fun c => { c with
      ext := if beyond then pos else c.ext
      ivals := if 1 ≤ c.run then (iv :: c.ivals).take 64 else []
      run := c.run + 1
      tRun := t })
    if 1 ≤ c.run then s.put (R.ENC_CH_STAT_SPEED_VALID n) 1 else s
  else
    let s := if 2 * 65536 ≤ (sdiff40 pos c.ext).natAbs then
        (s.onEnc n (fun c => { c with ext := pos, run := 1, tRun := t, ivals := [], teeth := [] })).put (R.ENC_CH_STAT_DIR n) (b2n up)
      else s.onEnc n (fun c => { c with run := 0, ivals := [] })
    s.speedOff n

theorem State.counted_kept (s : State) (n pos : Nat) (up : Bool) (t : Nat) (iv : Rat) :
    RegsKept [R.ENC_CH_STAT_SPEED_VALID n, R.ENC_CH_STAT_DIR n] s (s.counted n pos up t iv) := by
  have same (f : EncCh → EncCh) : RegsKept [R.ENC_CH_STAT_SPEED_VALID n, R.ENC_CH_STAT_DIR n] s (s.onEnc n f) := .of_regs rfl
  unfold State.counted
  exact RegsKept.ite (RegsKept.ite ((same _).put (by simp) 1) (same _))
    ((RegsKept.ite ((same _).put (f := R.ENC_CH_STAT_DIR n) (by simp) _) (same _)).put (by simp) 0)

theorem State.count1_eq (s : State) (n : Nat) (up : Bool) (t : Nat) (iv : Rat) : ∃ pos,
    s.count1 n up t iv = ((s.moved n up).counted n pos up t iv).xchkCount n up :=
  ⟨(s.put (R.ENC_CH_POS_POS n) (s.posOf n + (if up then 65536 else 2 ^ 40 - 65536))).posOf n, by
    unfold State.count1 State.counted State.moved
    rfl⟩

theorem State.count1_kept (s : State) (n : Nat) (up : Bool) (t : Nat) (iv : Rat) :
    RegsKept [R.ENC_CH_STAT_SPEED_VALID n, R.ENC_CH_STAT_DIR n] (s.moved n up) (s.count1 n up t iv) := by
  obtain ⟨pos, h⟩ := s.count1_eq n up t iv
  rw [h]
  exact (State.counted_kept _ n _ up t iv).trans (.of_regs (by rw [State.xchkCount_rest]))

theorem State.moved_kept (s : State) (n : Nat) (up : Bool) :
    RegsKept [R.ENC_CH_POS_POS n, R.ENC_CH_STAT_STANDSTILL n] s (s.moved n up) :=
  ((RegsKept.refl _ s).put (by simp) _).put (by simp) _

/-- A count of a toothed wheel without a reference, no interval held, is one count; only what the wheel remembers is beside it. -/
theorem State.toothEdge_regs {s : State} {n : Nat} (hh : (s.ench n).held = none) (hk : s.get (R.ENC_CH_CFG_REFTYPE n) = 0) (up : Bool)
    (t : Nat) : ∃ iv, (s.toothEdge n up t).regs = (s.count1 n up t iv).regs := by
  unfold State.toothEdge
  dsimp only
  rw [hh]
  dsimp only
  split
  · exact ⟨_, by split <;> rfl⟩
  · exact ⟨_, by rw [if_neg (by omega), if_neg (by omega)]; rfl⟩

/-! ## Speed (R125, R130) -/

/-- The figures of the line source follow those of channel `n`. -/
def State.showLine (s : State) (n : Nat) : State :=
  if n = s.lineSrc then
    match s.linePeriod with
    | some t => s.put R.ENC_LINE_T_T (min 0xFFFFFF (roundUp t).toNat)
    | none => (({ s with line := { s.line with hist := [] } } : State).put R.ENC_LINE_T_T 0xFFFFFF).put R.ENC_LINE_TP_T 0xFFFFFF
  else s

theorem State.showSpeed_eq (s : State) (n : Nat) : s.showSpeed n = (match s.countPeriod n with
    | some p => (s.put (R.ENC_CH_PERIOD_P n) (min (2 ^ 32 - 1) (roundUp (16 * p)).toNat)).put (R.ENC_CH_SPEED_V n)
        (if p = 0 then 2 ^ 32 - 1 else min (2 ^ 32 - 1) (roundUp (1600000000 / p)).toNat)
    | none => (s.put (R.ENC_CH_PERIOD_P n) 0).put (R.ENC_CH_SPEED_V n) 0).showLine n := rfl

theorem State.showSpeed_kept (s : State) (n : Nat) :
    RegsKept [R.ENC_CH_PERIOD_P n, R.ENC_CH_SPEED_V n, R.ENC_LINE_T_T, R.ENC_LINE_TP_T] s (s.showSpeed n) ∧
      s.showSpeed n = { s with regs := (s.showSpeed n).regs, line := (s.showSpeed n).line } := by
  have shown (v w : Nat) : RegsKept [R.ENC_CH_PERIOD_P n, R.ENC_CH_SPEED_V n, R.ENC_LINE_T_T, R.ENC_LINE_TP_T] s
    ((s.put (R.ENC_CH_PERIOD_P n) v).put (R.ENC_CH_SPEED_V n) w) := ((RegsKept.refl _ s).put (by simp) _).put (by simp) _
  have tail (u : State) (hu : RegsKept [R.ENC_CH_PERIOD_P n, R.ENC_CH_SPEED_V n, R.ENC_LINE_T_T, R.ENC_LINE_TP_T] s u)
      (hrest : u = { s with regs := u.regs }) : RegsKept [R.ENC_CH_PERIOD_P n, R.ENC_CH_SPEED_V n, R.ENC_LINE_T_T, R.ENC_LINE_TP_T] s
        (u.showLine n) ∧ u.showLine n = { s with regs := (u.showLine n).regs, line := (u.showLine n).line } := by
    unfold State.showLine
    split
    · split
      · exact ⟨hu.put (by simp) _, by rw [hrest]; rfl⟩
      · exact ⟨(hu.trans (RegsKept.refl _ _)).put (by simp) _ |>.put (by simp) _, by rw [hrest]; rfl⟩
    · exact ⟨hu, by rw [hrest]⟩
  rw [State.showSpeed_eq]
  split
  · exact tail _ (shown _ _) rfl
  · exact tail _ (shown _ _) rfl

theorem State.countPeriod_none {s : State} {n : Nat} (h : s.flag (R.ENC_CH_STAT_SPEED_VALID n) = false) : s.countPeriod n = none := by
  unfold State.countPeriod
  simp [h]

/-- With the speed not valid both figures read 0. -/
theorem State.showSpeed_none {s : State} {n : Nat} (h : s.flag (R.ENC_CH_STAT_SPEED_VALID n) = false) :
    (s.showSpeed n).get (R.ENC_CH_PERIOD_P n) = 0 ∧ (s.showSpeed n).get (R.ENC_CH_SPEED_V n) = 0 := by
  have hline (u : State) : RegsKept [R.ENC_LINE_T_T, R.ENC_LINE_TP_T] u (u.showLine n) := by
    unfold State.showLine
    split
    · split
      · exact (RegsKept.refl _ u).put (by simp) _
      · exact ((RegsKept.of_regs rfl).put (by simp) _).put (by simp) _
    · exact RegsKept.refl _ u
  rw [State.showSpeed_eq, State.countPeriod_none h]
  dsimp only
  constructor
  · rw [(hline _).get (by simp [Fld.key, R.ENC_CH_PERIOD_P, R.ENC_LINE_T_T, R.ENC_LINE_TP_T]; omega),
      State.get_put_ne _ _ (by simp only [Fld.key, R.ENC_CH_PERIOD_P, R.ENC_CH_SPEED_V]; omega), State.get_put_self, Nat.zero_mod]
  · rw [(hline _).get (by simp [Fld.key, R.ENC_CH_SPEED_V, R.ENC_LINE_T_T, R.ENC_LINE_TP_T]; omega), State.get_put_self, Nat.zero_mod]

/-! ## An accepted change of an encoder's inputs -/

theorem State.afterCount_kept (s : State) (n : Nat) (up was : Bool) (t : Nat) :
    RegsKept [R.ENC_CH_PERIOD_P n, R.ENC_CH_SPEED_V n, R.ENC_LINE_T_T, R.ENC_LINE_TP_T, R.ENC_STAT_TRIG_LAG] s (s.afterCount n up was t) := by
  have hspeed := (s.showSpeed_kept n).1.mono (gs := [R.ENC_CH_PERIOD_P n, R.ENC_CH_SPEED_V n, R.ENC_LINE_T_T, R.ENC_LINE_TP_T,
    R.ENC_STAT_TRIG_LAG]) (by simp)
  unfold State.afterCount
  refine RegsKept.ite ?_ (RegsKept.trans ?_ (.of_regs (by rw [State.forEach_cmp fun s k => s.cmpReach_rest k t]))) <;>
  exact RegsKept.ite (RegsKept.ite (hspeed.trans ((State.lineReach_kept _ _ _).mono (by simp))) (hspeed.trans (.of_regs rfl))) hspeed

/-- What comes before the count itself: lines and compare outputs settle, and an edge too soon after the last is flagged. -/
def State.edgeFirst (s : State) (n : Nat) (up : Bool) (t : Nat) : State :=
  let s := if n = s.lineSrc then (State.settleSched 65536 t s).withdraw up else s
  let s := s.forEach ((List.range 8).filter (fun (k : Nat) => s.get (R.CMP_CTRL_SRC k) == n)) (fun s k => s.cmpHold k t up)
  match (s.ench n).tAny with
  | some u => if t < u + 40 then (s.raise (R.ENC_CH_STAT_OVERRATE n) srcENC).xchkBad n else s
  | none => s

theorem State.edgeFirst_kept (s : State) (n : Nat) (up : Bool) (t : Nat) :
    RegsKeptOutside [R.ENC_CH_STAT_OVERRATE n] s (s.edgeFirst n up t) ∧ (s.edgeFirst n up t).enc = s.enc := by
  have hlines : (if n = s.lineSrc then (State.settleSched 65536 t s).withdraw up else s).regs = s.regs ∧
      (if n = s.lineSrc then (State.settleSched 65536 t s).withdraw up else s).enc = s.enc := by
    split
    · rw [State.withdraw_rest, State.settleSched_rest]
      exact ⟨rfl, rfl⟩
    · exact ⟨rfl, rfl⟩
  unfold State.edgeFirst
  dsimp only
  generalize (if n = s.lineSrc then (State.settleSched 65536 t s).withdraw up else s) = u at hlines
  obtain ⟨hregs, henc⟩ := hlines
  have hhold := State.forEach_cmp (f := fun s k => s.cmpHold k t up) (fun s k => s.cmpHold_rest k t up)
    ((List.range 8).filter (fun (k : Nat) => u.get (R.CMP_CTRL_SRC k) == n)) u
  generalize u.forEach _ (fun s k => s.cmpHold k t up) = v at hhold ⊢
  have hvregs : v.regs = s.regs := by rw [hhold]; exact hregs
  have hvenc : v.enc = s.enc := by rw [hhold]; exact henc
  split
  · split
    · rw [State.xchkBad_rest]
      exact ⟨(RegsKeptOutside.of_regs hvregs).raise (by simp) srcENC, (congrArg State.enc (v.raise_rest _ _)).trans hvenc⟩
    · exact ⟨.of_regs hvregs, hvenc⟩
  · exact ⟨.of_regs hvregs, hvenc⟩

/-- Channel fields named by their key: base 0x4060_0000, 0x100 a channel. -/
theorem encCh_outside {n : Nat} (hn : n < 2) : outside (R.ENC_CH_POS_POS n).key ∧ outside (R.ENC_CH_STAT_STANDSTILL n).key ∧
    outside (R.ENC_CH_CFG_REFTYPE n).key ∧ outside (R.ENC_CH_STAT_QERR n).key ∧ outside (R.ENC_CH_STAT_REF_SEEN n).key ∧
    outside (R.ENC_CH_REFPOS_POS n).key := by
  simp only [outside, Fld.key, R.ENC_CH_POS_POS, R.ENC_CH_STAT_STANDSTILL, R.ENC_CH_CFG_REFTYPE, R.ENC_CH_STAT_QERR, R.ENC_CH_STAT_REF_SEEN,
    R.ENC_CH_REFPOS_POS]
  omega

theorem State.onEnc_regs (s : State) (n : Nat) (f : EncCh → EncCh) : (s.onEnc n f).regs = s.regs := rfl

/-- A count of a quadrature channel, or of a toothed wheel without a reference: what comes first, one count, what follows. -/
theorem State.encEdge_count {s : State} {n : Nat} {e : EncEdge} {up : Bool} (hn : n < 2) (he : e ≠ .both) (t : Nat)
    (hup : ((e == .up) != s.flag (R.ENC_CH_CFG_INVERT n)) = up) (hty : s.get (R.ENC_CH_CFG_TYPE n) = 1 ∨
      (s.get (R.ENC_CH_CFG_TYPE n) = 2 ∧ s.get (R.ENC_CH_CFG_REFTYPE n) = 0 ∧ (s.ench n).held = none)) :
    ∃ (v : State) (was : Bool) (iv : Rat), s.encEdge n e t = v.afterCount n up was t ∧
      v.regs = ((s.edgeFirst n up t).count1 n up t iv).regs := by
  have henc : s.encType n ≠ 0 := by
    unfold State.encType
    obtain h | ⟨h, -⟩ := hty <;> rw [h] <;> decide
  unfold State.encEdge
  dsimp only
  rw [if_neg (by omega), if_neg he, hup]
  obtain h | ⟨h, hk, hh⟩ := hty
  · exact ⟨_, _, _, rfl, (State.onEnc_regs ..).trans (congrArg State.regs (if_pos (by rw [State.encType, h]; decide)))⟩
  · obtain ⟨hfirst, hench⟩ := s.edgeFirst_kept n up t
    have hheld : ((s.edgeFirst n up t).ench n).held = none := by rw [State.ench, hench]; exact hh
    have hkind := hfirst _ (encCh_outside hn).2.2.1 (by simp [Fld.key, R.ENC_CH_CFG_REFTYPE, R.ENC_CH_STAT_OVERRATE]; omega)
    obtain ⟨iv, hiv⟩ := State.toothEdge_regs hheld (hkind.trans hk) up t
    exact ⟨_, _, iv, rfl, (State.onEnc_regs ..).trans ((congrArg State.regs (if_neg (by rw [State.encType, h]; decide))).trans hiv)⟩

theorem State.count_moves {s : State} {n : Nat} {e : EncEdge} (hn : n < 2) (he : e ≠ .both) (t : Nat)
    (hty : s.get (R.ENC_CH_CFG_TYPE n) = 1 ∨
      (s.get (R.ENC_CH_CFG_TYPE n) = 2 ∧ s.get (R.ENC_CH_CFG_REFTYPE n) = 0 ∧ (s.ench n).held = none)) :
    (s.encEdge n e t).get (R.ENC_CH_POS_POS n) = (s.get (R.ENC_CH_POS_POS n)
        + (if (e == .up) != s.flag (R.ENC_CH_CFG_INVERT n) then 65536 else 2 ^ 40 - 65536)) % 2 ^ 40 ∧
      (s.encEdge n e t).get (R.ENC_CH_POS_POS (1 - n)) = s.get (R.ENC_CH_POS_POS (1 - n)) ∧
      (s.encEdge n e t).flag (R.ENC_CH_STAT_STANDSTILL n) = false := by
  obtain ⟨hpos, hstand, -⟩ := encCh_outside hn
  obtain ⟨hpos', -⟩ := encCh_outside (n := 1 - n) (by omega)
  obtain ⟨v, was, iv, heq, hregs⟩ := State.encEdge_count hn he t rfl hty
  generalize ((e == .up) != s.flag (R.ENC_CH_CFG_INVERT n)) = up at heq hregs ⊢
  obtain ⟨hfirst, -⟩ := s.edgeFirst_kept n up t
  have hcount := (s.edgeFirst n up t).count1_kept n up t iv
  have hafter := v.afterCount_kept n up was t
  have kept {f : Fld} (h1 : ∀ g ∈ [R.ENC_CH_STAT_SPEED_VALID n, R.ENC_CH_STAT_DIR n], f.key ≠ g.key)
      (h2 : ∀ g ∈ [R.ENC_CH_PERIOD_P n, R.ENC_CH_SPEED_V n, R.ENC_LINE_T_T, R.ENC_LINE_TP_T, R.ENC_STAT_TRIG_LAG], f.key ≠ g.key) :
      (s.encEdge n e t).get f = ((s.edgeFirst n up t).moved n up).get f := by
    rw [heq, hafter.get h2, State.get_congr hregs, hcount.get h1]
  have hp := kept (f := R.ENC_CH_POS_POS n) (by simp [Fld.key, R.ENC_CH_POS_POS, R.ENC_CH_STAT_SPEED_VALID, R.ENC_CH_STAT_DIR]; omega)
    (by simp [Fld.key, R.ENC_CH_POS_POS, R.ENC_CH_PERIOD_P, R.ENC_CH_SPEED_V, R.ENC_LINE_T_T, R.ENC_LINE_TP_T, R.ENC_STAT_TRIG_LAG]; omega)
  have hp' := kept (f := R.ENC_CH_POS_POS (1 - n)) (by simp [Fld.key, R.ENC_CH_POS_POS, R.ENC_CH_STAT_SPEED_VALID, R.ENC_CH_STAT_DIR]; omega)
    (by simp [Fld.key, R.ENC_CH_POS_POS, R.ENC_CH_PERIOD_P, R.ENC_CH_SPEED_V, R.ENC_LINE_T_T, R.ENC_LINE_TP_T, R.ENC_STAT_TRIG_LAG]; omega)
  have hs := kept (f := R.ENC_CH_STAT_STANDSTILL n) (by simp [Fld.key, R.ENC_CH_STAT_STANDSTILL, R.ENC_CH_STAT_SPEED_VALID, R.ENC_CH_STAT_DIR])
    (by simp [Fld.key, R.ENC_CH_STAT_STANDSTILL, R.ENC_CH_PERIOD_P, R.ENC_CH_SPEED_V, R.ENC_LINE_T_T, R.ENC_LINE_TP_T, R.ENC_STAT_TRIG_LAG]; omega)
  refine ⟨?_, ?_, ?_⟩
  · rw [hp, State.moved, State.get_put_ne _ _ (by simp only [Fld.key, R.ENC_CH_POS_POS, R.ENC_CH_STAT_STANDSTILL]; omega), State.get_put_self,
      State.posOf, hfirst _ hpos (by simp [Fld.key, R.ENC_CH_POS_POS, R.ENC_CH_STAT_OVERRATE]; omega)]
    rfl
  · rw [hp', (State.moved_kept _ n up).get (by simp [Fld.key, R.ENC_CH_POS_POS, R.ENC_CH_STAT_STANDSTILL]; omega),
      hfirst _ hpos' (by simp [Fld.key, R.ENC_CH_POS_POS, R.ENC_CH_STAT_OVERRATE]; omega)]
  · rw [State.flag_eq, hs, State.moved, State.get_put_self]
    rfl

/-! ## Standstill and invalid transitions (R119, R124) -/

/-- No count has come for the standstill time. -/
def State.stopped (s : State) (n : Nat) : State :=
  ((s.onEnc n (fun c => { c with run := 0, ivals := [], held := none })).put (R.ENC_CH_STAT_STANDSTILL n) 1).speedOff n

/-- An invalid transition is flagged and counted, and the channel's speed is not valid. -/
def State.invalid (s : State) (n : Nat) : State :=
  (((((s.raise (R.ENC_CH_STAT_QERR n) srcENC).bump (R.ENC_CH_ERRCNT_QERR n)).xchkBad n).onEnc n
    (fun c => { c with run := 0, ivals := [] })).speedOff n).showSpeed n

theorem State.encEdge_both {s : State} {n : Nat} (hn : n < 2) (hty : s.encType n = 1) (t : Nat) : s.encEdge n .both t = s.invalid n := by
  unfold State.encEdge
  dsimp only
  rw [if_neg (by omega), if_pos rfl, if_pos hty]
  rfl

theorem State.invalid_kept (s : State) (n : Nat) :
    RegsKeptOutside [R.ENC_CH_STAT_QERR n, R.ENC_CH_ERRCNT_QERR n, R.ENC_CH_STAT_SPEED_VALID n, R.ENC_CH_PERIOD_P n, R.ENC_CH_SPEED_V n,
        R.ENC_LINE_T_T, R.ENC_LINE_TP_T] s (s.invalid n) ∧
      (outside (R.ENC_CH_STAT_QERR n).key → (s.invalid n).flag (R.ENC_CH_STAT_QERR n) = true) ∧
      (s.invalid n).flag (R.ENC_CH_STAT_SPEED_VALID n) = false := by
  have hbad : (((s.raise (R.ENC_CH_STAT_QERR n) srcENC).bump (R.ENC_CH_ERRCNT_QERR n)).xchkBad n).regs =
      ((s.raise (R.ENC_CH_STAT_QERR n) srcENC).bump (R.ENC_CH_ERRCNT_QERR n)).regs := by rw [State.xchkBad_rest]
  have hq := fun ho => State.raise_flag (s := s) (f := R.ENC_CH_STAT_QERR n) srcENC ho Nat.one_pos
  have hraise := (RegsKeptOutside.refl [R.ENC_CH_STAT_QERR n, R.ENC_CH_ERRCNT_QERR n, R.ENC_CH_STAT_SPEED_VALID n, R.ENC_CH_PERIOD_P n,
    R.ENC_CH_SPEED_V n, R.ENC_LINE_T_T, R.ENC_LINE_TP_T] s).raise (f := R.ENC_CH_STAT_QERR n) (by simp) srcENC
  unfold State.invalid
  generalize s.raise (R.ENC_CH_STAT_QERR n) srcENC = u at hbad hq hraise
  generalize (u.bump (R.ENC_CH_ERRCNT_QERR n)).xchkBad n = v at hbad
  have hbump := RegsKept.trans ((RegsKept.refl [R.ENC_CH_ERRCNT_QERR n] u).bump (by simp) 1) (.of_regs hbad)
  have hoff := (RegsKept.of_regs rfl : RegsKept [R.ENC_CH_STAT_SPEED_VALID n] v (v.onEnc n (fun c => { c with run := 0, ivals := [] }))).put
    (f := R.ENC_CH_STAT_SPEED_VALID n) (by simp) 0
  have hshow := (State.showSpeed_kept ((v.onEnc n (fun c => { c with run := 0, ivals := [] })).speedOff n) n).1
  refine ⟨?_, ?_, ?_⟩
  · exact ((hraise.trans (hbump.mono (by simp)).outside).trans (hoff.mono (by simp)).outside).trans (hshow.mono (by simp)).outside
  · intro ho
    rw [hshow.flag (by simp [Fld.key, R.ENC_CH_STAT_QERR, R.ENC_CH_PERIOD_P, R.ENC_CH_SPEED_V, R.ENC_LINE_T_T, R.ENC_LINE_TP_T]; omega)]
    exact (hoff.flag (by simp [Fld.key, R.ENC_CH_STAT_QERR, R.ENC_CH_STAT_SPEED_VALID])).trans
      ((hbump.flag (by simp [Fld.key, R.ENC_CH_STAT_QERR, R.ENC_CH_ERRCNT_QERR]; omega)).trans (hq ho))
  · rw [hshow.flag (by simp [Fld.key, R.ENC_CH_STAT_SPEED_VALID, R.ENC_CH_PERIOD_P, R.ENC_CH_SPEED_V, R.ENC_LINE_T_T, R.ENC_LINE_TP_T]; omega)]
    exact State.flag_put_self _ rfl 0

theorem State.encLoad_kept (s : State) (n v : Nat) : RegsKept [R.ENC_CH_POS_POS n] s (s.encLoad n v) :=
  (RegsKept.of_regs rfl).put (by simp) v

theorem State.encLoad_rest (s : State) (n v : Nat) :
    s.encLoad n v = { s with regs := (s.encLoad n v).regs, enc := (s.encLoad n v).enc } := rfl

/-! ## Reference marks (R120, R122, R243) -/

theorem State.pairMark_kept (s : State) (n : Nat) : RegsKept [R.ENC_CH_POS_POS n, R.TSL_POS_DELTA_DELTA] s (s.pairMark n) := by
  unfold State.pairMark
  dsimp only
  split
  · have hload := ((RegsKept.of_regs rfl : RegsKept [R.ENC_CH_POS_POS n] s s.took).trans
      (s.took.encLoad_kept n ((s.posOf n + (2 ^ 40 - 16 + s.freeVal 6 % 33)) % 2 ^ 40))).mono
      (gs := [R.ENC_CH_POS_POS n, R.TSL_POS_DELTA_DELTA]) (by simp)
    exact hload.put (by simp) _
  · exact RegsKept.refl _ s

/-- The mark's latch of position and time, and its flag. -/
def State.markShown (s : State) (n t : Nat) : State :=
  ((s.put (R.ENC_CH_REFPOS_POS n) (s.posOf n)).put (R.ENC_CH_REFT_T n) (s.timeAt t)).raise (R.ENC_CH_STAT_REF_SEEN n) srcENC

/-- A mark is kept for the next; it is found wrong, or loads the position. -/
def State.markJudged (s : State) (n pos : Nat) (up bad : Bool) : State :=
  let s := s.onEnc n (fun c => { c with mark := some (pos, up) })
  if bad then s.raise (R.ENC_CH_STAT_REF_ERR n) srcENC
  else if s.flag (R.ENC_CH_CFG_ZLOAD n) && up then s.encLoad n (s.get (R.ENC_CH_REFLOAD_POS n)) else s

/-- A mark of the line source gives the origin of the lines where none is set, and lines are reached. -/
def State.markOrigin (s : State) (n t : Nat) : State :=
  if n = s.lineSrc ∧ s.encArmed = true then
    let s := if s.primary && s.line.origin.isNone && (s.dirUp n == s.printUp) then
        let o := (s.posOf n + s.get R.ENC_LINE_ORIGIN_POS) % 2 ^ 40
        ({ s with line := { s.line with origin := some o } } : State).logDecide none 6 5 0 o
      else s
    s.lineReach t false
  else s

theorem State.refMark_eq (s : State) (n t : Nat) : ∃ pos up bad,
    s.refMark n t = (((s.markShown n t).markJudged n pos up bad).pairMark n).markOrigin n t := ⟨_, _, _, rfl⟩

theorem State.markJudged_kept (s : State) (n pos : Nat) (up bad : Bool) :
    RegsKeptOutside [R.ENC_CH_STAT_REF_ERR n, R.ENC_CH_POS_POS n] s (s.markJudged n pos up bad) := by
  have hmark (f : EncCh → EncCh) : RegsKeptOutside [R.ENC_CH_STAT_REF_ERR n, R.ENC_CH_POS_POS n] s (s.onEnc n f) := .of_regs rfl
  unfold State.markJudged
  exact .ite ((hmark _).raise (by simp) srcENC) (.ite ((hmark _).trans ((State.encLoad_kept _ n _).mono (by simp)).outside) (hmark _))

theorem State.markOrigin_kept (s : State) (n t : Nat) : RegsKept [R.TSL_LOG_TX_OFF, R.ENC_STAT_TRIG_LAG] s (s.markOrigin n t) := by
  have reach (u : State) : RegsKept [R.TSL_LOG_TX_OFF, R.ENC_STAT_TRIG_LAG] u (u.lineReach t false) := (u.lineReach_kept t false).mono (by simp)
  unfold State.markOrigin
  refine .ite (.trans (.ite ?_ (.refl _ s)) (reach _)) (.refl _ s)
  refine RegsKept.logged ?_ (by simp) (State.logDecide_logged ..)
  exact .of_regs rfl

/-- After the latch a mark can load the position, be found wrong, refine the standby's position and set the origin of the lines. -/
theorem State.refMark_kept (s : State) (n t : Nat) :
    RegsKeptOutside [R.ENC_CH_STAT_REF_ERR n, R.ENC_CH_POS_POS n, R.TSL_POS_DELTA_DELTA, R.TSL_LOG_TX_OFF, R.ENC_STAT_TRIG_LAG]
      (s.markShown n t) (s.refMark n t) := by
  obtain ⟨pos, up, bad, h⟩ := s.refMark_eq n t
  rw [h]
  exact (((State.markJudged_kept _ n pos up bad).mono (by simp)).trans ((State.pairMark_kept _ n).mono (by simp)).outside).trans
    ((State.markOrigin_kept _ n t).mono (by simp)).outside

/-- Settles O14: counts, marks, standstill and loads, each through the writes it makes. -/
theorem encoderInputs : Obligations.EncoderInputs := by
  unfold Obligations.EncoderInputs
  refine ⟨fun s n e t hr hn he hty => ⟨_, (show execEncoderCount n e t s = _ from coreEvent_eq hr rfl), State.count_moves hn he t hty⟩, fun s n t hr hn hty => ?_,
    fun s n t hr hn hty => ?_, fun s n hr hn hty => ?_, fun s n v hr hn hm => ?_, fun s n v hr hm => ?_⟩
  · obtain ⟨hpos, -, -, hqerr, -⟩ := encCh_outside hn
    have henc : s.encType n = 1 := by rw [State.encType, hty]; rfl
    have hkept := s.invalid_kept n
    refine ⟨_, (show execEncoderCount n .both t s = _ from coreEvent_eq hr (State.encEdge_both hn henc t)), ?_, ?_, ?_⟩
    · exact hkept.1 _ hpos (by
        simp [Fld.key, R.ENC_CH_POS_POS, R.ENC_CH_STAT_QERR, R.ENC_CH_ERRCNT_QERR, R.ENC_CH_STAT_SPEED_VALID, R.ENC_CH_PERIOD_P,
          R.ENC_CH_SPEED_V, R.ENC_LINE_T_T, R.ENC_LINE_TP_T]
        omega)
    · exact hkept.2.1 hqerr
    · exact hkept.2.2
  · obtain ⟨hpos, -, -, -, hseen, href⟩ := encCh_outside hn
    have hkept := s.refMark_kept n t
    refine ⟨_, coreEvent_eq hr (if_pos ⟨hn, by rw [State.encType, hty]; rfl⟩), (hkept _ href ?_).trans ?_, ?_⟩
    · simp [Fld.key, R.ENC_CH_REFPOS_POS, R.ENC_CH_STAT_REF_ERR, R.ENC_CH_POS_POS, R.TSL_POS_DELTA_DELTA, R.TSL_LOG_TX_OFF, R.ENC_STAT_TRIG_LAG]
      omega
    · rw [State.markShown, State.raise_get srcENC href (by simp only [Fld.key, R.ENC_CH_REFPOS_POS, R.ENC_CH_STAT_REF_SEEN]; omega),
        State.get_put_ne _ _ (by simp only [Fld.key, R.ENC_CH_REFPOS_POS, R.ENC_CH_REFT_T]; omega), State.get_put_self]
      exact Nat.mod_eq_of_lt (s.get_lt _)
    · have hflag : (s.markShown n t).flag (R.ENC_CH_STAT_REF_SEEN n) = true := State.raise_flag srcENC hseen Nat.one_pos
      refine Eq.trans ?_ hflag
      rw [State.flag_eq, State.flag_eq]
      exact congrArg (· == 1) (hkept _ hseen (by
        simp [Fld.key, R.ENC_CH_STAT_REF_SEEN, R.ENC_CH_STAT_REF_ERR, R.ENC_CH_POS_POS, R.TSL_POS_DELTA_DELTA, R.TSL_LOG_TX_OFF, R.ENC_STAT_TRIG_LAG]
        omega))
  · have hoff : RegsKept [R.ENC_CH_STAT_STANDSTILL n, R.ENC_CH_STAT_SPEED_VALID n] s (s.stopped n) :=
      ((RegsKept.of_regs rfl).put (by simp) 1).put (by simp) 0
    have hvalid : (s.stopped n).flag (R.ENC_CH_STAT_SPEED_VALID n) = false := State.flag_put_self _ rfl 0
    have hstand : (s.stopped n).flag (R.ENC_CH_STAT_STANDSTILL n) = true :=
      (State.flag_put_ne _ _ (by simp only [Fld.key, R.ENC_CH_STAT_STANDSTILL, R.ENC_CH_STAT_SPEED_VALID]; omega)).trans
        (State.flag_put_self _ rfl 1)
    obtain ⟨hshow, hrest⟩ := (s.stopped n).showSpeed_kept n
    obtain ⟨hperiod, hspeed⟩ := State.showSpeed_none hvalid
    refine ⟨_, coreEvent_next (u := (s.stopped n).showSpeed n) hr (if_pos ⟨hn, hty⟩) (by rw [hrest]; rfl) (by rw [hrest]; rfl), ?_, ?_,
      hperiod, hspeed, (hoff.mono (by simp)).trans (hshow.mono (by simp)), by rw [hrest]; rfl⟩
    · exact (hshow.flag (by simp [Fld.key, R.ENC_CH_STAT_STANDSTILL, R.ENC_CH_PERIOD_P, R.ENC_CH_SPEED_V, R.ENC_LINE_T_T, R.ENC_LINE_TP_T]; omega)).trans
        hstand
    · exact (hshow.flag (by simp [Fld.key, R.ENC_CH_STAT_SPEED_VALID, R.ENC_CH_PERIOD_P, R.ENC_CH_SPEED_V, R.ENC_LINE_T_T, R.ENC_LINE_TP_T]; omega)).trans
        hvalid
  · have hlog := State.sealedWrite_logged (s := s) (by rw [hm]; decide)
      [(0x40600010 + 0x100 * n, v % 2 ^ 32), (0x40600014 + 0x100 * n, v / 2 ^ 32 % 2 ^ 8)] (fun s => s.posSet n v)
    have hset : s.posSet n v = s.encLoad n v := if_pos ⟨hn, hm⟩
    rw [hset] at hlog
    have hexec := show execEncPosSet n v s = _ from coreEvent_next hr rfl (by rw [hlog.rest]; rfl) (by rw [hlog.rest]; rfl)
    refine ⟨_, hexec, ?_, ?_, ?_⟩
    · have hkept := (RegsKept.refl [R.TSL_LOG_TX_OFF] (s.encLoad n v)).logged (by simp) hlog
      exact (hkept.get (by simp [Fld.key, R.ENC_CH_POS_POS, R.TSL_LOG_TX_OFF]; omega)).trans (State.get_put_self ..)
    · exact ((s.encLoad_kept n v).mono (by simp)).logged (by simp) hlog
    · rw [hlog.rest]; rfl
  · by_cases hsh : s.mode = .shadow
    · exact ⟨s, (show execEncPosSet n v s = _ from coreEvent_next hr (State.sealedWrite_shadow hsh ..) rfl rfl), .refl _ s, rfl⟩
    · have hlog := State.sealedWrite_logged hsh
        [(0x40600010 + 0x100 * n, v % 2 ^ 32), (0x40600014 + 0x100 * n, v / 2 ^ 32 % 2 ^ 8)] (fun s => s.posSet n v)
      have hset : s.posSet n v = s := if_neg fun h => hm h.2
      rw [hset] at hlog
      have hexec := show execEncPosSet n v s = _ from coreEvent_next hr rfl (by rw [hlog.rest]) (by rw [hlog.rest])
      exact ⟨_, hexec, (RegsKept.refl _ s).logged (by simp) hlog, hlog.rest⟩

/-! ## The cross-check (R131, R132) -/

theorem State.xchkAction_none {s : State} (h : s.get R.ENC_XCHK_CFG_ACTION = 0) (b : Bool) : s.xchkAction b = s := by
  unfold State.xchkAction
  simp [h]

/-- A status bit of the cross-check is set and counted. -/
theorem State.xchkSet_spec (s : State) {f : Fld} (ho : outside f.key) (hw : 0 < f.width) (hf : f.key ≠ R.ENC_XCHK_CNT_COUNT.key) :
    (s.xchkSet f).flag f = true ∧ (s.xchkSet f).get R.ENC_XCHK_CNT_COUNT = min (s.get R.ENC_XCHK_CNT_COUNT + 1) (2 ^ 16 - 1) ∧
      RegsKeptOutside [f, R.ENC_XCHK_CNT_COUNT] s (s.xchkSet f) ∧ (s.xchkSet f).line = s.line := by
  have hflag := State.raise_flag (s := s) srcENC ho hw
  have hcount := State.raise_get (s := s) (f := f) srcENC (outside_of rfl : outside R.ENC_XCHK_CNT_COUNT.key) (Ne.symm hf)
  have hkept := (RegsKeptOutside.refl [f, R.ENC_XCHK_CNT_COUNT] s).raise (f := f) (by simp) srcENC
  have hline := congrArg State.line (s.raise_rest f srcENC)
  unfold State.xchkSet
  generalize s.raise f srcENC = u at hflag hcount hkept hline
  refine ⟨(State.flag_put_ne u _ hf).trans hflag, ?_, hkept.bump (by simp) 1, hline⟩
  rw [State.get_bump_self, hcount]
  rfl

/-- The window judged: its deviation shown. -/
def State.xchkShown (s : State) (dev : Rat) : State :=
  ({ s with line := { s.line with wdone := none } } : State).put R.ENC_XCHK_ERR_DEV (unsigned 32 (roundAway dev))

theorem State.line_get (s : State) (l : LineT) (f : Fld) : ({ s with line := l } : State).get f = s.get f := rfl

theorem State.xchkEnd_eq {s : State} {d0 d1 : Int} {bad : Bool} (h : s.line.wdone = some (d0, d1, bad)) (h0 : d0 ≠ 0)
    (hr : s.get R.ENC_XCHK_RATIO_RATIO ≠ 0) {dev : Rat}
    (hdev : dev = ((d1 : Rat) / ((s.get R.ENC_XCHK_RATIO_RATIO : Rat) / (2 ^ 24 : Nat)) - d0) / d0 * 10000) :
    s.xchkEnd = if ((max 1 (min 10000 (s.get R.ENC_XCHK_CFG_TOL)) : Nat) : Rat) < absR dev then
      ((s.xchkShown dev).xchkSet R.ENC_XCHK_STAT_DEV).xchkAction bad else s.xchkShown dev := by
  have hratio : ¬ ((s.get R.ENC_XCHK_RATIO_RATIO : Rat) / (2 ^ 24 : Nat) = 0) := by
    simp [hr]
  unfold State.xchkEnd
  rw [h]
  dsimp only
  simp only [State.line_get, h0, hratio, decide_false, Bool.or_self, Bool.false_eq_true, if_false, ← hdev]
  rw [State.get_put_ne _ _ (by decide)]
  rfl

/-! ## The speed ceiling (R135, R136) -/

theorem State.ceilEvent_spec (s : State) : s.out <:+ s.ceilEvent.out ∧ RegsKeptOutside [] s s.ceilEvent := by
  have posted (l : LineT) (code detail data : Nat) : s.out <:+ (({ s with line := l } : State).postEvent code detail data).out ∧
      RegsKeptOutside [] s (({ s with line := l } : State).postEvent code detail data) :=
    ⟨({ s with line := l } : State).postEvent_out .., .of_notice (State.postEvent_notice { s with line := l } ..) rfl⟩
  have same : s.out <:+ s.out ∧ RegsKeptOutside [] s s := ⟨List.suffix_refl _, .refl _ s⟩
  unfold State.ceilEvent
  exact State.ite_both (fun u => s.out <:+ u.out ∧ RegsKeptOutside [] s u) same
    (State.ite_both (fun u => s.out <:+ u.out ∧ RegsKeptOutside [] s u) (posted ..) same)

/-- Settles O15: the instant of a line, the window of the cross-check, and the duty of the ceiling. -/
theorem lineTiming : Obligations.LineTiming := by
  unfold Obligations.LineTiming
  refine ⟨fun s i hr hi => ?_, fun s d0 d1 bad hr hdone h0 hratio => ?_, fun s hr hen hsil hact => ?_, fun s hr hjob => ?_,
    fun s hr hp hm => ?_, fun s hr => ?_⟩
  · have hdo : (match s.line.sched with
        | some i => (s.trigger i false).schedule
        | none => s) = (s.trigger i false).schedule := by rw [hi]
    exact ⟨_, (show execTriggerInstant s = _ from coreEvent_next hr hdo rfl rfl), rfl, rfl, .refl _ s, rfl⟩
  · intro dev tol
    have hend := State.xchkEnd_eq hdone h0 hratio (dev := dev) rfl
    refine ⟨fun hle => ?_, fun hlt hact => ?_⟩
    · rw [if_neg (not_lt.2 hle)] at hend
      exact ⟨_, (show execXchkWindowEnd s = _ from coreEvent_next hr hend rfl rfl), State.get_put_self .., (RegsKept.of_regs rfl).put (by simp) _,
        rfl, rfl⟩
    · rw [if_pos hlt] at hend
      obtain ⟨hflag, hcount, hkept, -⟩ := (s.xchkShown dev).xchkSet_spec (f := R.ENC_XCHK_STAT_DEV) (outside_of rfl) (by decide) (by decide)
      have hact' : ((s.xchkShown dev).xchkSet R.ENC_XCHK_STAT_DEV).get R.ENC_XCHK_CFG_ACTION = 0 :=
        (hkept _ (outside_of rfl) (by decide)).trans ((State.get_put_ne _ _ (by decide)).trans hact)
      rw [State.xchkAction_none hact'] at hend
      have herr := (hkept R.ENC_XCHK_ERR_DEV (outside_of rfl) (by decide)).trans (State.get_put_self ..)
      have hfirst : RegsKeptOutside [R.ENC_XCHK_ERR_DEV, R.ENC_XCHK_STAT_DEV, R.ENC_XCHK_CNT_COUNT] s (s.xchkShown dev) :=
        (RegsKeptOutside.of_regs rfl).put (by simp) _
      exact ⟨_, (show execXchkWindowEnd s = _ from coreEvent_eq hr hend), herr, hflag, hcount.trans (by
        rw [State.xchkShown, State.get_put_ne _ _ (by decide)]; rfl), hfirst.trans (hkept.mono (by simp))⟩
  · obtain ⟨hflag, hcount, hkept, hline⟩ := ({ s with line := { s.line with silent := 0 } } : State).xchkSet_spec (f := R.ENC_XCHK_STAT_LOSS)
      (outside_of rfl) (by decide) (by decide)
    have hact' : (({ s with line := { s.line with silent := 0 } } : State).xchkSet R.ENC_XCHK_STAT_LOSS).get R.ENC_XCHK_CFG_ACTION = 0 :=
      (hkept _ (outside_of rfl) (by decide)).trans hact
    exact ⟨_, (show execXchkLoss s = _ from coreEvent_eq hr ((if_pos (by simp [hen, hsil])).trans (State.xchkAction_none hact' true))), hflag,
      hline, hcount, hkept⟩
  · have hevent := (s.emit (.pin .speedCeil 0 (2500 * min s.ceilNow.1 (max 1 (s.get R.ENC_CEIL_FS_FS)) / max 1 (s.get R.ENC_CEIL_FS_FS)))).ceilEvent_spec
    exact ⟨_, (show execCeilPwmPeriod s = _ from coreEvent_eq hr (by simp only [hjob, if_true])), hevent.1.subset (by simp),
      hevent.2⟩
  · have hevent := (s.emit (.pin .speedCeil 0 0)).ceilEvent_spec
    have hjob : s.ceilJob = false := by
      unfold State.ceilJob
      obtain h | h := hm <;> simp [h]
    have hidle : (s.primary && (s.mode == .boot || s.mode == .safe)) = true := by
      obtain h | h := hm <;> simp [h, hp]
    exact ⟨_, (show execCeilPwmPeriod s = _ from coreEvent_eq hr (by simp only [hjob, hidle, if_true, Bool.false_eq_true, if_false])),
      hevent.1.subset (by simp), hevent.2⟩
  · show execOverspeedRelease s = _
    rw [execOverspeedRelease]
    exact coreEvent_next hr rfl rfl rfl

end Sys2Proof.Machine

/-! The Spindle and the billet engines at work (chapters 3 to 5): lanes, pace, known-answer tests, staging and decompression. -/

namespace Sys2Proof.Machine

/-! ## Lanes (R100, R105) -/

theorem State.openLines_sorted (s : State) : s.openLines.Pairwise (· < ·) := by
  unfold State.openLines
  rw [List.pairwise_map]
  exact List.pairwise_lt_range.imp fun h => by omega

/-- A lane's item: its line is open, its ports are those with a part due, and on no open line before it is a part of the lane due. -/
theorem State.laneWork_spec {s : State} {lane : Nat} {i : LaneItem} (h : s.laneWork lane = some i) :
    i.line ∈ s.openLines ∧ i.ports = (portsOf lane).filter (fun p => s.partDue p i.line lane) ∧ i.ports ≠ [] ∧
      ∀ m ∈ s.openLines, m < i.line → (portsOf lane).filter (fun p => s.partDue p m lane) = [] := by
  unfold State.laneWork at h
  obtain ⟨before, n, after, hl, hn, hbefore⟩ := List.findSome?_eq_some_iff.1 h
  have hsorted := s.openLines_sorted
  rw [hl, List.pairwise_append, List.pairwise_cons] at hsorted
  obtain ⟨-, ⟨hafter, -⟩, -⟩ := hsorted
  dsimp only at hn
  split at hn
  · cases hn
  next hne =>
    cases hn
    refine ⟨by rw [hl]; simp, rfl, by simpa using hne, fun m hm hlt => ?_⟩
    rw [hl, List.mem_append, List.mem_cons] at hm
    obtain hm | rfl | hm := hm
    · have hnone := hbefore m hm
      dsimp only at hnone
      split at hnone
      next hempty => simpa using hempty
      next => cases hnone
    · exact absurd hlt (lt_irrefl _)
    · exact absurd hlt (Nat.lt_asymm (hafter m hm))

/-- A request for VDD_SP on a free bus takes it at once (R109, R384). -/
theorem State.avsRequest_sp {s : State} (h : s.chuck.avs = none) (mv : Nat) : s.avsRequest 1 mv =
    ({ s with chuck := { s.chuck with avs := some (1, mv), avsTries := 0, spWait := none } } : State).emit (.avs 1 mv) := by
  unfold State.avsRequest State.avsKick
  simp [h]

/-- Settles O20: a lane that takes, a lane that ends, and the conditions of a pace step. -/
theorem lanesAndPace : Obligations.LanesAndPace := by
  unfold Obligations.LanesAndPace
  refine ⟨fun s lane i h => ?_, fun s lane tau ok i hr hi => ?_, fun s lane tau ok hr hi => ?_, fun s hr hrun hfree havs hfloor => ?_,
    fun s hr hfloor => ?_, fun s hr hlow => ?_, fun s hr hlines => ?_⟩
  · obtain ⟨hopen, hports, hne, hbefore⟩ := State.laneWork_spec h
    refine ⟨hne, hopen, fun p => by rw [hports, List.mem_filter], fun m hm hlt p hp => ?_⟩
    have hnone := List.filter_eq_nil_iff.1 (hbefore m hm hlt) p hp
    simpa using hnone
  · refine (show execLaneRenderDone lane tau ok s = _ from coreEvent_framed hr _).trans ?_
    dsimp only
    rw [State.laneDone, hi]
    cases ok <;> rfl
  · have hdone : s.laneDone lane tau ok = s := by
      unfold State.laneDone
      rw [hi]
    exact show execLaneRenderDone lane tau ok s = _ from coreEvent_next hr hdone rfl rfl
  · have hreq := State.avsRequest_sp (s := { s with path := { s.path with highRun := 0 } }) havs (s.get R.CHK_VSP_TARGET - 10)
    exact ⟨_, (show execPaceStepDown s = _ from coreEvent_next hr ((if_pos ⟨hrun, hfree, hfloor⟩).trans hreq) rfl rfl), rfl, rfl, rfl, rfl⟩
  · exact show execPaceStepDown s = _ from coreEvent_next hr (if_neg fun h => absurd h.2.2 (by omega)) rfl rfl
  · have hkept := (RegsKeptOutside.refl [R.SPN_STAT_PACE_LOW, R.SPN_PACE_CEIL] s).raise (f := R.SPN_STAT_PACE_LOW) (by simp) srcSPN
    have hflag := State.raise_flag (s := s) (f := R.SPN_STAT_PACE_LOW) srcSPN (outside_of rfl) (by decide)
    exact ⟨_, (show execPaceLow s = _ from coreEvent_next hr (if_pos hlow) (s.raise_aon ..) (s.raise_pending ..)),
      (State.flag_put_ne _ _ (by decide)).trans hflag, State.get_put_self .., hkept.put (by simp) 1⟩
  · exact ⟨_, (show execSpareRotate s = _ from coreEvent_next hr (if_pos hlines) rfl rfl),
      fun i x hx => by simp [hx], rfl, rfl⟩

/-! ## Known-answer tests (R111, R112) -/

theorem State.renderKick_idle {s : State} (h : s.path.armed = false) : s.renderKick = s := by
  unfold State.renderKick
  simp [h]

/-- With no line triggering armed there is nothing to supply or to render. -/
theorem State.kick_idle {s : State} (h : s.path.armed = false) : s.kick = s := by
  unfold State.kick State.supplyKick
  rw [if_neg (by simp [h]), State.renderKick_idle h]

/-- A test of a physical lane is no longer due; BUSY falls with the last that was demanded. -/
def State.katOver (s : State) (l : Nat) : State :=
  let s := { s with path := { s.path with katDue := clrBit s.path.katDue l, katRun := clrBit s.path.katRun l } }
  if s.path.katRun = 0 then s.put R.SPN_KAT_BUSY 0 else s

theorem State.katOver_spec (s : State) (l : Nat) :
    s.katOver l = { s with regs := (s.katOver l).regs, path := { s.path with katDue := clrBit s.path.katDue l, katRun := clrBit s.path.katRun l } } ∧
      (s.katOver l).get R.SPN_KAT_BUSY = (if clrBit s.path.katRun l = 0 then 0 else s.get R.SPN_KAT_BUSY) ∧
      RegsKept [R.SPN_KAT_BUSY] s (s.katOver l) := by
  unfold State.katOver
  dsimp only
  split
  · exact ⟨rfl, State.get_put_self .., (RegsKept.of_regs rfl).put (by simp) 0⟩
  · exact ⟨rfl, rfl, .of_regs rfl⟩

/-- What follows a test: shadow mismatches whose tests are over are judged, and rendering goes on. -/
def State.katAfter (s : State) : State :=
  let ended := s.path.misWait.filter (fun (e : Nat × Nat × Nat) => !bit s.path.katDue e.2.1 && !bit s.path.katDue e.2.2)
  let s := { s with path := { s.path with
    misWait := s.path.misWait.filter (fun (e : Nat × Nat × Nat) => bit s.path.katDue e.2.1 || bit s.path.katDue e.2.2) } }
  let s : State := ended.foldl State.misJudge s
  let s := if s.pair.judging && decide (s.path.katDue = 0) then s.unresolved else s
  s.renderKick

theorem State.katAfter_idle {s : State} (ha : s.path.armed = false) (hw : s.path.misWait = []) (hj : s.pair.judging = false) :
    s.katAfter = s := by
  have hnone : ({ s with path := { s.path with misWait := [] } } : State) = s := by rw [← hw]
  unfold State.katAfter
  simp only [hw, List.filter_nil, List.foldl_nil, hnone, hj, Bool.false_and, Bool.false_eq_true, if_false]
  exact State.renderKick_idle ha

/-- A lane out of service that has passed counts as fit again. -/
def State.katFit (s : State) (l : Nat) : State :=
  if s.bitIn R.SPN_PARTED_PARTED l then { s with path := { s.path with katOk := setBit s.path.katOk l } } else s

theorem State.katFit_spec (s : State) (l : Nat) : s.katFit l = { s with
    path := { s.path with katOk := if s.bitIn R.SPN_PARTED_PARTED l then setBit s.path.katOk l else s.path.katOk } } := by
  unfold State.katFit
  split <;> rfl

theorem State.katDone_pass {s : State} (l : Nat) (ha : s.path.armed = false) (hw : s.path.misWait = []) (hj : s.pair.judging = false) :
    s.katDone l true = (s.katOver l).katFit l := by
  have heq : s.katDone l true = ((s.katOver l).katFit l).katAfter := rfl
  obtain ⟨hrest, -, -⟩ := s.katOver_spec l
  rw [heq, State.katAfter_idle] <;> rw [State.katFit_spec, hrest] <;> assumption

/-- Settles O21: KAT_RUN, the periodic test, and the end of a test. -/
theorem knownAnswerTests : Obligations.KnownAnswerTests := by
  unfold Obligations.KnownAnswerTests
  refine ⟨fun s hr hm => ?_, fun s l hr hper hdue hl => ?_, fun s l hr hdue hl ha hw hj => ?_, fun s l pass hr hdue hl => ?_⟩
  · have hlog := State.sealedWrite_logged hm [(0x40400010, 1)] State.katDemand
    refine ⟨_, (show execKatRun s = _ from coreEvent_next hr rfl (by rw [hlog.rest]; rfl) (by rw [hlog.rest]; rfl)), ?_, ?_, ?_, ?_⟩
    · exact ((RegsKept.refl [R.TSL_LOG_TX_OFF] _).logged (by simp) hlog |>.get (by decide)).trans (State.get_put_self ..)
    · rw [hlog.rest]; rfl
    · rw [hlog.rest]; rfl
    · have hdemand : RegsKept [R.SPN_KAT_BUSY, R.TSL_LOG_TX_OFF] s s.katDemand := (RegsKept.of_regs rfl).put (f := R.SPN_KAT_BUSY) (by simp) 1
      exact hdemand.logged (by simp) hlog
  · have hmem : l ∈ (List.range 34).filter s.lanePresent := List.mem_of_getElem? hl
    have hget : ((List.range 34).filter s.lanePresent).getD (s.path.katTurn % max 1 ((List.range 34).filter s.lanePresent).length) 0 = l := by
      rw [List.getD_eq_getElem?_getD, hl]; rfl
    refine ⟨_, (show execKatPeriodic s = _ from coreEvent_next hr (if_pos ⟨hper, hdue⟩) rfl rfl), ?_, rfl, (List.mem_filter.1 hmem).2, rfl⟩
    exact congrArg (setBit s.path.katDue) hget
  · obtain ⟨hrest, hbusy, hkept⟩ := s.katOver_spec l
    have hfit := (s.katOver l).katFit_spec l
    have hparted : (s.katOver l).bitIn R.SPN_PARTED_PARTED l = s.bitIn R.SPN_PARTED_PARTED l := by
      rw [State.bitIn_eq, State.bitIn_eq, hkept.get (by decide)]
    rw [hparted] at hfit
    have hdone := (if_pos (by simp [hdue, hl]) : ite ((bit s.path.katDue l && s.lanePresent l) = true) (s.katDone l true) s = _).trans
      (State.katDone_pass l ha hw hj)
    generalize s.katOver l = u at hrest hbusy hkept hfit hdone
    generalize u.katFit l = v at hfit hdone
    refine ⟨v, (show execKatDone l true s = _ from coreEvent_next hr hdone ?_ ?_), ?_, ?_, ?_, ?_, ?_⟩
    · rw [hfit, hrest]
    · rw [hfit, hrest]
    · rw [hfit, hrest]
    · rw [hfit, hrest]
    · rw [hfit]; exact hbusy
    · rw [hfit, hrest]
    · rw [hfit]; exact hkept
  · exact show execKatDone l pass s = _ from coreEvent_eq hr (if_pos (by simp [hdue, hl]))

/-! ## Staging and decompression (R16, R67, R87–R90) -/

theorem State.decFree_job (s : State) (d : Nat) : (s.decFree d).decJob d = none := by
  show (modifyNth s.store.dec d (fun _ => none)).getD d none = none
  rw [modifyNth_eq_modify, List.getD_eq_getElem?_getD, List.getElem?_modify_eq]
  cases s.store.dec[d]? <;> rfl

theorem State.onPort_port_self {s : State} {p : Nat} (h : p < s.path.ports.length) (f : Port → Port) : (s.onPort p f).port p = f (s.port p) := by
  show (modifyNth s.path.ports p f).getD p {} = f (s.path.ports.getD p {})
  rw [modifyNth_eq_modify, List.getD_eq_getElem?_getD, List.getD_eq_getElem?_getD, List.getElem?_modify_eq, List.getElem?_eq_getElem h]
  rfl

/-- The error of the decompressors is recorded where none stands (R89). -/
def State.decErr (s : State) (d cause pos : Nat) (j : DecJob) : State :=
  let s := ((s.put R.BLT_DEC_ERR_CAUSE cause).put R.BLT_DEC_ERR_DEC d).put R.BLT_DEC_ERR_COLUMN j.col
  ((s.put R.BLT_DEC_ERR_BAND_BAND j.band).put R.BLT_DEC_ERR_POS_BITPOS pos).put R.BLT_DEC_ERR_VALID 1

theorem State.decErr_kept (s : State) (d cause pos : Nat) (j : DecJob) :
    RegsKept [R.BLT_DEC_ERR_VALID, R.BLT_DEC_ERR_CAUSE, R.BLT_DEC_ERR_DEC, R.BLT_DEC_ERR_COLUMN, R.BLT_DEC_ERR_BAND_BAND,
      R.BLT_DEC_ERR_POS_BITPOS] s (s.decErr d cause pos j) :=
  ((((((RegsKept.refl _ s).put (by simp) _).put (by simp) _).put (by simp) _).put (by simp) _).put (by simp) _).put (by simp) _

theorem State.decErr_shown (s : State) (d cause pos : Nat) (j : DecJob) : (s.decErr d cause pos j).get R.BLT_DEC_ERR_VALID = 1 ∧
    (s.decErr d cause pos j).get R.BLT_DEC_ERR_CAUSE = cause % 2 ^ R.BLT_DEC_ERR_CAUSE.width ∧
    (s.decErr d cause pos j).get R.BLT_DEC_ERR_DEC = d % 2 ^ R.BLT_DEC_ERR_DEC.width ∧
    (s.decErr d cause pos j).get R.BLT_DEC_ERR_BAND_BAND = j.band % 2 ^ 32 := by
  simp [State.decErr, State.get_put, Fld.key, R.BLT_DEC_ERR_VALID, R.BLT_DEC_ERR_CAUSE, R.BLT_DEC_ERR_DEC, R.BLT_DEC_ERR_COLUMN,
    R.BLT_DEC_ERR_BAND_BAND, R.BLT_DEC_ERR_POS_BITPOS]

/-- The first failure of a tile, while other decompressors are up: it is recorded, the decompressor is free, its tile goes, and the tile
is to be tried again. -/
theorem State.decBad_first {s : State} {j : DecJob} (ha : s.path.armed = false) (hv : s.flag R.BLT_DEC_ERR_VALID = false)
    (hf : s.firstDec j.col j.band = none) (hup : 2 ≤ s.decsUp) (d cause pos : Nat) : s.decBad d cause pos j =
      (let u := ((s.decErr d cause pos j).decFree d).dropTile j.col j.band
       { u with store := { u.store with retry := (j.col, j.band, d) :: u.store.retry } }) := by
  have hfirst : (((s.decErr d cause pos j).decFree d).dropTile j.col j.band).firstDec j.col j.band = none := hf
  have hsame : (((s.decErr d cause pos j).decFree d).dropTile j.col j.band).decsUp = s.decsUp := by
    show 32 - popcount 32 ((s.decErr d cause pos j).get _) = 32 - popcount 32 (s.get _)
    rw [(s.decErr_kept d cause pos j).get (by decide)]
  unfold State.decBad
  rw [if_neg (by simp [hv])]
  change State.kick (ite ((((s.decErr d cause pos j).decFree d).dropTile j.col j.band).firstDec j.col j.band).isSome _
    (ite ((((s.decErr d cause pos j).decFree d).dropTile j.col j.band).decsUp ≤ 1) _ _)) = _
  rw [hfirst, if_neg (by simp), if_neg (by rw [hsame]; omega)]
  exact State.kick_idle ha

/-- Settles O22: each event of the supply, followed by the supply and the rendering it lets go on. -/
theorem tileSupply : Obligations.TileSupply := by
  unfold Obligations.TileSupply
  refine ⟨fun s col band b hr hb hreq => ?_, fun s d j hr hj hw hlen => ⟨?_, fun k u hk hp hcol hband => ?_⟩, fun s d j hr hj hw ha hf => ?_,
    fun s d cause pos j hr hj ha hv hf hup => ?_, fun s d hr hd hpart => ?_⟩
  · have hdo (ok : Bool) : (match s.billetAt col band with
        | some b =>
          if b.staging = .requested then
            (if ok then s.onBillet b.job col band (fun b => { b with staging := .arrived }) else s.stageBad b).kick
          else s
        | none => s) = (if ok then s.onBillet b.job col band (fun b => { b with staging := .arrived }) else s.stageBad b).kick := by
      rw [hb]; exact if_pos hreq
    exact ⟨show execStagingDone col band true s = _ from coreEvent_eq hr (hdo true),
      show execStagingDone col band false s = _ from coreEvent_eq hr (hdo false)⟩
  · have hdo : (match s.decJob d with
        | some j => if j.written < 64 ∧ 256 * (j.written + 1) ≤ j.bytes.length then (s.tileWritten d (j.written + 1) j).kick else s
        | none => s) = (s.tileWritten d (j.written + 1) j).kick := by
      rw [hj]; exact if_pos ⟨hw, hlen⟩
    exact show execTileLineWritten d s = _ from coreEvent_eq hr hdo
  · have hport : (s.tileWritten d (j.written + 1) j).port (j.col / 8) = _ := State.onPort_port_self (s := { s with store := _ }) hp _
    rw [hport]
    show (List.map _ (s.port (j.col / 8)).tiles)[k]? = _
    rw [List.getElem?_map, hk]
    simp [hcol, hband]
  · have hdo : (match s.decJob d with
        | some j =>
          if !j.whole then s
          else
            let s := ((s.tileWritten d 64 j).decFree d).count R.BLT_DEC_TILES_COUNT
            let s := match s.firstDec j.col j.band with
              | some first => ((s.retryEnd j.col j.band).bump R.BLT_DEC_DISAGREE_COUNT).report 25 first 1
              | none => s
            s.kick
        | none => s) = ((s.tileWritten d 64 j).decFree d).count R.BLT_DEC_TILES_COUNT := by
      have hfirst : (((s.tileWritten d 64 j).decFree d).count R.BLT_DEC_TILES_COUNT).firstDec j.col j.band = none := hf
      rw [hj]
      dsimp only
      rw [if_neg (by simp [hw]), hfirst]
      exact State.kick_idle ha
    exact ⟨_, (show execDecompressDone d s = _ from coreEvent_next hr hdo rfl rfl), State.decFree_job (s.tileWritten d 64 j) d,
      State.get_put_self .., (RegsKept.of_regs rfl).count (by simp) 1⟩
  · have hbad := State.decBad_first ha hv hf hup d cause pos
    have hdo : (match s.decJob d with
        | some j => s.decBad d cause pos j
        | none => s) = s.decBad d cause pos j := by rw [hj]
    obtain ⟨hvalid, hcause, hdec, hband⟩ := s.decErr_shown d cause pos j
    exact ⟨_, (show execDecompInvalid d cause pos s = _ from coreEvent_next hr (hdo.trans hbad) rfl rfl),
      State.decFree_job (s.decErr d cause pos j) d, hvalid, hcause, hdec, hband, rfl, s.decErr_kept d cause pos j⟩
  · exact show execDecompDisagree d s = _ from coreEvent_eq hr (if_pos ⟨hd, hpart⟩)

end Sys2Proof.Machine

/-! Ingest (chapters 3 and 4): completion records, descriptor rings, host reads and compressors. -/

namespace Sys2Proof.Machine

theorem RegsKept.framed {fs : List Fld} {s t : State} (h : RegsKept fs s t) : RegsKept fs s (s.framed t) := h

theorem RegsKeptOutside.framed {fs : List Fld} {s t : State} (h : RegsKeptOutside fs s t) : RegsKeptOutside fs s (s.framed t) := h

/-! ## Completion records (R55, R68, R266) -/

/-- `t` follows `s` by records that left, none of them of ring `n`. -/
structure RecordsBut (n : Nat) (s t : State) : Prop where
  kept : RegsKeptOutside [] s t
  out : s.out <:+ t.out
  index : t.store.cqIndex.getD n 0 = s.store.cqIndex.getD n 0
  phase : t.store.cqPhase.getD n true = s.store.cqPhase.getD n true
  first : t.store.flights.find? (fun (g : Flight) => g.ring == n && g.udp == false)
    = s.store.flights.find? (fun (g : Flight) => g.ring == n && g.udp == false)
  ids : (t.store.flights.map (fun (g : Flight) => g.id)).Nodup

namespace RecordsBut

theorem refl (n : Nat) {s : State} (h : (s.store.flights.map (fun (g : Flight) => g.id)).Nodup) : RecordsBut n s s :=
  ⟨.refl _ s, List.suffix_refl _, rfl, rfl, rfl, h⟩

theorem trans {n : Nat} {s t u : State} (h : RecordsBut n s t) (g : RecordsBut n t u) : RecordsBut n s u :=
  ⟨h.kept.trans g.kept, h.out.trans g.out, g.index.trans h.index, g.phase.trans h.phase, g.first.trans h.first, g.ids⟩

end RecordsBut

theorem getD_modifyNth_ne {α : Type} (l : List α) {i j : Nat} (h : i ≠ j) (f : α → α) (d : α) : (modifyNth l i f).getD j d = l.getD j d := by
  rw [modifyNth_eq_modify, List.getD_eq_getElem?_getD, List.getD_eq_getElem?_getD, List.getElem?_modify_ne _ _ h]

/-- A flight of another ring, or of the UDP path, leaves the list. -/
theorem State.dropFlight_but {n : Nat} {s : State} {f : Flight} (hids : (s.store.flights.map (fun (g : Flight) => g.id)).Nodup)
    (hf : f ∈ s.store.flights) (hne : f.ring ≠ n ∨ f.udp = true) : RecordsBut n s (s.dropFlight f.id) := by
  refine ⟨.of_regs rfl, List.suffix_refl _, rfl, rfl, ?_, (List.filter_sublist.map _).nodup hids⟩
  show (s.store.flights.filter _).find? _ = _
  rw [List.find?_filter]
  refine List.find?_congr fun g hg => ?_
  by_cases hid : g.id = f.id
  · have hgf : g = f := List.inj_on_of_nodup_map hids hg hf hid
    subst hgf
    obtain h | h := hne <;> simp [h]
  · simp [hid, ← Bool.beq_eq_decide_eq]

/-- The record in host memory and the ring's index and phase moved on. -/
def State.recordPut (s : State) (f : Flight) : State :=
  let n := f.ring
  let i := s.store.cqIndex.getD n 0
  let base := s.get (R.ING_RING_CQHI_ADDR_HI n) * 2 ^ 32 + s.get (R.ING_RING_CQLO_ADDR_LO n) / 4096 * 4096
  let phase := s.store.cqPhase.getD n true
  let s := s.emit (.hostWrite (base + 16 * i) (f.record phase))
  let wrap := decide (s.ringSize n ≤ i + 1)
  { s with store := { s.store with
    cqIndex := modifyNth s.store.cqIndex n (fun _ => if wrap then 0 else i + 1)
    cqPhase := if wrap then modifyNth s.store.cqPhase n (fun b => !b) else s.store.cqPhase } }

theorem State.writeRecord_eq (s : State) (f : Flight) : s.writeRecord f =
    if bit f.flags 2 then (s.recordPut f).sendIrq ((s.recordPut f).get (R.ING_RING_CFG_VEC f.ring)) else s.recordPut f := rfl

theorem RecordsBut.of_notice {n : Nat} {s t : State} (h : Notice s t) (hout : s.out <:+ t.out)
    (hids : (s.store.flights.map (fun (g : Flight) => g.id)).Nodup) : RecordsBut n s t := by
  have hst := h.same_store
  exact ⟨(RegsKeptOutside.refl _ s).notice h, hout, by rw [hst], by rw [hst], by rw [hst], by rw [hst]; exact hids⟩

/-- What a record written to its ring leaves alone. -/
theorem State.writeRecord_but {n : Nat} {s : State} {f : Flight} (hids : (s.store.flights.map (fun (g : Flight) => g.id)).Nodup)
    (hne : f.ring ≠ n) : RecordsBut n s (s.writeRecord f) := by
  have hput : RecordsBut n s (s.recordPut f) := by
    refine ⟨.of_regs rfl, List.suffix_cons .., getD_modifyNth_ne _ hne _ _, ?_, rfl, hids⟩
    show (if _ then modifyNth s.store.cqPhase f.ring (fun b => !b) else s.store.cqPhase).getD n true = _
    split
    · exact getD_modifyNth_ne _ hne _ _
    · rfl
  rw [State.writeRecord_eq]
  split
  · exact hput.trans (.of_notice (State.sendIrq_notice _ _) (State.sendIrq_out _ _) hids)
  · exact hput

/-- A record that is written is in host memory. -/
theorem State.writeRecord_out (s : State) (f : Flight) :
    .hostWrite (s.get (R.ING_RING_CQHI_ADDR_HI f.ring) * 2 ^ 32 + s.get (R.ING_RING_CQLO_ADDR_LO f.ring) / 4096 * 4096
        + 16 * s.store.cqIndex.getD f.ring 0) (f.record (s.store.cqPhase.getD f.ring true)) ∈ (s.writeRecord f).out := by
  have hput : .hostWrite (s.get (R.ING_RING_CQHI_ADDR_HI f.ring) * 2 ^ 32 + s.get (R.ING_RING_CQLO_ADDR_LO f.ring) / 4096 * 4096
        + 16 * s.store.cqIndex.getD f.ring 0) (f.record (s.store.cqPhase.getD f.ring true)) ∈ (s.recordPut f).out := List.mem_cons_self ..
  rw [State.writeRecord_eq]
  split
  · exact (State.sendIrq_out _ _).subset hput
  · exact hput

theorem State.writeRecord_kept (s : State) (f : Flight) : RegsKeptOutside [] s (s.writeRecord f) ∧ s.out <:+ (s.writeRecord f).out := by
  have hput : RegsKeptOutside [] s (s.recordPut f) ∧ s.out <:+ (s.recordPut f).out := ⟨.of_regs rfl, List.suffix_cons ..⟩
  rw [State.writeRecord_eq]
  split
  · exact ⟨hput.1.notice (State.sendIrq_notice _ _), hput.2.trans (State.sendIrq_out _ _)⟩
  · exact hput

/-- The datagram of a record on the UDP path. -/
def State.recordUdp (s : State) (f : Flight) : State :=
  if s.flag R.MBX_UDP_SESS_OPEN then
    let s := s.sendUdp 5 s.mbx.icplSeq (f.record false)
    { s with mbx := { s.mbx with icplSeq := s.mbx.icplSeq + 1 } }
  else s

theorem State.recordUdp_notice (s : State) (f : Flight) : Notice s (s.recordUdp f) ∧ s.out <:+ (s.recordUdp f).out := by
  unfold State.recordUdp
  split
  · exact ⟨(State.sendUdp_notice s _ _ _).trans (Notice.mbx _ _), List.suffix_cons ..⟩
  · exact ⟨.refl s, List.suffix_refl _⟩

theorem State.settle1_succ (fuel : Nat) (s : State) (n : Nat) (udp : Bool) : State.settle1 (fuel + 1) s n udp =
    match s.store.flights.find? (fun (f : Flight) => f.ring == n && f.udp == udp) with
    | none => s
    | some f =>
      if f.phase ≠ 3 then s
      else if f.quiet then State.settle1 fuel (s.dropFlight f.id) n udp
      else if udp then State.settle1 fuel ((s.recordUdp f).dropFlight f.id) n udp
      else if s.cqRingFull n then s
      else State.settle1 fuel ((s.writeRecord f).dropFlight f.id) n udp := rfl

/-- Records that leave change no register outside the interrupt controller and the mailbox block. -/
theorem State.settle1_kept (fuel : Nat) (s : State) (n : Nat) (udp : Bool) :
    RegsKeptOutside [] s (State.settle1 fuel s n udp) ∧ s.out <:+ (State.settle1 fuel s n udp).out := by
  induction fuel generalizing s with
  | zero => exact ⟨.refl _ s, List.suffix_refl _⟩
  | succ fuel ih =>
    have next (u : State) (id : Nat) (hu : RegsKeptOutside [] s u ∧ s.out <:+ u.out) :
        RegsKeptOutside [] s (State.settle1 fuel (u.dropFlight id) n udp) ∧ s.out <:+ (State.settle1 fuel (u.dropFlight id) n udp).out := by
      obtain ⟨hkept, hout⟩ := ih (u.dropFlight id)
      exact ⟨hu.1.trans hkept, hu.2.trans hout⟩
    have same : RegsKeptOutside [] s s ∧ s.out <:+ s.out := ⟨.refl _ s, List.suffix_refl _⟩
    rw [State.settle1_succ]
    split
    · exact same
    next f _ =>
      split_ifs
      · exact same
      · exact next s f.id same
      · obtain ⟨hn, hout⟩ := s.recordUdp_notice f
        exact next _ f.id ⟨(RegsKeptOutside.refl _ s).notice hn, hout⟩
      · exact same
      · exact next _ f.id (s.writeRecord_kept f)

theorem State.recordsOut_kept (s : State) : RegsKeptOutside [] s s.recordsOut ∧ s.out <:+ s.recordsOut.out := by
  have all (fuel : Nat) (l : List Nat) (u : State) : RegsKeptOutside [] u (u.forEach l (fun s n => State.settle1 fuel s n false)) ∧
      u.out <:+ (u.forEach l (fun s n => State.settle1 fuel s n false)).out := by
    induction l generalizing u with
    | nil => exact ⟨.refl _ u, List.suffix_refl _⟩
    | cons n l ih =>
      obtain ⟨hk, ho⟩ := State.settle1_kept fuel u n false
      obtain ⟨hk', ho'⟩ := ih (State.settle1 fuel u n false)
      exact ⟨hk.trans hk', ho.trans ho'⟩
  unfold State.recordsOut
  dsimp only
  generalize s.store.flights.length + 1 = fuel
  obtain ⟨hk, ho⟩ := all fuel (List.range 4) s
  obtain ⟨hk', ho'⟩ := State.settle1_kept fuel (s.forEach (List.range 4) (fun s n => State.settle1 fuel s n false)) 3 true
  exact ⟨hk.trans hk', ho.trans ho'⟩

/-- The records of another ring or of the UDP path leave ring `n` as it is. -/
theorem State.settle1_but {n m : Nat} {udp : Bool} (h : m ≠ n ∨ udp = true) (fuel : Nat) {s : State}
    (hids : (s.store.flights.map (fun (g : Flight) => g.id)).Nodup) : RecordsBut n s (State.settle1 fuel s m udp) := by
  induction fuel generalizing s with
  | zero => exact .refl n hids
  | succ fuel ih =>
    rw [State.settle1_succ]
    split
    · exact .refl n hids
    next f hf =>
      have hmem := List.mem_of_find?_eq_some hf
      have hring : f.ring = m ∧ f.udp = udp := by
        have := List.find?_some hf
        simpa using this
      have hne : f.ring ≠ n ∨ f.udp = true := by rw [hring.1, hring.2]; exact h
      have next {u : State} (hu : RecordsBut n s u) (hst : u.store.flights = s.store.flights) :
          RecordsBut n s (State.settle1 fuel (u.dropFlight f.id) m udp) := by
        have hdrop := State.dropFlight_but (s := u) hu.ids (by rw [hst]; exact hmem) hne
        exact (hu.trans hdrop).trans (ih hdrop.ids)
      split_ifs with _ _ hudp
      · exact .refl n hids
      · exact next (.refl n hids) rfl
      · obtain ⟨hn, hout⟩ := s.recordUdp_notice f
        exact next (.of_notice hn hout hids) (by rw [hn.same_store])
      · exact .refl n hids
      · have hwrite : (s.writeRecord f).store.flights = s.store.flights := by
          rw [State.writeRecord_eq]
          split
          · rw [(State.sendIrq_notice _ _).same_store]; rfl
          · rfl
        exact next (State.writeRecord_but hids (by simpa [hring.2, hudp] using hne)) hwrite

/-- The write of a flight's record to its ring. -/
def State.recordAt (s : State) (f : Flight) : Emit :=
  .hostWrite (s.get (R.ING_RING_CQHI_ADDR_HI f.ring) * 2 ^ 32 + s.get (R.ING_RING_CQLO_ADDR_LO f.ring) / 4096 * 4096
    + 16 * s.store.cqIndex.getD f.ring 0) (f.record (s.store.cqPhase.getD f.ring true))

theorem outside_ring {n : Nat} (h : n < 4) : outside (R.ING_RING_CQHI_ADDR_HI n).key ∧ outside (R.ING_RING_CQLO_ADDR_LO n).key ∧
    outside (R.ING_RING_CQDONE_DONE n).key ∧ outside (R.ING_RING_CFG_SIZE n).key ∧ outside (R.ING_RING_HEAD_HEAD n).key ∧
    outside (R.ING_RING_TAIL_TAIL n).key := by
  simp only [outside, Fld.key, R.ING_RING_CQHI_ADDR_HI, R.ING_RING_CQLO_ADDR_LO, R.ING_RING_CQDONE_DONE, R.ING_RING_CFG_SIZE,
    R.ING_RING_HEAD_HEAD, R.ING_RING_TAIL_TAIL]
  omega

theorem RecordsBut.recordAt {f : Flight} {s t : State} (h : RecordsBut f.ring s t) (hn : f.ring < 4) : t.recordAt f = s.recordAt f := by
  obtain ⟨hhi, hlo, -⟩ := outside_ring hn
  unfold State.recordAt
  rw [h.kept _ hhi (by simp), h.kept _ hlo (by simp), h.index, h.phase]

theorem RecordsBut.cqRingFull {n : Nat} {s t : State} (h : RecordsBut n s t) (hn : n < 4) : t.cqRingFull n = s.cqRingFull n := by
  obtain ⟨-, -, hdone, hsize, -⟩ := outside_ring hn
  unfold State.cqRingFull State.ringSize
  rw [h.kept _ hdone (by simp), h.kept _ hsize (by simp), h.index]

/-- The oldest flight of a ring that has ended leaves its record, whatever rings are looked at before and after. -/
theorem State.forEach_settle1_out {f : Flight} (hn : f.ring < 4) (h3 : f.phase = 3) (hq : f.quiet = false) (fuel : Nat) (l : List Nat)
    {s : State} (hl : f.ring ∈ l) (hids : (s.store.flights.map (fun (g : Flight) => g.id)).Nodup)
    (hf : s.store.flights.find? (fun (g : Flight) => g.ring == f.ring && g.udp == false) = some f) (hfull : s.cqRingFull f.ring = false) :
    s.recordAt f ∈ (s.forEach l (fun s n => State.settle1 (fuel + 1) s n false)).out := by
  have grows (l : List Nat) (u : State) : u.out <:+ (u.forEach l (fun s n => State.settle1 (fuel + 1) s n false)).out := by
    induction l generalizing u with
    | nil => exact List.suffix_refl _
    | cons n l ih => exact (State.settle1_kept (fuel + 1) u n false).2.trans (ih _)
  induction l generalizing s with
  | nil => cases hl
  | cons n l ih =>
    by_cases hne : n = f.ring
    · subst hne
      refine (grows l _).subset ?_
      show s.recordAt f ∈ (State.settle1 (fuel + 1) s f.ring false).out
      rw [State.settle1_succ, hf]
      simp only [h3, hq, hfull, ne_eq, not_true_eq_false, if_false, Bool.false_eq_true]
      exact (State.settle1_kept fuel _ _ _).2.subset (s.writeRecord_out f)
    · have hbut := State.settle1_but (.inl hne : n ≠ f.ring ∨ false = true) (fuel + 1) hids
      rw [← hbut.recordAt hn]
      exact ih ((List.mem_cons.1 hl).resolve_left (Ne.symm hne)) hbut.ids (hbut.first.trans hf) ((hbut.cqRingFull hn).trans hfull)

theorem State.recordsOut_out {s : State} {f : Flight} (hn : f.ring < 4) (h3 : f.phase = 3) (hq : f.quiet = false)
    (hids : (s.store.flights.map (fun (g : Flight) => g.id)).Nodup)
    (hf : s.store.flights.find? (fun (g : Flight) => g.ring == f.ring && g.udp == false) = some f) (hfull : s.cqRingFull f.ring = false) :
    s.recordAt f ∈ s.recordsOut.out := by
  have hfirst := State.forEach_settle1_out hn h3 hq s.store.flights.length (List.range 4) (List.mem_range.2 hn) hids hf hfull
  unfold State.recordsOut
  dsimp only
  generalize s.store.flights.length + 1 = fuel at hfirst ⊢
  exact (State.settle1_kept fuel _ 3 true).2.subset hfirst

/-- A flight as it ends. -/
def Flight.ended (f : Flight) (st store slen : Nat) : Flight := { f with phase := 3, status := st, store := store, slen := slen, bytes := [] }

/-- The flight ended in the list, and counted. -/
def State.flightOver (s : State) (id st store slen : Nat) : State :=
  let s := s.onFlight id (fun f => f.ended st store slen)
  let s := s.put R.ING_INFLIGHT_COUNT (s.get R.ING_INFLIGHT_COUNT - 1)
  if st = 0 then s else s.count R.ING_RETURNED_COUNT

theorem State.flightEnd_eq (s : State) (id st store slen : Nat) :
    s.flightEnd id st store slen = (s.flightOver id st store slen).recordsOut := rfl

theorem State.flightOver_kept (s : State) (id st store slen : Nat) :
    RegsKept [R.ING_INFLIGHT_COUNT, R.ING_RETURNED_COUNT] s (s.flightOver id st store slen) ∧
      (s.flightOver id st store slen).store = (s.onFlight id (fun f => f.ended st store slen)).store := by
  have hput : RegsKept [R.ING_INFLIGHT_COUNT, R.ING_RETURNED_COUNT] s ((s.onFlight id (fun f => f.ended st store slen)).put
    R.ING_INFLIGHT_COUNT (s.get R.ING_INFLIGHT_COUNT - 1)) := (RegsKept.of_regs rfl).put (by simp) _
  unfold State.flightOver
  dsimp only
  split
  · exact ⟨hput, rfl⟩
  · exact ⟨hput.count (by simp) 1, rfl⟩

/-- The record of a flight that ends is written, where its ring has room and it is the oldest of its ring. -/
theorem State.flightEnd_record {s : State} {f : Flight} (hids : (s.store.flights.map (fun (g : Flight) => g.id)).Nodup) (st : Nat)
    (hn : f.ring < 4)
    (hf : s.store.flights.find? (fun (g : Flight) => g.ring == f.ring && g.udp == false) = some f) (hq : f.quiet = false)
    (hfull : s.cqRingFull f.ring = false) : s.recordAt (f.ended st 0 0) ∈ (s.flightEnd f.id st 0 0).out := by
  obtain ⟨hkept, hstore⟩ := s.flightOver_kept f.id st 0 0
  have hmapped : (s.flightOver f.id st 0 0).store.flights = s.store.flights.map (fun g => if g.id == f.id then g.ended st 0 0 else g) := by
    rw [hstore]; rfl
  have hids' : ((s.flightOver f.id st 0 0).store.flights.map (fun (g : Flight) => g.id)).Nodup := by
    rw [hmapped, List.map_map]
    refine (List.map_congr_left fun g _ => ?_ : _ = s.store.flights.map (fun (g : Flight) => g.id)) ▸ hids
    show (if g.id == f.id then g.ended st 0 0 else g).id = g.id
    split <;> rfl
  have hf' : (s.flightOver f.id st 0 0).store.flights.find? (fun (g : Flight) => g.ring == f.ring && g.udp == false)
      = some (f.ended st 0 0) := by
    have hsame : ((fun (g : Flight) => g.ring == f.ring && g.udp == false) ∘ fun g => if g.id == f.id then g.ended st 0 0 else g)
        = fun (g : Flight) => g.ring == f.ring && g.udp == false := by
      funext g
      show ((if g.id == f.id then g.ended st 0 0 else g).ring == f.ring && (if g.id == f.id then g.ended st 0 0 else g).udp == false) = _
      split <;> rfl
    rw [hmapped, List.find?_map, hsame, hf]
    simp
  have same {g : Fld} (hg : g.key < 0x40200100 * 32) : (s.flightOver f.id st 0 0).get g = s.get g := hkept g (by
    simp only [List.mem_cons, List.not_mem_nil, or_false]
    rintro h (rfl | rfl) he <;> rw [he] at hg <;> exact absurd hg (by decide))
  have hat : (s.flightOver f.id st 0 0).recordAt (f.ended st 0 0) = s.recordAt (f.ended st 0 0) := by
    unfold State.recordAt
    rw [hstore, show (f.ended st 0 0).ring = f.ring from rfl,
      same (show (R.ING_RING_CQHI_ADDR_HI f.ring).key < _ by simp only [Fld.key, R.ING_RING_CQHI_ADDR_HI]; omega),
      same (show (R.ING_RING_CQLO_ADDR_LO f.ring).key < _ by simp only [Fld.key, R.ING_RING_CQLO_ADDR_LO]; omega)]
    rfl
  have hroom : (s.flightOver f.id st 0 0).cqRingFull f.ring = false := by
    rw [← hfull]
    unfold State.cqRingFull State.ringSize
    rw [hstore, same (show (R.ING_RING_CQDONE_DONE f.ring).key < _ by simp only [Fld.key, R.ING_RING_CQDONE_DONE]; omega),
      same (show (R.ING_RING_CFG_SIZE f.ring).key < _ by simp only [Fld.key, R.ING_RING_CFG_SIZE]; omega)]
    rfl
  rw [State.flightEnd_eq, ← hat]
  exact State.recordsOut_out (f := f.ended st 0 0) hn rfl hq hids' hf' hroom

/-! ## Compressors (R81–R85, R212) -/

theorem State.cmpKick_none {s : State} (h : s.store.cmpWait = []) : s.cmpKick = s := by
  have hnext : s.cmpNext = none := by
    unfold State.cmpNext
    rw [h]
    simp
  unfold State.cmpKick State.cmpKickN
  rw [hnext]

theorem State.onCam_cport_self {s : State} {n : Nat} (h : n < s.cam.ports.length) (f : CamPort → CamPort) :
    (s.onCam n f).cport n = f (s.cport n) := by
  show (modifyNth s.cam.ports n f).getD n {} = f (s.cam.ports.getD n {})
  rw [modifyNth_eq_modify, List.getD_eq_getElem?_getD, List.getD_eq_getElem?_getD, List.getElem?_modify_eq, List.getElem?_eq_getElem h]
  rfl

/-- A compressor is free after a piece of a capture, which counts; a piece that does not shrink counts beside it. -/
def State.pieceDone (s : State) (k : Nat) (grew : Bool) : State :=
  let s := ({ s with store := { s.store with cmp := modifyNth s.store.cmp k (fun _ => none) } } : State).count R.BLT_CMP_BILLETS_COUNT
  if grew then s.count R.BLT_CMP_NOSHRINK_COUNT else s

theorem State.pieceDone_rest (s : State) (k : Nat) (grew : Bool) : s.pieceDone k grew =
    { s with regs := (s.pieceDone k grew).regs, store := { s.store with cmp := modifyNth s.store.cmp k (fun _ => none) } } := by
  unfold State.pieceDone
  cases grew <;> rfl

theorem State.pieceDone_kept (s : State) (k : Nat) (grew : Bool) :
    (s.pieceDone k grew).get R.BLT_CMP_BILLETS_COUNT = (s.get R.BLT_CMP_BILLETS_COUNT + 1) % 2 ^ R.BLT_CMP_BILLETS_COUNT.width ∧
      RegsKept [R.BLT_CMP_BILLETS_COUNT, R.BLT_CMP_NOSHRINK_COUNT] s (s.pieceDone k grew) := by
  have hcount : RegsKept [R.BLT_CMP_BILLETS_COUNT, R.BLT_CMP_NOSHRINK_COUNT] s
      (({ s with store := { s.store with cmp := modifyNth s.store.cmp k (fun _ => none) } } : State).count R.BLT_CMP_BILLETS_COUNT) :=
    (RegsKept.of_regs rfl).count (by simp) 1
  unfold State.pieceDone
  cases grew
  · exact ⟨State.get_put_self .., hcount⟩
  · exact ⟨(State.get_put_ne _ _ (by decide)).trans (State.get_put_self ..), hcount.count (by simp) 1⟩

theorem State.compressDone_capture {s : State} {k cam piece depth : Nat} {c : CamCap} {tile : List Nat} {o : Option (List Nat)}
    (hk : s.store.cmp.getD k none = some (.capture cam piece depth)) (hw : s.store.cmpWait = []) (hcap : (s.cport cam).cap = some c)
    (hp : c.pieces[piece]? = some (tile, o)) : s.compressDone k false =
      (s.pieceDone k (compressBillet 2 cam piece depth tile).isNone).onCam cam (fun x => { x with cap := some { c with
        pieces := modifyNth c.pieces piece (fun e => (e.1, some ((compressBillet 2 cam piece depth tile).getD
          (mkHeader 3 cam 0 16384 piece tile)))) } }) := by
  have htile : (c.pieces.getD piece ([], none)).1 = tile := by
    rw [List.getD_eq_getElem?_getD, hp]; rfl
  have hcap' : ((({ s with store := { s.store with cmp := modifyNth s.store.cmp k (fun _ => none) } } : State).count
      R.BLT_CMP_BILLETS_COUNT).cport cam).cap = some c := hcap
  have hwait (u : State) (hu : u = s.pieceDone k (compressBillet 2 cam piece depth tile).isNone) (f : CamPort → CamPort) :
      (u.onCam cam f).cmpKick = u.onCam cam f := State.cmpKick_none (by rw [hu, State.pieceDone_rest]; exact hw)
  unfold State.compressDone
  rw [hk]
  simp only [Bool.false_eq_true, if_false, Bool.not_false, Bool.true_and]
  rw [hcap']
  dsimp only
  rw [htile]
  generalize compressBillet 2 cam piece depth tile = out at hwait ⊢
  cases out with
  | none => exact hwait _ rfl _
  | some b => exact hwait _ rfl _

/-- Settles O24: the two ends of a host read, and the two ends of a piece. -/
theorem readsAndCompressors : Obligations.ReadsAndCompressors := by
  unfold Obligations.ReadsAndCompressors
  refine ⟨fun s f bytes hr hf hjob => ⟨?_, ?_⟩, fun s f _ hids st hn _ hf hq hfull => State.flightEnd_record hids st hn hf hq hfull,
    fun s k cam piece depth c tile o hr hk hw hcam hcap hp => ?_⟩
  · have hdone : s.readDone false bytes = s.flightEnd f.id 0x18 0 0 := by
      unfold State.readDone
      rw [hf]
      simp [hjob]
    exact show execHostReadDone false bytes s = _ from coreEvent_eq hr hdone
  · have hdone : s.readDone true bytes = s.billetRead f ((bytes.map (· % 256) ++ List.replicate f.len 0).take f.len) := by
      unfold State.readDone
      rw [hf]
      simp [hjob]
    exact show execHostReadDone true bytes s = _ from coreEvent_eq hr hdone
  · have hdone := State.compressDone_capture hk hw hcap hp
    generalize compressBillet 2 cam piece depth tile = out at hdone ⊢
    obtain ⟨hcount, hkept⟩ := s.pieceDone_kept k out.isNone
    have hrest := s.pieceDone_rest k out.isNone
    generalize s.pieceDone k out.isNone = u at hdone hcount hkept hrest
    refine ⟨_, (show execCompressDone k false s = _ from coreEvent_next hr hdone ?_ ?_), ?_, ?_, hcount, hkept⟩
    · rw [hrest]; rfl
    · rw [hrest]; rfl
    · show u.store.cmp.getD k none = none
      rw [hrest]
      show (modifyNth s.store.cmp k (fun _ => none)).getD k none = none
      rw [modifyNth_eq_modify, List.getD_eq_getElem?_getD, List.getElem?_modify_eq]
      cases s.store.cmp[k]? <;> rfl
    · rw [State.onCam_cport_self (by rw [hrest]; exact hcam)]
      simp [modifyNth_eq_modify, hp]

/-! ## Ring controls (R55, R57) -/

theorem State.addFlights_regs (l : List (List Nat)) (n : Nat) (s : State) : (l.foldl (fun (s : State) (b : List Nat) =>
    s.addFlight { mkFlight s.store.flightNo n false b with phase := 3, status := 0x1F }) s).regs = s.regs := by
  induction l generalizing s with
  | nil => rfl
  | cons b l ih => exact (ih _).trans rfl

/-- A flush of a ring that is not enabled: HEAD takes TAIL, and the records leave. -/
theorem State.ringFlush_kept {s : State} {n : Nat} (hn : n < 4) (he : s.flag (R.ING_RING_CFG_ENABLE n) = false) :
    RegsKeptOutside [R.ING_RING_HEAD_HEAD n] s (s.ringFlush n) ∧
      (s.ringFlush n).get (R.ING_RING_HEAD_HEAD n) = s.get (R.ING_RING_TAIL_TAIL n) := by
  obtain ⟨-, -, -, -, hhead, -⟩ := outside_ring hn
  unfold State.ringFlush
  rw [if_neg (by simp [he]; omega)]
  dsimp only
  have hregs := State.addFlights_regs ((List.range (s.ringWaits n)).map (s.ringDesc n)) n s
  generalize List.foldl _ s ((List.range (s.ringWaits n)).map (s.ringDesc n)) = u at hregs
  have hout := ((u.put (R.ING_RING_HEAD_HEAD n) (u.get (R.ING_RING_TAIL_TAIL n))).recordsOut_kept).1
  have hput : RegsKeptOutside [R.ING_RING_HEAD_HEAD n] s (u.put (R.ING_RING_HEAD_HEAD n) (u.get (R.ING_RING_TAIL_TAIL n))) :=
    (RegsKeptOutside.of_regs hregs).put (by simp) _
  refine ⟨hput.trans (hout.mono (by simp)), ?_⟩
  rw [hout _ hhead (by simp), State.get_put_self, State.get_congr hregs]
  exact Nat.mod_eq_of_lt (s.get_lt _)

/-- In SHADOW a core's write to a sealed block has no effect, whether or not the core logic runs. -/
theorem coreEvent_sealed_shadow {s : State} (h : s.mode = .shadow) (l : List (Nat × Nat)) (k : State → State) :
    coreEvent s (fun s => s.sealedWrite l k) = .next s :=
  coreEvent_of_noop fun _ => by rw [State.sealedWrite_shadow h]; rfl

/-- Settles O25: the controls as sealed writes, which SHADOW refuses. -/
theorem ringControls : Obligations.RingControls := by
  unfold Obligations.RingControls
  refine ⟨fun s n en hr hm hn => ?_, fun s n hr hm hn he => ?_, fun s n v hr hm hn => ?_, fun s n v en hm => ?_⟩
  · have hlog := State.sealedWrite_logged hm [(0x40200000 + 0x40 * n,
      b2n en + s.get (R.ING_RING_CFG_SIZE n) * 2 + s.get (R.ING_RING_CFG_VEC n) * 2 ^ 8)] (fun s => s.ringEnable n en)
    have hset : s.ringEnable n en = s.put (R.ING_RING_CFG_ENABLE n) (b2n en) := if_neg (by omega)
    rw [hset] at hlog
    refine ⟨_, (show execRingEnable n en s = _ from coreEvent_framed hr _), ?_, ?_⟩
    · refine ((RegsKept.refl [R.TSL_LOG_TX_OFF] _).logged (by simp) hlog |>.flag ?_).trans ?_
      · simp [Fld.key, R.ING_RING_CFG_ENABLE, R.TSL_LOG_TX_OFF]; omega
      · rw [State.flag_put_self _ rfl]; cases en <;> rfl
    · exact (((RegsKept.refl _ s).put (f := R.ING_RING_CFG_ENABLE n) (by simp) _).logged (by simp) hlog).framed
  · have hlog := State.sealedWrite_logged hm [(0x40200000 + 0x40 * n,
      2 ^ 31 + s.get (R.ING_RING_CFG_SIZE n) * 2 + s.get (R.ING_RING_CFG_VEC n) * 2 ^ 8)] (fun s => s.ringFlush n)
    obtain ⟨hkept, hhead⟩ := State.ringFlush_kept hn he
    refine ⟨_, (show execRingFlush n s = _ from coreEvent_framed hr _), ?_, ?_⟩
    · refine ((RegsKept.refl [R.TSL_LOG_TX_OFF] _).logged (by simp) hlog |>.get ?_).trans hhead
      simp [Fld.key, R.ING_RING_HEAD_HEAD, R.TSL_LOG_TX_OFF]; omega
    · exact ((hkept.mono (by simp)).logged (by simp) hlog).framed
  · have hlog := State.sealedWrite_logged hm [(0x40200018 + 0x40 * n, v)] (fun s => s.cqDone n v)
    have hset : s.cqDone n v = (s.put (R.ING_RING_CQDONE_DONE n) v).recordsOut := if_neg (by omega)
    rw [hset] at hlog
    obtain ⟨hkept, -⟩ := (s.put (R.ING_RING_CQDONE_DONE n) v).recordsOut_kept
    refine ⟨_, (show execCqdoneWrite n v s = _ from coreEvent_framed hr _), ?_, ?_⟩
    · refine ((RegsKept.refl [R.TSL_LOG_TX_OFF] _).logged (by simp) hlog |>.get ?_).trans
        ((hkept _ (outside_ring hn).2.2.1 (by simp)).trans (State.get_put_self ..))
      simp [Fld.key, R.ING_RING_CQDONE_DONE, R.TSL_LOG_TX_OFF]; omega
    · exact ((((RegsKeptOutside.refl _ s).put (f := R.ING_RING_CQDONE_DONE n) (by simp) v).trans (hkept.mono (by simp))).logged (by simp)
        hlog).framed
  · exact ⟨coreEvent_sealed_shadow hm .., coreEvent_sealed_shadow hm .., coreEvent_sealed_shadow hm .., coreEvent_sealed_shadow hm ..,
      coreEvent_sealed_shadow hm .., coreEvent_sealed_shadow hm .., coreEvent_sealed_shadow hm .., coreEvent_sealed_shadow hm ..,
      coreEvent_sealed_shadow hm ..⟩

/-! ## The take of a descriptor (R53–R56, R59) -/

theorem State.ringSize_le (s : State) (n : Nat) : s.ringSize n ≤ 1024 := by
  have h : 2 ^ min 4 (s.get (R.ING_RING_CFG_SIZE n)) ≤ 2 ^ 4 := Nat.pow_le_pow_right (by decide) (Nat.min_le_left ..)
  unfold State.ringSize
  omega

section
variable {s t : State} (hstore : t.store = s.store) (hkept : RegsKept [R.BLT_STORE_STAT_FULL] s t)
include hkept

theorem ringSize_of_full (n : Nat) (hn : n < 4) : t.ringSize n = s.ringSize n := by
  unfold State.ringSize
  rw [hkept.get (by simp [Fld.key, R.ING_RING_CFG_SIZE, R.BLT_STORE_STAT_FULL]; omega)]

theorem ringWaits_of_full (n : Nat) (hn : n < 4) : t.ringWaits n = s.ringWaits n := by
  unfold State.ringWaits
  rw [ringSize_of_full hkept n hn, hkept.get (by simp [Fld.key, R.ING_RING_TAIL_TAIL, R.BLT_STORE_STAT_FULL]; omega),
    hkept.get (by simp [Fld.key, R.ING_RING_HEAD_HEAD, R.BLT_STORE_STAT_FULL]; omega)]

theorem ringDesc_of_full (n i : Nat) (hn : n < 4) : t.ringDesc n i = s.ringDesc n i := by
  have hle := s.ringSize_le n
  have hpos : 0 < s.ringSize n := by unfold State.ringSize; positivity
  unfold State.ringDesc
  rw [ringSize_of_full hkept n hn, hkept.get (by simp [Fld.key, R.ING_RING_HEAD_HEAD, R.BLT_STORE_STAT_FULL]; omega)]
  have hlt : (s.get (R.ING_RING_HEAD_HEAD n) + i) % s.ringSize n < s.ringSize n := Nat.mod_lt _ hpos
  refine State.bytesAt_congr fun j hj => hkept.get ?_
  simp [Fld.key, wordFld, R.BLT_STORE_STAT_FULL, ceilDiv] at hj ⊢
  omega

include hstore

theorem cqRingFull_of_full (n : Nat) (hn : n < 4) : t.cqRingFull n = s.cqRingFull n := by
  unfold State.cqRingFull
  rw [ringSize_of_full hkept n hn, hstore, hkept.get (by simp [Fld.key, R.ING_RING_CQDONE_DONE, R.BLT_STORE_STAT_FULL]; omega)]

theorem offered_of_full (n : Nat) (hn : n < 4) : t.offered n = s.offered n := by
  unfold State.offered State.bilReady
  rw [ringWaits_of_full hkept n hn, cqRingFull_of_full hstore hkept n hn, ringDesc_of_full hkept n 0 hn, hstore,
    hkept.flag (f := R.ING_RING_CFG_ENABLE n) (by simp [Fld.key, R.ING_RING_CFG_ENABLE, R.BLT_STORE_STAT_FULL]; omega),
    hkept.flag (f := R.MBX_UDP_CFG_INGEST) (by decide)]

theorem held_of_full (f : Flight) : t.held f = s.held f := by
  unfold State.held State.storeFull State.storeFree State.jobOf
  rw [hstore, hkept.get (f := R.DRC_STORE_MB_MB) (by decide), hkept.get (f := R.BLT_STORE_CFG_RUNAHEAD_BANDS) (by decide)]

theorem nextRing_of_full : t.nextRing = s.nextRing := by
  unfold State.nextRing
  rw [hstore]
  refine List.find?_congr fun n hn => ?_
  obtain ⟨i, -, rfl⟩ := List.mem_map.1 hn
  rw [offered_of_full hstore hkept _ (Nat.mod_lt _ (by decide))]
  split
  · rw [held_of_full hstore hkept]
  · rfl

end

theorem State.nextRing_lt {s : State} {n : Nat} (h : s.nextRing = some n) : n < 4 := by
  obtain ⟨i, -, rfl⟩ := List.mem_map.1 (List.mem_of_find?_eq_some h)
  exact Nat.mod_lt _ (by decide)

theorem State.reclaim_room {s : State} (h : s.storeFull = false) (fuel : Nat) : State.reclaim fuel s = s := by
  cases fuel with
  | zero => rfl
  | succ fuel =>
    unfold State.reclaim
    simp [h]

/-- A job that a descriptor of number `n` has been accepted for. -/
def Job.taken (n : Nat) (j : Job) : Job := if j.d.num = n then { j with accepted := true } else j

@[simp] theorem Job.taken_d (n : Nat) (j : Job) : (j.taken n).d = j.d := by unfold Job.taken; split <;> rfl
@[simp] theorem Job.taken_closed (n : Nat) (j : Job) : (j.taken n).closed = j.closed := by unfold Job.taken; split <;> rfl

/-- The index and the counts of a take (R53, R68). -/
def State.takeCounts (s : State) (n : Nat) : State :=
  let s := s.put (R.ING_RING_HEAD_HEAD n) ((s.get (R.ING_RING_HEAD_HEAD n) + 1) % s.ringSize n)
  (s.count R.ING_ACCEPTED_COUNT).put R.ING_INFLIGHT_COUNT (s.get R.ING_INFLIGHT_COUNT + 1)

/-- A descriptor of ring `n` taken: in flight, its job and its ring marked, the index and the counts moved. -/
def State.descTaken (s : State) (n : Nat) (f : Flight) : State :=
  ({ s with store := { s.store with
    flights := s.store.flights ++ [f], flightNo := s.store.flightNo + 1, lastRing := n
    cur := s.store.cur.map (Job.taken f.job), next := s.store.next.map (Job.taken f.job) } } : State).takeCounts n

theorem State.takeCounts_kept (s : State) (n : Nat) :
    RegsKept [R.ING_RING_HEAD_HEAD n, R.ING_ACCEPTED_COUNT, R.ING_INFLIGHT_COUNT] s (s.takeCounts n) :=
  (((RegsKept.refl _ s).put (by simp) _).count (by simp) 1).put (by simp) _

theorem State.takeCounts_rest (s : State) (n : Nat) : s.takeCounts n = { s with regs := (s.takeCounts n).regs } := by
  unfold State.takeCounts State.count State.put
  rfl

theorem State.takeCounts_counts (s : State) {n : Nat} (hn : n < 4) :
    (s.takeCounts n).get (R.ING_RING_HEAD_HEAD n) = (s.get (R.ING_RING_HEAD_HEAD n) + 1) % s.ringSize n % 2 ^ 10 ∧
      (s.takeCounts n).get R.ING_ACCEPTED_COUNT = (s.get R.ING_ACCEPTED_COUNT + 1) % 2 ^ 40 ∧
      (s.takeCounts n).get R.ING_INFLIGHT_COUNT = (s.get R.ING_INFLIGHT_COUNT + 1) % 2 ^ 16 := by
  have h1 : (R.ING_RING_HEAD_HEAD n).key ≠ R.ING_ACCEPTED_COUNT.key := by simp only [Fld.key, R.ING_RING_HEAD_HEAD, R.ING_ACCEPTED_COUNT]; omega
  have h2 : (R.ING_RING_HEAD_HEAD n).key ≠ R.ING_INFLIGHT_COUNT.key := by simp only [Fld.key, R.ING_RING_HEAD_HEAD, R.ING_INFLIGHT_COUNT]; omega
  have h3 : R.ING_ACCEPTED_COUNT.key ≠ R.ING_INFLIGHT_COUNT.key := by decide
  unfold State.takeCounts State.count
  dsimp only
  refine ⟨?_, ?_, ?_⟩
  · rw [State.get_put_ne _ _ h2, State.get_put_ne _ _ h1, State.get_put_self]; rfl
  · rw [State.get_put_ne _ _ h3, State.get_put_self, State.get_put_ne _ _ h1.symm]; rfl
  · rw [State.get_put_self, State.get_put_ne _ _ h2.symm]; rfl

/-- The checks of Table 3.2 do not see the take itself. -/
theorem State.checksTaken_descTaken {s u : State} {n : Nat} (hn : n < 4) (hu : u = { s with regs := u.regs })
    (hk : RegsKept [R.BLT_STORE_STAT_FULL] s u) (f g : Flight) (b : List Nat) :
    (u.descTaken n f).checksTaken g b = s.checksTaken g b := by
  have hrest := State.takeCounts_rest { u with store := { u.store with
    flights := u.store.flights ++ [f], flightNo := u.store.flightNo + 1, lastRing := n
    cur := u.store.cur.map (Job.taken f.job), next := u.store.next.map (Job.taken f.job) } } n
  change u.descTaken n f = _ at hrest
  have hkept := (hk.mono (gs := [R.BLT_STORE_STAT_FULL, R.ING_RING_HEAD_HEAD n, R.ING_ACCEPTED_COUNT, R.ING_INFLIGHT_COUNT]) (by simp)).trans
    ((State.takeCounts_kept { u with store := { u.store with
      flights := u.store.flights ++ [f], flightNo := u.store.flightNo + 1, lastRing := n
      cur := u.store.cur.map (Job.taken f.job), next := u.store.next.map (Job.taken f.job) } } n).mono (by simp))
  change RegsKept _ s (u.descTaken n f) at hkept
  generalize u.descTaken n f = v at hrest hkept
  rw [hu] at hrest
  have hjob : v.jobOf g.job = (s.jobOf g.job).map (Job.taken f.job) := by
    unfold State.jobOf
    rw [hrest]
    have hnext : (s.store.next.map (Job.taken f.job)).filter (fun (k : Job) => k.d.num == g.job)
        = (s.store.next.filter (fun (k : Job) => k.d.num == g.job)).map (Job.taken f.job) := by
      cases s.store.next with
      | none => rfl
      | some k =>
        simp only [Option.map_some, Option.filter_some, Job.taken_d]
        split <;> rfl
    cases s.store.cur with
    | none => exact hnext
    | some j =>
      simp only [Option.map_some, Job.taken_d, Job.taken_closed]
      rw [hnext]
      split_ifs <;> rfl
  have hcur : v.curJob = s.curJob := by
    unfold State.curJob
    rw [hrest]
    cases s.store.cur <;> simp
  have hskew : v.get (R.BLT_SKEW_OFFSET (g.col / 8)) = s.get (R.BLT_SKEW_OFFSET (g.col / 8)) := hkept.get (by
    simp [Fld.key, R.BLT_SKEW_OFFSET, R.BLT_STORE_STAT_FULL, R.ING_RING_HEAD_HEAD, R.ING_ACCEPTED_COUNT, R.ING_INFLIGHT_COUNT]; omega)
  have hlate : v.tooLate g = s.tooLate g := by
    unfold State.tooLate State.encArmed
    dsimp only
    rw [hcur, hskew, hrest]
  have hports : v.nPorts = s.nPorts := by rw [hrest]; rfl
  have henabled : v.portEnabled (g.col / 8) = s.portEnabled (g.col / 8) := by rw [hrest]; rfl
  unfold State.checksTaken
  dsimp only
  rw [hjob, hlate, hports, henabled]
  cases s.jobOf g.job with
  | none => rfl
  | some j => simp only [Option.map_some, Job.taken_d]

/-- What showing whether the store is full changes. -/
theorem State.showFull_kept (s : State) :
    RegsKept [R.BLT_STORE_STAT_FULL] s s.showFull ∧ s.showFull = { s with regs := s.showFull.regs } := by
  unfold State.showFull
  generalize b2n s.storeFull = v
  exact ⟨(RegsKept.refl _ s).put (by simp) v, rfl⟩

/-- The take of a descriptor of ring `n` (the body of `descTake`). -/
def State.takeRecord (s : State) (n : Nat) (b : List Nat) (asm : Option BilAsm) : State :=
  let f := mkFlight s.store.flightNo n asm.isSome b
  let s := s.addFlight f
  let s := { s with store := { s.store with
    lastRing := n
    bils := match asm with | some a => s.store.bils.erase a | none => s.store.bils
    cur := s.store.cur.map (fun (j : Job) => if j.d.num = f.job then { j with accepted := true } else j)
    next := s.store.next.map (fun (j : Job) => if j.d.num = f.job then { j with accepted := true } else j) } }
  let s := if asm.isSome then s
    else s.put (R.ING_RING_HEAD_HEAD n) ((s.get (R.ING_RING_HEAD_HEAD n) + 1) % s.ringSize n)
  let s := (s.count R.ING_ACCEPTED_COUNT).put R.ING_INFLIGHT_COUNT (s.get R.ING_INFLIGHT_COUNT + 1)
  let st := s.checksTaken f b
  if st ≠ 0 then s.flightEnd f.id st 0 0
  else if bit f.flags 0 then s.flightStored f.id
  else
    match asm with
    | some a => s.billetRead f a.bytes
    | none => s.emit (.hostRead f.addr f.len)

/-- The take from the ring whose turn it is, of what that ring offers (the end of `descTake`). -/
def State.takeFrom (s : State) (ring : Option Nat) (offer : Nat → Option (List Nat × Option BilAsm)) : State :=
  match ring with
  | none => s
  | some n =>
    match offer n with
    | none => s
    | some (b, asm) => s.takeRecord n b asm

theorem State.takeFrom_some (s : State) {n : Nat} {offer : Nat → Option (List Nat × Option BilAsm)} {b : List Nat}
    {asm : Option BilAsm} (h : offer n = some (b, asm)) : s.takeFrom (some n) offer = s.takeRecord n b asm := by
  simp only [State.takeFrom, h]

theorem State.descTake_room {s : State} (hm : s.mode = .idle ∨ s.mode = .print) (hhot : s.flag R.BLT_STORE_STAT_HOT_HOLD = false)
    (hparted : s.acct.parted.any (fun (u : PartedUnit) => u.src == 27) = false) (hfull : s.storeFull = false) :
    s.descTake = s.showFull.takeFrom s.showFull.nextRing s.showFull.offered := by
  have hroom : (if (List.range 4).any (fun (n : Nat) => (s.offered n).isSome) then State.reclaim s.store.billets.length s else s) = s := by
    rw [State.reclaim_room hfull, ite_self]
  unfold State.descTake
  rw [if_neg (by simp [hm, hhot, hparted])]
  generalize (if (List.range 4).any (fun (n : Nat) => (s.offered n).isSome) then State.reclaim s.store.billets.length s else s) = r at *
  subst hroom
  generalize State.showFull = showFull
  -- the kernel, too, is to see an opaque function here: `id` keeps the abstraction in the proof term
  revert showFull
  refine id fun showFull => ?_
  rfl

theorem State.takeRecord_asked {u : State} {n : Nat} {b : List Nat} (hread : bit (field b 10 2) 0 = false)
    (hchk : (u.descTaken n (mkFlight u.store.flightNo n false b)).checksTaken (mkFlight u.store.flightNo n false b) b = 0) :
    u.takeRecord n b none
      = (u.descTaken n (mkFlight u.store.flightNo n false b)).emit (.hostRead (field b 0 8) (field b 8 2)) := by
  unfold State.takeRecord
  extract_lets f v v1 v2 v3 v4 st
  have hv : v4 = u.descTaken n f := rfl
  have hst : st = 0 := (congrArg (fun v => State.checksTaken v f b) hv).trans hchk
  rw [if_neg (not_not.2 hst), if_neg (by simp [f, mkFlight, hread])]
  exact congrArg (State.emit · _) hv

/-- A descriptor that passes its checks is taken, and its billet asked for. -/
theorem State.descTake_eq {s : State} {n : Nat} {b : List Nat} (hm : s.mode = .idle ∨ s.mode = .print)
    (hhot : s.flag R.BLT_STORE_STAT_HOT_HOLD = false) (hparted : s.acct.parted.any (fun (u : PartedUnit) => u.src == 27) = false)
    (hfull : s.storeFull = false) (hnext : s.nextRing = some n) (hoff : s.offered n = some (b, none))
    (hchk : s.checksTaken (mkFlight s.store.flightNo n false b) b = 0) (hread : bit (field b 10 2) 0 = false) :
    s.descTake = (s.showFull.descTaken n (mkFlight s.store.flightNo n false b)).emit (.hostRead (field b 0 8) (field b 8 2)) := by
  have hn := State.nextRing_lt hnext
  obtain ⟨hkept, hrest⟩ := s.showFull_kept
  have hstore : s.showFull.store = s.store := by rw [hrest]
  have hchecks := State.checksTaken_descTaken hn hrest hkept (mkFlight s.store.flightNo n false b) (mkFlight s.store.flightNo n false b) b
  rw [hchk] at hchecks
  rw [State.descTake_room hm hhot hparted hfull, (nextRing_of_full hstore hkept).trans hnext,
    State.takeFrom_some _ ((offered_of_full hstore hkept n hn).trans hoff)]
  generalize s.showFull = u at *
  rw [← hstore] at hchecks ⊢
  exact State.takeRecord_asked hread hchecks

/-- What a descriptor taken while the register of the full store is shown changes. -/
theorem State.descTaken_full {s u : State} {n : Nat} (hn : n < 4) (hk : RegsKept [R.BLT_STORE_STAT_FULL] s u) (hstore : u.store = s.store)
    (f : Flight) :
    (u.descTaken n f).get (R.ING_RING_HEAD_HEAD n) = (s.get (R.ING_RING_HEAD_HEAD n) + 1) % s.ringSize n % 2 ^ 10 ∧
      (u.descTaken n f).get R.ING_ACCEPTED_COUNT = (s.get R.ING_ACCEPTED_COUNT + 1) % 2 ^ 40 ∧
      (u.descTaken n f).get R.ING_INFLIGHT_COUNT = (s.get R.ING_INFLIGHT_COUNT + 1) % 2 ^ 16 ∧
      (u.descTaken n f).store.flights = s.store.flights ++ [f] ∧ (u.descTaken n f).out = u.out ∧
      RegsKept [R.ING_RING_HEAD_HEAD n, R.ING_ACCEPTED_COUNT, R.ING_INFLIGHT_COUNT, R.BLT_STORE_STAT_FULL] s (u.descTaken n f) ∧
      (u.descTaken n f).aon = u.aon ∧ (u.descTaken n f).pending = u.pending := by
  have hsize := ringSize_of_full hk n hn
  have hhead := hk.get (f := R.ING_RING_HEAD_HEAD n) (by simp [Fld.key, R.ING_RING_HEAD_HEAD, R.BLT_STORE_STAT_FULL]; omega)
  have hacc := hk.get (f := R.ING_ACCEPTED_COUNT) (by decide)
  have hinf := hk.get (f := R.ING_INFLIGHT_COUNT) (by decide)
  unfold State.descTaken
  generalize hw : ({ u with store := _ } : State) = w
  have hregs : w.regs = u.regs := by rw [← hw]
  have hflights : w.store.flights = s.store.flights ++ [f] := by rw [← hw, ← hstore]
  have hrest : w.out = u.out ∧ w.aon = u.aon ∧ w.pending = u.pending := by rw [← hw]; exact ⟨rfl, rfl, rfl⟩
  have hcount := State.takeCounts_counts w hn
  rw [State.get_congr hregs, State.get_congr hregs, State.get_congr hregs, hhead, hacc, hinf] at hcount
  have hsizew : w.ringSize n = u.ringSize n := by unfold State.ringSize; rw [State.get_congr hregs]
  rw [hsizew, hsize] at hcount
  obtain ⟨h1, h2, h3⟩ := hcount
  have hkept := w.takeCounts_kept n
  have htaken := w.takeCounts_rest n
  generalize w.takeCounts n = v at *
  refine ⟨h1, h2, h3, ?_, ?_, (((hk.trans (.of_regs hregs)).mono (by simp)).trans (hkept.mono (by simp))), ?_, ?_⟩ <;> rw [htaken]
  exacts [hflights, hrest.1, hrest.2.1, hrest.2.2]

/-- Settles O23: the doorbell of a ring, and the take by its checks in order. -/
theorem descriptorRings : Obligations.DescriptorRings := by
  unfold Obligations.DescriptorRings
  refine ⟨fun s n v hr hn hudp => ?_, fun s v hr hudp => ?_, fun s hr hm => ?_,
    fun s n b hr hm hhot hparted hfull hnext hoff hchk hread => ?_⟩
  · have hk : s.ingDoorbell n v = (s.put (R.ING_RING_TAIL_TAIL n) v).put (R.MBX_INGDB_TAIL n) v := by
      refine if_neg ?_
      rintro (h | ⟨h, h'⟩)
      · omega
      · simp [hudp h] at h'
    refine ⟨_, (show execIngRingDoorbell n v s = _ from coreEvent_next hr hk rfl rfl), ?_, State.get_put_self .., ?_, rfl⟩
    · rw [State.get_put_ne _ _ (by simp only [Fld.key, R.ING_RING_TAIL_TAIL, R.MBX_INGDB_TAIL]; omega)]
      exact State.get_put_self ..
    · exact ((RegsKept.refl _ s).put (by simp) v).put (by simp) v
  · refine show execIngRingDoorbell 3 v s = _ from coreEvent_of_noop fun _ => ?_
    unfold State.ingDoorbell
    rw [if_pos (Or.inr ⟨rfl, hudp⟩)]; rfl
  · refine coreEvent_of_noop fun _ => ?_
    refine congrArg (State.framed s) (if_pos ?_) |>.trans s.framed_self
    rcases hm with ⟨h1, h2⟩ | h
    · simp [h1, h2]
    · simp [h]
  · have htake := State.descTake_eq hm hhot hparted hfull hnext hoff hchk hread
    generalize hf : mkFlight s.store.flightNo n false b = f at *
    have hn := State.nextRing_lt hnext
    obtain ⟨hfullKept, hshown⟩ := s.showFull_kept
    have hstore : s.showFull.store = s.store ∧ s.showFull.out = s.out ∧ s.showFull.aon = s.aon ∧ s.showFull.pending = s.pending := by
      rw [hshown]; exact ⟨rfl, rfl, rfl, rfl⟩
    generalize s.showFull = u at *
    obtain ⟨hstore, hout, haon, hpending⟩ := hstore
    obtain ⟨hhead, hacc, hinf, hflights, houtv, hk, hrest⟩ := State.descTaken_full hn hfullKept hstore f
    generalize u.descTaken n f = v at *
    refine ⟨_, (show execDescriptorTake s = _ from coreEvent_next hr htake ((State.emit_aon ..).trans (hrest.1.trans haon))
        ((State.emit_pending ..).trans (hrest.2.trans hpending))),
      (State.emit_get ..).trans hhead, (State.emit_get ..).trans hacc, (State.emit_get ..).trans hinf, ?_, ?_,
      hk.trans (.of_regs (State.emit_regs ..))⟩
    · rw [State.emit_store]; exact hflights
    · rw [State.emit_out, houtv, hout]

end Sys2Proof.Machine

/-! Skew, the overlap table and the grain-map commits (R62, R63, R96, R97, R103). -/

namespace Sys2Proof.Machine

theorem State.nPorts_le (s : State) : s.nPorts ≤ 24 := by unfold State.nPorts; split <;> omega

/-- What a write of BLT_SKEW_PEND_p leaves before ARM is looked at. -/
def State.skewOffered (s : State) (p v : Nat) : State :=
  (if bit v 30 then s.put (R.BLT_SKEW_PEND_REFUSED p) 0 else s).put (R.BLT_SKEW_PEND_OFFSET p) v

theorem State.skewOffered_kept (s : State) (p v : Nat) :
    RegsKept [R.BLT_SKEW_PEND_REFUSED p, R.BLT_SKEW_PEND_OFFSET p] s (s.skewOffered p v) :=
  (((RegsKept.refl _ s).put (by simp) 0).ite (RegsKept.refl _ s)).put (by simp) v

theorem State.skewOffered_rest (s : State) (p v : Nat) : s.skewOffered p v = { s with regs := (s.skewOffered p v).regs } := by
  unfold State.skewOffered
  split <;> rfl

theorem State.skewRefusal_of {s u : State} {p : Nat} (hrest : u = { s with regs := u.regs })
    (h : u.get (R.BLT_SKEW_OFFSET p) = s.get (R.BLT_SKEW_OFFSET p)) (off : Nat) : u.skewRefusal p off = s.skewRefusal p off := by
  have henabled : u.portEnabled p = s.portEnabled p := by rw [hrest]; rfl
  unfold State.skewRefusal
  rw [h, henabled]

/-- A change offered with ARM in PRINT, no other being armed (R63). -/
theorem State.skewPendOpen_arm {s : State} {p v : Nat} (hm : s.mode = .print) (hp : p < s.nPorts)
    (ha : s.flag (R.BLT_SKEW_PEND_ARM p) = false) (hv : bit v 31 = true) :
    s.skewPendOpen p v = (s.skewOffered p v).skewArm p (v % 2 ^ 14) (s.get (R.BLT_SKEW_AT_LINE p)) := by
  have hkept := s.skewOffered_kept p v
  have hmode : (s.skewOffered p v).mode = .print := by rw [s.skewOffered_rest]; exact hm
  have hoff : (s.skewOffered p v).get (R.BLT_SKEW_PEND_OFFSET p) = v % 2 ^ 14 := State.get_put_self ..
  have hn := s.nPorts_le
  have hat : (s.skewOffered p v).get (R.BLT_SKEW_AT_LINE p) = s.get (R.BLT_SKEW_AT_LINE p) :=
    hkept.get (by simp [Fld.key, R.BLT_SKEW_AT_LINE, R.BLT_SKEW_PEND_REFUSED, R.BLT_SKEW_PEND_OFFSET]; omega)
  unfold State.skewPendOpen
  rw [if_neg (by simp [hm]; omega)]
  extract_lets armed u w
  change (if s.flag (R.BLT_SKEW_PEND_ARM p) = true then u else
    if (bit v 31 && (s.skewOffered p v).mode == .print) = true then
      (s.skewOffered p v).skewArm p ((s.skewOffered p v).get (R.BLT_SKEW_PEND_OFFSET p)) ((s.skewOffered p v).get (R.BLT_SKEW_AT_LINE p))
    else s.skewOffered p v) = _
  rw [ha, if_neg (by simp), hv, hmode, if_pos (by decide), hoff, hat]

theorem outside_ovl {e : Nat} (h : e < 4096) : outside (R.SPN_OVL_NOZ_A e).key ∧ outside (R.SPN_OVL_NOZ_B e).key ∧
    outside (R.SPN_OVL_PORT e).key ∧ outside (R.SPN_OVL_VALID e).key := by
  simp only [outside, Fld.key, R.SPN_OVL_NOZ_A, R.SPN_OVL_NOZ_B, R.SPN_OVL_PORT, R.SPN_OVL_VALID]
  omega

/-- The four fields of an entry of the overlap table as written. -/
def State.ovlSet (s : State) (e v : Nat) : State :=
  (((s.put (R.SPN_OVL_NOZ_A e) v).put (R.SPN_OVL_NOZ_B e) (v / 2 ^ 13)).put (R.SPN_OVL_PORT e) (v / 2 ^ 26)).put (R.SPN_OVL_VALID e) (v / 2 ^ 31)

theorem State.ovlSet_shown (s : State) (e v : Nat) :
    (s.ovlSet e v).get (R.SPN_OVL_NOZ_A e) = v % 2 ^ 13 ∧ (s.ovlSet e v).get (R.SPN_OVL_NOZ_B e) = v / 2 ^ 13 % 2 ^ 13 ∧
      (s.ovlSet e v).get (R.SPN_OVL_PORT e) = v / 2 ^ 26 % 2 ^ 5 ∧ (s.ovlSet e v).get (R.SPN_OVL_VALID e) = v / 2 ^ 31 % 2 := by
  unfold State.ovlSet
  have hab : (R.SPN_OVL_NOZ_A e).key ≠ (R.SPN_OVL_NOZ_B e).key := by simp only [Fld.key, R.SPN_OVL_NOZ_A, R.SPN_OVL_NOZ_B]; omega
  have hap : (R.SPN_OVL_NOZ_A e).key ≠ (R.SPN_OVL_PORT e).key := by simp only [Fld.key, R.SPN_OVL_NOZ_A, R.SPN_OVL_PORT]; omega
  have hav : (R.SPN_OVL_NOZ_A e).key ≠ (R.SPN_OVL_VALID e).key := by simp only [Fld.key, R.SPN_OVL_NOZ_A, R.SPN_OVL_VALID]; omega
  have hbp : (R.SPN_OVL_NOZ_B e).key ≠ (R.SPN_OVL_PORT e).key := by simp only [Fld.key, R.SPN_OVL_NOZ_B, R.SPN_OVL_PORT]; omega
  have hbv : (R.SPN_OVL_NOZ_B e).key ≠ (R.SPN_OVL_VALID e).key := by simp only [Fld.key, R.SPN_OVL_NOZ_B, R.SPN_OVL_VALID]; omega
  have hpv : (R.SPN_OVL_PORT e).key ≠ (R.SPN_OVL_VALID e).key := by simp only [Fld.key, R.SPN_OVL_PORT, R.SPN_OVL_VALID]; omega
  refine ⟨?_, ?_, ?_, ?_⟩
  · rw [State.get_put_ne _ _ hav, State.get_put_ne _ _ hap, State.get_put_ne _ _ hab, State.get_put_self]; rfl
  · rw [State.get_put_ne _ _ hbv, State.get_put_ne _ _ hbp, State.get_put_self]; rfl
  · rw [State.get_put_ne _ _ hpv, State.get_put_self]; rfl
  · rw [State.get_put_self]; rfl

/-- An entry written in IDLE (R103). -/
theorem State.ovlPut_kept {s : State} {e : Nat} (hm : s.mode = .idle) (he : e < 4096) (v : Nat) :
    RegsKeptOutside [R.SPN_STAT_OVL_DUP] (s.ovlSet e v) (s.ovlPut e v) := by
  unfold State.ovlPut
  rw [if_neg (by simp [hm]; omega)]
  exact ((RegsKeptOutside.refl _ (s.ovlSet e v)).raise (by simp) _).ite (RegsKeptOutside.refl _ _)

/-- The registers of a commit as written (R96). -/
def State.commitAsked (s : State) (v : Nat) : State := (s.put R.GMP_COMMIT_COUNT v).put R.GMP_COMMIT_ASAP (v / 2 ^ 13)

theorem State.commitAsked_kept (s : State) (v : Nat) : RegsKept [R.GMP_COMMIT_COUNT, R.GMP_COMMIT_ASAP] s (s.commitAsked v) :=
  ((RegsKept.refl _ s).put (by simp) v).put (by simp) _

theorem State.gmpCommit_go {s : State} {v : Nat} (hb : s.flag R.GMP_CSTAT_BUSY = false) (hv : bit v 31 = true) :
    s.gmpCommit v = ((s.commitAsked v).commitGo ((s.commitAsked v).changeList (min (v % 2 ^ 13) 4096)) (v % 2 ^ 13)
      (if (s.commitAsked v).flag R.GMP_COMMIT_ASAP then none else some (s.get R.GMP_COMMIT_AT_LINE))).1.logClose := by
  have hcount : (s.commitAsked v).get R.GMP_COMMIT_COUNT = v % 2 ^ 13 := by
    unfold State.commitAsked
    rw [State.get_put_ne _ _ (by decide), State.get_put_self]; rfl
  have hat : (s.commitAsked v).get R.GMP_COMMIT_AT_LINE = s.get R.GMP_COMMIT_AT_LINE := (s.commitAsked_kept v).get (by decide)
  unfold State.gmpCommit
  rw [if_neg (by simp [hb])]
  refine (if_pos hv).trans ?_
  rw [← hcount, ← hat]
  rfl

/-- The cause and index of a refused commit, shown with REFUSED (R97). -/
def State.commitRefused (s : State) (cause i : Nat) : State :=
  ((s.put R.GMP_CSTAT_CAUSE cause).put R.GMP_CSTAT_INDEX i).raise R.GMP_CSTAT_REFUSED srcGMP

theorem State.commitGo_refused {s : State} {recs : List (List Nat)} {count cause i : Nat} (h : s.commitRefusal count recs = some (cause, i))
    (line : Option Nat) : (s.commitGo recs count line).1 = s.commitRefused cause i := by
  unfold State.commitGo
  rw [h]; rfl

theorem State.commitGo_accepted {s : State} {recs : List (List Nat)} {count : Nat} (h : s.commitRefusal count recs = none)
    (line : Option Nat) :
    s.commitGo recs count line = ((s.put R.GMP_CSTAT_CAUSE 0).put R.GMP_CSTAT_INDEX 0).commitIn (recs.map grecOf) line := by
  unfold State.commitGo
  rw [h]

theorem State.commitRefused_shown (s : State) (cause i : Nat) :
    (s.commitRefused cause i).flag R.GMP_CSTAT_REFUSED = true ∧
      (s.commitRefused cause i).get R.GMP_CSTAT_CAUSE = cause % 2 ^ R.GMP_CSTAT_CAUSE.width ∧
      (s.commitRefused cause i).get R.GMP_CSTAT_INDEX = i % 2 ^ R.GMP_CSTAT_INDEX.width := by
  unfold State.commitRefused
  refine ⟨State.raise_flag _ (outside_of rfl) (by decide), ?_, ?_⟩
  · rw [State.raise_get _ (outside_of rfl) (by decide), State.get_put_ne _ _ (by decide), State.get_put_self]
  · rw [State.raise_get _ (outside_of rfl) (by decide), State.get_put_self]

theorem State.commitRefused_kept (s : State) (cause i : Nat) :
    RegsKeptOutside [R.GMP_CSTAT_REFUSED, R.GMP_CSTAT_CAUSE, R.GMP_CSTAT_INDEX] s (s.commitRefused cause i) :=
  (((RegsKeptOutside.refl _ s).put (by simp) cause).put (by simp) i).raise (by simp) _

/-- Settles O26: skew and overlap by mode, and a commit by the first rule it breaks. -/
theorem skewOverlapAndGrain : Obligations.SkewOverlapAndGrain := by
  unfold Obligations.SkewOverlapAndGrain
  refine ⟨fun s p v hr hm hp => ?_, fun s p v hr hm => ?_, fun s p v hr hm hp ha hv => ?_, fun s e v hr hm he => ?_,
    fun s v hr hb => ?_, fun s v hr hb => ?_⟩
  · have hn := s.nPorts_le
    have hlog := State.sealedWrite_logged (s := s) (by simp [hm]) [(0x40301000 + 4 * p, v)] (fun s => s.skewPut p v)
    have hput : s.skewPut p v = ((s.put (R.BLT_SKEW_OFFSET p) v).put (R.BLT_SKEW_SUBLINE p) (v / 2 ^ 16)).count R.BLT_SKEW_GEN_GEN :=
      if_neg (by simp [hm]; omega)
    have hOS : (R.BLT_SKEW_OFFSET p).key ≠ (R.BLT_SKEW_SUBLINE p).key := by simp only [Fld.key, R.BLT_SKEW_OFFSET, R.BLT_SKEW_SUBLINE]; omega
    have hOG : (R.BLT_SKEW_OFFSET p).key ≠ R.BLT_SKEW_GEN_GEN.key := by simp only [Fld.key, R.BLT_SKEW_OFFSET, R.BLT_SKEW_GEN_GEN]; omega
    have hSG : (R.BLT_SKEW_SUBLINE p).key ≠ R.BLT_SKEW_GEN_GEN.key := by simp only [Fld.key, R.BLT_SKEW_GEN_GEN, R.BLT_SKEW_SUBLINE]; omega
    have hlogged := (RegsKept.refl [R.TSL_LOG_TX_OFF] _).logged (by simp) hlog
    rw [hput] at hlogged
    refine ⟨_, (show execSkewWrite p v s = _ from coreEvent_framed hr _), ?_, ?_, ?_, ?_⟩
    · rw [State.get_framed, hlogged.get (by simp [Fld.key, R.BLT_SKEW_OFFSET, R.TSL_LOG_TX_OFF]; omega), State.count,
        State.get_put_ne _ _ hOG, State.get_put_ne _ _ hOS, State.get_put_self]; rfl
    · rw [State.get_framed, hlogged.get (by simp [Fld.key, R.BLT_SKEW_SUBLINE, R.TSL_LOG_TX_OFF]; omega), State.count,
        State.get_put_ne _ _ hSG, State.get_put_self]; rfl
    · rw [State.get_framed, hlogged.get (by decide), State.count, State.get_put_self, State.get_put_ne _ _ hSG.symm,
        State.get_put_ne _ _ hOG.symm]; rfl
    · exact (((((RegsKept.refl _ s).put (by simp) v).put (f := R.BLT_SKEW_SUBLINE p) (by simp) (v / 2 ^ 16)).count
        (f := R.BLT_SKEW_GEN_GEN) (by simp) 1).trans (hlogged.mono (by simp))).framed
  · by_cases hs : s.mode = .shadow
    · exact ⟨s, coreEvent_sealed_shadow hs .., .refl _ s⟩
    · have hlog := State.sealedWrite_logged hs [(0x40301000 + 4 * p, v)] (fun s => s.skewPut p v)
      have hput : s.skewPut p v = s := if_pos (Or.inl hm)
      rw [hput] at hlog
      exact ⟨_, (show execSkewWrite p v s = _ from coreEvent_framed hr _), ((RegsKept.refl _ s).logged (by simp) hlog).framed⟩
  · have hn := s.nPorts_le
    have hopen := State.skewPendOpen_arm hm hp ha hv
    have hkept := s.skewOffered_kept p v
    have hrest := s.skewOffered_rest p v
    have hrefusal := State.skewRefusal_of (p := p) hrest
      (hkept.get (by simp [Fld.key, R.BLT_SKEW_OFFSET, R.BLT_SKEW_PEND_REFUSED, R.BLT_SKEW_PEND_OFFSET]; omega)) (v % 2 ^ 14)
    have hfirst : (s.skewOffered p v).firstLine = s.firstLine := by rw [hrest]; rfl
    have harm : (s.skewOffered p v).flag (R.BLT_SKEW_PEND_ARM p) = false := (hkept.flag (by
      simp [Fld.key, R.BLT_SKEW_PEND_ARM, R.BLT_SKEW_PEND_REFUSED, R.BLT_SKEW_PEND_OFFSET])).trans ha
    have hdo : s.skewPend p v = ((s.skewOffered p v).skewArm p (v % 2 ^ 14) (s.get (R.BLT_SKEW_AT_LINE p))).logClose :=
      congrArg State.logClose hopen
    dsimp only
    change (_ → ∃ t, _) ∧ (_ → exec (.skewArm p v) s = .next (s.framed ((((s.skewOffered p v).skewArmed p (v % 2 ^ 14) _).logAdd 0x04
      ((s.skewOffered p v).effOf _) 0 _).logClose)))
    have hpath : (s.skewOffered p v).path = s.path := by rw [hrest]
    unfold State.skewArm at hdo
    rw [hrefusal] at hdo
    generalize s.skewOffered p v = u at *
    refine ⟨fun h => ?_, fun h => ?_⟩
    · rw [if_pos h] at hdo
      have hlog := (u.put (R.BLT_SKEW_PEND_REFUSED p) 1).logClose_logged
      have hlogged := (RegsKept.refl [R.TSL_LOG_TX_OFF] _).logged (by simp) hlog
      refine ⟨_, (show execSkewArm p v s = _ from coreEvent_eq hr hdo), ?_, ?_, ?_, ?_⟩
      · rw [State.flag_framed, hlogged.flag (by simp [Fld.key, R.BLT_SKEW_PEND_REFUSED, R.TSL_LOG_TX_OFF]; omega)]
        exact State.flag_put_self _ rfl 1
      · rw [State.flag_framed, hlogged.flag (by simp [Fld.key, R.BLT_SKEW_PEND_ARM, R.TSL_LOG_TX_OFF]; omega),
          State.flag_put_ne _ _ (by simp [Fld.key, R.BLT_SKEW_PEND_ARM, R.BLT_SKEW_PEND_REFUSED]), harm]
      · show (State.logClose _).path = _
        rw [hlog.rest]; exact hpath
      · exact (((hkept.mono (by simp)).put (f := R.BLT_SKEW_PEND_REFUSED p) (by simp) 1).logged (by simp) hlog).framed
    · rw [if_neg (not_not.2 h)] at hdo
      dsimp only at hdo
      rw [hfirst] at hdo
      exact show execSkewArm p v s = _ from coreEvent_eq hr hdo
  · have hlog := State.sealedWrite_logged (s := s) (by simp [hm]) [(0x40404000 + 4 * e, v)] (fun s => s.ovlPut e v)
    obtain ⟨hA, hB, hP, hV⟩ := s.ovlSet_shown e v
    obtain ⟨oA, oB, oP, oV⟩ := outside_ovl he
    have hset : RegsKeptOutside [R.SPN_STAT_OVL_DUP, R.TSL_LOG_TX_OFF] (s.ovlSet e v)
        (s.framed (s.sealedWrite [(0x40404000 + 4 * e, v)] (fun s => s.ovlPut e v))) :=
      (((State.ovlPut_kept hm he v).mono (by simp)).logged (by simp) hlog).framed
    refine ⟨_, (show execOvlWrite e v s = _ from coreEvent_framed hr _), ?_, ?_, ?_, ?_, ?_⟩
    · rw [← hA]
      exact hset _ oA (by simp [Fld.key, R.SPN_OVL_NOZ_A, R.SPN_STAT_OVL_DUP, R.TSL_LOG_TX_OFF]; omega)
    · rw [← hB]
      exact hset _ oB (by simp [Fld.key, R.SPN_OVL_NOZ_B, R.SPN_STAT_OVL_DUP, R.TSL_LOG_TX_OFF]; omega)
    · rw [← hP]
      exact hset _ oP (by simp [Fld.key, R.SPN_OVL_PORT, R.SPN_STAT_OVL_DUP, R.TSL_LOG_TX_OFF]; omega)
    · rw [← hV]
      exact hset _ oV (by simp [Fld.key, R.SPN_OVL_VALID, R.SPN_STAT_OVL_DUP, R.TSL_LOG_TX_OFF]; omega)
    · exact (((((RegsKeptOutside.refl _ s).put (by simp) v).put (by simp) (v / 2 ^ 13)).put (by simp) (v / 2 ^ 26)).put (by simp)
        (v / 2 ^ 31)).trans (hset.mono (by simp))
  · exact show execCommitGo v s = _ from coreEvent_next hr (if_pos hb) rfl rfl
  · dsimp only
    change (_ → exec (.commitGo v) s = .next (s.commitAsked v)) ∧
      (∀ cause i, _ → (s.commitAsked v).commitRefusal _ ((s.commitAsked v).changeList _) = _ → _) ∧
      (_ → (s.commitAsked v).commitRefusal _ ((s.commitAsked v).changeList _) = _ → exec (.commitGo v) s =
        .next (s.framed ((((s.commitAsked v).put R.GMP_CSTAT_CAUSE 0).put R.GMP_CSTAT_INDEX 0).commitIn
          (((s.commitAsked v).changeList _).map grecOf) (if (s.commitAsked v).flag R.GMP_COMMIT_ASAP then none
            else some (s.get R.GMP_COMMIT_AT_LINE))).1.logClose))
    refine ⟨fun hv => ?_, fun cause i hv href => ?_, fun hv href => ?_⟩
    · have hdo : s.gmpCommit v = s.commitAsked v := by
        unfold State.gmpCommit
        rw [if_neg (by simp [hb])]
        exact if_neg (by rw [show R.GMP_COMMIT_GO.lsb = 31 from rfl, hv]; decide)
      exact show execCommitGo v s = _ from coreEvent_next hr hdo rfl rfl
    · have hdo := State.gmpCommit_go hb hv
      rw [State.commitGo_refused href] at hdo
      obtain ⟨hflag, hcause, hindex⟩ := (s.commitAsked v).commitRefused_shown cause i
      have hkept := ((s.commitAsked_kept v).outside.mono (gs := [R.GMP_CSTAT_REFUSED, R.GMP_CSTAT_CAUSE, R.GMP_CSTAT_INDEX,
        R.GMP_COMMIT_COUNT, R.GMP_COMMIT_ASAP, R.TSL_LOG_TX_OFF]) (by simp)).trans
        (((s.commitAsked v).commitRefused_kept cause i).mono (by simp))
      have hpath : ((s.commitAsked v).commitRefused cause i).path = s.path := by
        unfold State.commitRefused
        rw [State.raise_rest]; rfl
      generalize (s.commitAsked v).commitRefused cause i = u at *
      have hlog := u.logClose_logged
      have hlogged := (RegsKept.refl [R.TSL_LOG_TX_OFF] _).logged (by simp) hlog
      refine ⟨_, (show execCommitGo v s = _ from coreEvent_eq hr hdo), ?_, ?_, ?_, ?_, ?_⟩
      · exact (hlogged.flag (by decide)).trans hflag
      · exact (hlogged.get (by decide)).trans hcause
      · exact (hlogged.get (by decide)).trans hindex
      · show u.logClose.path = _
        rw [hlog.rest]; exact hpath
      · exact (hkept.logged (by simp) hlog).framed
    · have hdo := State.gmpCommit_go hb hv
      rw [State.commitGo_accepted href] at hdo
      exact show execCommitGo v s = _ from coreEvent_eq hr hdo

end Sys2Proof.Machine

/-! What comes from the heads (R157–R162, R186, R291). -/

namespace Sys2Proof.Machine

/-! ## Upstream frames -/

theorem State.upstream_down {s : State} {p : Nat} (h : s.linkUp p = false) (body : List Nat) (k : State → List Nat → State) :
    s.upstream p body k = s := if_pos (by simp [h])

theorem coreEvent_upstream_down {s : State} {p : Nat} (h : s.linkUp p = false) (body : List Nat) (k : State → List Nat → State) :
    coreEvent s (fun s => s.upstream p body k) = .next s :=
  coreEvent_of_noop fun _ => by rw [State.upstream_down h]; rfl

theorem State.payloadIn_bad (s : State) (k : Nat) {body : List Nat} (h : (codeWords body).any wordBad = true) :
    (s.payloadIn k body).2 = none := by
  have hpos : ((codeWords body).filter wordBad).length ≠ 0 := by
    rw [Ne, List.length_eq_zero_iff, List.filter_eq_nil_iff]
    intro hall
    obtain ⟨w, hw, hbad⟩ := List.any_eq_true.1 h
    exact hall w hw hbad
  exact if_neg hpos

theorem State.payloadIn_good (s : State) (k : Nat) {body : List Nat} (h : (codeWords body).any wordBad = false) :
    (s.payloadIn k body).2 = some (wordData (codeWords body)) := by
  have hzero : ((codeWords body).filter wordBad).length = 0 := by
    rw [List.length_eq_zero_iff, List.filter_eq_nil_iff]
    intro w hw hbad
    exact absurd (List.any_eq_true.2 ⟨w, hw, hbad⟩) (by simp [h])
  exact if_pos hzero

theorem State.payloadIn_counts (s : State) (k : Nat) (body : List Nat) :
    (s.payloadIn k body).1.get (R.FLT_ECC_UE k) = min (s.get (R.FLT_ECC_UE k) + ((codeWords body).filter wordBad).length) (2 ^ 16 - 1) ∧
      (s.payloadIn k body).1.get (R.FLT_ECC_CE k) = min (s.get (R.FLT_ECC_CE k) + ((codeWords body).filter wordFixed).length) (2 ^ 16 - 1) := by
  have hne : (R.FLT_ECC_UE k).key ≠ (R.FLT_ECC_CE k).key := by simp only [Fld.key, R.FLT_ECC_UE, R.FLT_ECC_CE]; omega
  unfold State.payloadIn
  dsimp only
  constructor
  · rw [State.get_bump_self, State.get_bump_ne _ _ hne]; rfl
  · rw [State.get_bump_ne _ _ hne.symm, State.get_bump_self]; rfl

theorem State.payloadIn_kept (s : State) (k : Nat) (body : List Nat) :
    RegsKept [R.FLT_ECC_UE k, R.FLT_ECC_CE k] s (s.payloadIn k body).1 :=
  ((RegsKept.refl _ s).bump (f := R.FLT_ECC_CE k) (by simp) _).bump (by simp) _

theorem State.upstream_bad {s : State} {p : Nat} {body : List Nat} (hup : s.linkUp p = true) (h : (codeWords body).any wordBad = true)
    (k : State → List Nat → State) : s.upstream p body k = (s.payloadIn 7 body).1 := by
  have hnone := s.payloadIn_bad 7 h
  unfold State.upstream
  rw [if_neg (by simp [hup])]
  generalize s.payloadIn 7 body = r at *
  obtain ⟨u, o⟩ := r
  subst hnone
  rfl

theorem State.upstream_good {s : State} {p : Nat} {body : List Nat} (hup : s.linkUp p = true) (h : (codeWords body).any wordBad = false)
    (k : State → List Nat → State) : s.upstream p body k = k (s.payloadIn 7 body).1 (wordData (codeWords body)) := by
  have hsome := s.payloadIn_good 7 h
  unfold State.upstream
  rw [if_neg (by simp [hup])]
  generalize s.payloadIn 7 body = r at *
  obtain ⟨u, o⟩ := r
  subst hsome
  rfl

/-! ## Readings of resistance (R157–R159) -/

theorem State.resLine_regs (s : State) (p n : Nat) :
    (s.resLine p n).1.regs = s.regs ∧ (s.resLine p n).1.links = s.links ∧ (s.resLine p n).1.path.ports.length = s.path.ports.length := by
  unfold State.resLine
  split
  · exact ⟨rfl, rfl, rfl⟩
  · exact ⟨rfl, rfl, by rw [State.onPort, modifyNth_length]⟩

theorem State.inWindow_of {s t : State} {r : Nat} (hr : t.get (R.FIR_RANK_RNOM r) = s.get (R.FIR_RANK_RNOM r))
    (hlo : t.get R.FIR_RES_WIN_LO_PCT = s.get R.FIR_RES_WIN_LO_PCT) (hhi : t.get R.FIR_RES_WIN_HI_PCT = s.get R.FIR_RES_WIN_HI_PCT) (v : Nat) :
    t.inWindow r v = s.inWindow r v := by
  unfold State.inWindow
  rw [hr, hlo, hhi]

/-- A reading inside its window clears what was held of its nozzle (R158). -/
theorem State.resIn_inside {s : State} {p n v : Nat} (hc : s.calRun = none) (hw : s.inWindow (s.link p).rank v = true) :
    s.resIn p n v = ((s.count R.FIR_RES_READS_COUNT).resLine p n).1.onPort p
      (fun x => { x with resHeld := Cells.store dfltZero x.resHeld n 0 }) := by
  have hcount : RegsKept [R.FIR_RES_READS_COUNT] s (s.count R.FIR_RES_READS_COUNT) := (RegsKept.refl _ s).count (by simp) 1
  have hcal : (s.count R.FIR_RES_READS_COUNT).calRun.bind (fun (r : CalRun) => if r.bit_ = 3 then some r else none) = none := by
    rw [show (s.count R.FIR_RES_READS_COUNT).calRun = s.calRun from rfl, hc]; rfl
  obtain ⟨hregs, hlinks, -⟩ := (s.count R.FIR_RES_READS_COUNT).resLine_regs p n
  have hlink : (((s.count R.FIR_RES_READS_COUNT).resLine p n).1.link p) = s.link p := by
    rw [State.link, hlinks]; rfl
  have hin := State.inWindow_of (r := (s.link p).rank)
    (((hcount.trans (.of_regs hregs)).get (f := R.FIR_RANK_RNOM (s.link p).rank) (by
      simp [Fld.key, R.FIR_RANK_RNOM, R.FIR_RES_READS_COUNT]; omega)))
    ((hcount.trans (.of_regs hregs)).get (by decide)) ((hcount.trans (.of_regs hregs)).get (by decide)) v
  unfold State.resIn
  dsimp only
  rw [hcal]
  dsimp only
  rw [if_pos (by rw [hlink, hin, hw])]

/-- Settles O27: the gate every upstream frame passes, then each kind of frame and each time-out. -/
theorem headAnswers : Obligations.HeadAnswers := by
  unfold Obligations.HeadAnswers
  refine ⟨fun s p body hup => ?_, fun s p body hr hup hbad => ?_, fun s p body hr hup hgood => ?_, fun s p n v hp hc hw => ?_,
    fun s p hr hp h64 => ?_, fun s hr hrun hhead hmay hpend => ?_, fun s p c hr hc hs => ?_⟩
  · exact ⟨coreEvent_upstream_down hup .., coreEvent_upstream_down hup .., coreEvent_upstream_down hup .., coreEvent_upstream_down hup ..⟩
  · have hdo (k : State → List Nat → State) : coreEvent s (fun s => s.upstream p body k) = .next (s.payloadIn 7 body).1 :=
      coreEvent_next hr (State.upstream_bad hup hbad k) rfl rfl
    obtain ⟨hue, hce⟩ := s.payloadIn_counts 7 body
    exact ⟨_, hdo _, hdo _, hdo _, hdo _, hue, hce, s.payloadIn_kept 7 body, rfl⟩
  · have hdo (k : State → List Nat → State) : coreEvent s (fun s => s.upstream p body k)
        = .next (s.framed (k (s.payloadIn 7 body).1 (wordData (codeWords body)))) :=
      coreEvent_eq hr (State.upstream_good hup hgood k)
    exact ⟨hdo _, hdo _, hdo _, hdo _⟩
  · rw [State.resIn_inside hc hw]
    obtain ⟨hregs, -, hlen⟩ := (s.count R.FIR_RES_READS_COUNT).resLine_regs p n
    have hcount : RegsKept [R.FIR_RES_READS_COUNT] s (s.count R.FIR_RES_READS_COUNT) := (RegsKept.refl _ s).count (by simp) 1
    have hshown : (s.count R.FIR_RES_READS_COUNT).get R.FIR_RES_READS_COUNT
      = (s.get R.FIR_RES_READS_COUNT + 1) % 2 ^ R.FIR_RES_READS_COUNT.width := State.get_put_self ..
    have hpath : (s.count R.FIR_RES_READS_COUNT).path = s.path := rfl
    generalize s.count R.FIR_RES_READS_COUNT = u at *
    generalize (u.resLine p n).1 = v at *
    refine ⟨(State.get_congr hregs _).trans hshown, ?_, hcount.trans (.of_regs hregs)⟩
    rw [State.onPort_port_self (by rw [hlen, hpath]; exact hp)]
    simp [Cells.look_store]
  · exact show execTempLost p s = _ from coreEvent_eq hr (if_pos ⟨hp, h64⟩)
  · exact show execNormalDecision s = _ from coreEvent_eq hr (if_pos ⟨hrun, hhead, hmay, hpend⟩)
  · have hdo : (match s.memCmd p with
        | some c => (s.linkTake p (c.progress - 1)).finish c stNO_HEAD_ANSWER
        | none => s) = (s.linkTake p (c.progress - 1)).finish c stNO_HEAD_ANSWER := by rw [hc]
    exact ⟨_, (show execMemReadTimeout p s = _ from coreEvent_eq hr hdo), ((s.linkTake p (c.progress - 1)).finish_completed hs _ _ _).framed _ _⟩

end Sys2Proof.Machine

/-! Training, lanes and usage of the head links (R188–R193). -/

namespace Sys2Proof.Machine

/-- Fields of different keys written in turn: each shows its own value. -/
theorem State.forEach_put_get {F : Nat → Fld} {l : List Nat} (hF : ∀ a ∈ l, ∀ b ∈ l, a ≠ b → (F a).key ≠ (F b).key) (hl : l.Nodup)
    (v : Nat → Nat) (s : State) {n : Nat} (hn : n ∈ l) :
    (s.forEach l (fun s a => s.put (F a) (v a))).get (F n) = v n % 2 ^ (F n).width := by
  induction l generalizing s with
  | nil => cases hn
  | cons m l ih =>
    obtain ⟨hm, hnodup⟩ := List.nodup_cons.1 hl
    have hrec := ih (fun a ha b hb => hF a (by simp [ha]) b (by simp [hb])) hnodup (s.put (F m) (v m))
    by_cases h : n ∈ l
    · exact hrec h
    · obtain rfl : n = m := by simpa [h] using hn
      have hkept : RegsKept (l.map F) (s.put (F n) (v n)) ((s.put (F n) (v n)).forEach l (fun s a => s.put (F a) (v a))) :=
        .forEach (fun a ha t => (RegsKept.refl _ t).put (List.mem_map_of_mem ha) _) _
      refine (hkept.get fun g hg => ?_).trans (State.get_put_self ..)
      obtain ⟨a, ha, rfl⟩ := List.mem_map.1 hg
      exact hF n (by simp) a (by simp [ha]) fun e => hm (e ▸ ha)

theorem State.trainFail_shown (s : State) (p cause : Nat) :
    (s.trainFail p cause).get (R.HLK_STAT_STATE p) = 6 ∧ (s.trainFail p cause).get (R.HLK_STAT_FAILCAUSE p) = cause % 8 ∧
      RegsKept [R.HLK_STAT_STATE p, R.HLK_STAT_FAILCAUSE p] s (s.trainFail p cause) ∧
      s.trainFail p cause = { s with regs := (s.trainFail p cause).regs } := by
  have hne : (R.HLK_STAT_STATE p).key ≠ (R.HLK_STAT_FAILCAUSE p).key := by simp only [Fld.key, R.HLK_STAT_STATE, R.HLK_STAT_FAILCAUSE]; omega
  refine ⟨?_, State.get_put_self .., ((RegsKept.refl _ s).put (by simp) 6).put (by simp) cause, rfl⟩
  rw [State.trainFail, State.get_put_ne _ _ hne, State.get_put_self]; rfl

/-- What a port that starts to train shows (R188, Table 8.6). -/
theorem State.trainStart_shown (s : State) {p : Nat} (hp : p < 24) :
    (s.trainStart p).get (R.HLK_STAT_STATE p) = 1 ∧ (s.trainStart p).get (R.HLK_STAT_FAILCAUSE p) = 0 ∧
      (s.trainStart p).flag (R.FIR_HTEMP_VALID p) = false ∧
      RegsKept [R.HLK_STAT_STATE p, R.HLK_STAT_FAILCAUSE p, R.HLK_STAT_LANES p, R.FIR_HTEMP_VALID p, R.FIR_HTEMP_BAND p] s (s.trainStart p) ∧
      (s.trainStart p).aon = s.aon ∧ (s.trainStart p).pending = s.pending ∧ (s.trainStart p).load = s.load := by
  have key (f : Fld) (v : Nat) (t : State) (h : (R.HLK_STAT_STATE p).key ≠ f.key) (h' : (R.HLK_STAT_FAILCAUSE p).key ≠ f.key) :
      (t.put f v).get (R.HLK_STAT_STATE p) = t.get (R.HLK_STAT_STATE p) ∧ (t.put f v).get (R.HLK_STAT_FAILCAUSE p) = t.get (R.HLK_STAT_FAILCAUSE p) :=
    ⟨State.get_put_ne _ _ h, State.get_put_ne _ _ h'⟩
  have hSF : (R.HLK_STAT_STATE p).key ≠ (R.HLK_STAT_FAILCAUSE p).key := by simp only [Fld.key, R.HLK_STAT_STATE, R.HLK_STAT_FAILCAUSE]; omega
  have hSL : (R.HLK_STAT_STATE p).key ≠ (R.HLK_STAT_LANES p).key := by simp only [Fld.key, R.HLK_STAT_STATE, R.HLK_STAT_LANES]; omega
  have hFL : (R.HLK_STAT_FAILCAUSE p).key ≠ (R.HLK_STAT_LANES p).key := by simp only [Fld.key, R.HLK_STAT_FAILCAUSE, R.HLK_STAT_LANES]; omega
  have hSV : (R.HLK_STAT_STATE p).key ≠ (R.FIR_HTEMP_VALID p).key := by simp only [Fld.key, R.HLK_STAT_STATE, R.FIR_HTEMP_VALID]; omega
  have hFV : (R.HLK_STAT_FAILCAUSE p).key ≠ (R.FIR_HTEMP_VALID p).key := by simp only [Fld.key, R.HLK_STAT_FAILCAUSE, R.FIR_HTEMP_VALID]; omega
  have hSB : (R.HLK_STAT_STATE p).key ≠ (R.FIR_HTEMP_BAND p).key := by simp only [Fld.key, R.HLK_STAT_STATE, R.FIR_HTEMP_BAND]; omega
  have hFB : (R.HLK_STAT_FAILCAUSE p).key ≠ (R.FIR_HTEMP_BAND p).key := by simp only [Fld.key, R.HLK_STAT_FAILCAUSE, R.FIR_HTEMP_BAND]; omega
  have hVB : (R.FIR_HTEMP_VALID p).key ≠ (R.FIR_HTEMP_BAND p).key := by simp only [Fld.key, R.FIR_HTEMP_VALID, R.FIR_HTEMP_BAND]; omega
  unfold State.trainStart
  dsimp only
  generalize State.bandStart _ = band
  refine ⟨?_, ?_, ?_, ?_, rfl, rfl, rfl⟩
  · show (State.put _ _ _).get _ = _
    rw [(key _ _ _ hSB hFB).1, (key _ _ _ hSV hFV).1, (key _ _ _ hSL hFL).1, State.get_put_ne _ _ hSF, State.get_put_self]; rfl
  · show (State.put _ _ _).get _ = _
    rw [(key _ _ _ hSB hFB).2, (key _ _ _ hSV hFV).2, (key _ _ _ hSL hFL).2, State.get_put_self]; rfl
  · show (State.put _ _ _).flag _ = _
    rw [State.flag_put_ne _ _ hVB]
    exact State.flag_put_self _ rfl 0
  · exact (((((RegsKept.refl _ s).put (by simp) 1).put (f := R.HLK_STAT_FAILCAUSE p) (by simp) 0).put (f := R.HLK_STAT_LANES p) (by simp) 0).put
      (f := R.FIR_HTEMP_VALID p) (by simp) 0).put (f := R.FIR_HTEMP_BAND p) (by simp) band

theorem State.loadKick_none {s : State} (h : s.load = none) : s.loadKick = s := by
  unfold State.loadKick
  rw [h]

/-- The identity block as it is taken over (R189). -/
theorem State.headId_shown (s : State) {p : Nat} (hp : p < 24) (b : List Nat) :
    (s.headId p b).get (R.HLK_LAT_RXLAT p) = field b 0x15 1 % 2 ^ 7 ∧ (s.headId p b).get (R.HLK_USTAT_GY5 p) = field b 3 1 % 2 ∧
      (∀ w, w < 32 → (s.headId p b).get (R.HLK_HMEM_DATA p w) = field b (4 * w) 4 % 2 ^ 32) := by
  have hmem {w : Nat} := State.forEach_put_get (F := R.HLK_HMEM_DATA p) (l := List.range 32) (n := w)
    (fun a _ b _ h => by simp only [Fld.key, R.HLK_HMEM_DATA]; omega) List.nodup_range (fun w => field b (4 * w) 4) s
  unfold State.headId State.keyShow
  dsimp only
  generalize s.forEach (List.range 32) (fun s w => s.put (R.HLK_HMEM_DATA p w) (field b (4 * w) 4)) = u at *
  generalize b2n _ = k
  refine ⟨?_, ?_, fun w hw => ?_⟩
  · rw [State.get_put_ne _ _ (by simp only [Fld.key, R.HLK_LAT_RXLAT, R.HLK_USTAT_KEY]; omega),
      State.get_put_ne _ _ (by simp only [Fld.key, R.HLK_LAT_RXLAT, R.HLK_USTAT_GY5]; omega), State.get_put_self]; rfl
  · rw [State.get_put_ne _ _ (by simp only [Fld.key, R.HLK_USTAT_GY5, R.HLK_USTAT_KEY]; omega), State.get_put_self]; rfl
  · rw [State.get_put_ne _ _ (by simp only [Fld.key, R.HLK_HMEM_DATA, R.HLK_USTAT_KEY]; omega),
      State.get_put_ne _ _ (by simp only [Fld.key, R.HLK_HMEM_DATA, R.HLK_USTAT_GY5]; omega),
      State.get_put_ne _ _ (by simp only [Fld.key, R.HLK_HMEM_DATA, R.HLK_LAT_RXLAT]; omega)]
    exact hmem (List.mem_range.2 hw)

theorem State.headId_rest (s : State) (p : Nat) (b : List Nat) : (s.headId p b).aon = s.aon ∧ (s.headId p b).pending = s.pending := by
  have hrest : ∀ (l : List Nat) (s : State), (s.forEach l (fun s w => s.put (R.HLK_HMEM_DATA p w) (field b (4 * w) 4))).aon = s.aon ∧
      (s.forEach l (fun s w => s.put (R.HLK_HMEM_DATA p w) (field b (4 * w) 4))).pending = s.pending := by
    intro l
    induction l with
    | nil => exact fun s => ⟨rfl, rfl⟩
    | cons w l ih => exact fun s => ih _
  exact hrest (List.range 32) s

section
variable {s : State} {p : Nat}

theorem State.trainStep_lock (h : s.get (R.HLK_STAT_STATE p) = 1) (ok : Bool) (body : List Nat) :
    s.trainStep p ok body = if ok then s.put (R.HLK_STAT_STATE p) 2 else s.trainFail p 1 := by
  unfold State.trainStep
  rw [h]
  rfl

theorem State.trainStep_ident (h : s.get (R.HLK_STAT_STATE p) = 2) (ok : Bool) (body : List Nat) :
    s.trainStep p ok body = if ok then s.put (R.HLK_STAT_STATE p) 3 else s.trainFail p 2 := by
  unfold State.trainStep
  rw [h]
  rfl

theorem State.trainStep_block (h : s.get (R.HLK_STAT_STATE p) = 3) (ok : Bool) (body : List Nat) :
    s.trainStep p ok body = if ok && headIdOk body then (s.headId p body).put (R.HLK_STAT_STATE p) 4 else s.trainFail p 3 := by
  unfold State.trainStep
  rw [h]
  rfl

theorem State.trainStep_latency (h : s.get (R.HLK_STAT_STATE p) = 4) (ok : Bool) (body : List Nat) :
    s.trainStep p ok body = if !ok then s.trainFail p 5 else if 288 < field body 0 2 then s.trainFail p 4
      else ((s.linkReachUp p (field body 0 2)).portQuiet p).loadKick := by
  unfold State.trainStep
  rw [h]
  rfl

end

/-- Settles O29: each state of training, its good and its bad end. -/
theorem linkTraining : Obligations.LinkTraining := by
  unfold Obligations.LinkTraining
  refine ⟨fun s p body hr hp hst => ?_, fun s p ok body hr hp hst => ?_, fun s p ok body hr hp hst => ?_, fun s p hr hp hen hst => ?_,
    fun s p v hr hp hm hload => ?_, fun s p v hr hp hen h0 h1 => ?_⟩
  · have hstep (k : Nat) (hk : k = 1 ∨ k = 2) (h : s.get (R.HLK_STAT_STATE p) = k) (ok : Bool) :
        s.trainStep p ok body = if ok then s.put (R.HLK_STAT_STATE p) (k + 1) else s.trainFail p k := by
      rcases hk with rfl | rfl
      · exact State.trainStep_lock h ok body
      · exact State.trainStep_ident h ok body
    generalize hk : s.get (R.HLK_STAT_STATE p) = k at *
    obtain ⟨h6, hcause, hkept, hrest⟩ := s.trainFail_shown p k
    refine ⟨⟨_, (show execLinkTrainStep p true body s = _ from coreEvent_next hr ((if_pos hp).trans ((hstep k hst rfl true).trans (if_pos rfl)))
        rfl rfl), ?_, (RegsKept.refl _ s).put (by simp) _, rfl⟩,
      ⟨_, (show execLinkTrainStep p false body s = _ from coreEvent_next hr ((if_pos hp).trans ((hstep k hst rfl false).trans (if_neg (by simp))))
        rfl rfl), h6, ?_, hkept, hrest⟩⟩
    · rw [State.get_put_self]
      exact Nat.mod_eq_of_lt (by simp only [R.HLK_STAT_STATE]; omega)
    · rw [hcause]; omega
  · have hn := s.nPorts_le
    by_cases hgood : ok = true ∧ headIdOk body = true
    · obtain ⟨hok, hid⟩ := hgood
      have hdo : s.trainStep p ok body = (s.headId p body).put (R.HLK_STAT_STATE p) 4 :=
        (State.trainStep_block hst ok body).trans (if_pos (by simp [hok, hid]))
      obtain ⟨hlat, hgy5, hmem⟩ := s.headId_shown (by omega : p < 24) body
      obtain ⟨haon, hpending⟩ := s.headId_rest p body
      generalize s.headId p body = u at *
      refine ⟨_, (show execLinkTrainStep p ok body s = _ from coreEvent_next hr ((if_pos hp).trans hdo) haon hpending), ?_,
        fun _ _ => ⟨?_, ?_, fun w hw => ?_⟩, fun h => absurd ⟨hok, hid⟩ h⟩
      · rw [State.get_put_self, if_pos ⟨hok, hid⟩]; rfl
      · rw [State.get_put_ne _ _ (by simp only [Fld.key, R.HLK_LAT_RXLAT, R.HLK_STAT_STATE]; omega), hlat]
      · rw [State.get_put_ne _ _ (by simp only [Fld.key, R.HLK_USTAT_GY5, R.HLK_STAT_STATE]; omega), hgy5]
      · rw [State.get_put_ne _ _ (by simp only [Fld.key, R.HLK_HMEM_DATA, R.HLK_STAT_STATE]; omega), hmem w hw]
    · have hdo : s.trainStep p ok body = s.trainFail p 3 :=
        (State.trainStep_block hst ok body).trans (if_neg (by simpa using hgood))
      obtain ⟨h6, hcause, -, -⟩ := s.trainFail_shown p 3
      exact ⟨_, (show execLinkTrainStep p ok body s = _ from coreEvent_next hr ((if_pos hp).trans hdo) rfl rfl),
        h6.trans (if_neg hgood).symm, fun hok hid => absurd ⟨hok, hid⟩ hgood, fun _ => hcause⟩
  · have hstep := State.trainStep_latency hst ok body
    refine ⟨fun hok hc => ?_, fun hbad => ?_⟩
    · rw [hok] at hstep ⊢
      exact show execLinkTrainStep p true body s = _ from
        coreEvent_eq hr ((if_pos hp).trans (hstep.trans ((if_neg (by simp)).trans (if_neg (by omega)))))
    · obtain ⟨h6, hcause, hkept, -⟩ := s.trainFail_shown p (if ok then 4 else 5)
      have hdo : s.trainStep p ok body = s.trainFail p (if ok then 4 else 5) := by
        rw [hstep]
        cases ok with
        | false => rfl
        | true => exact (if_neg (by simp)).trans (if_pos (by simpa using hbad))
      refine ⟨_, (show execLinkTrainStep p ok body s = _ from coreEvent_next hr ((if_pos hp).trans hdo) rfl rfl), h6, ?_, hkept⟩
      rw [hcause]; cases ok <;> rfl
  · have hn := s.nPorts_le
    obtain ⟨h1, h0, hv, hkept, haon, hpending, -⟩ := s.trainStart_shown (by omega : p < 24)
    exact ⟨_, (show execTrainRetry p s = _ from coreEvent_next hr (if_pos ⟨hp, hst, hen⟩) haon hpending), h1, h0, hv, hkept⟩
  · have hn := s.nPorts_le
    refine ⟨fun hen h0 h1 => ?_, fun hen hup => ?_⟩
    · have hctrl : s.hlkCtrl p v = ((s.put (R.HLK_CTRL_EN p) v).put (R.HLK_CTRL_ONE_LANE_OK p) (v / 4)).trainStart p := by
        have hload' : (((s.put (R.HLK_CTRL_EN p) v).put (R.HLK_CTRL_ONE_LANE_OK p) (v / 4)).trainStart p).load = none :=
          (State.trainStart_shown _ (by omega : p < 24)).2.2.2.2.2.2.trans hload
        unfold State.hlkCtrl
        dsimp only
        rw [hen, h0, h1, if_neg (by simp), if_pos (by rfl)]
        exact (if_neg hm).trans (State.loadKick_none hload')
      have hflag : ((s.put (R.HLK_CTRL_EN p) v).put (R.HLK_CTRL_ONE_LANE_OK p) (v / 4)).flag (R.HLK_CTRL_EN p) = true := by
        rw [State.flag_put_ne _ _ (by simp only [Fld.key, R.HLK_CTRL_EN, R.HLK_CTRL_ONE_LANE_OK]; omega), State.flag_put_self _ rfl]
        simpa [bit] using h0
      have haon : ((s.put (R.HLK_CTRL_EN p) v).put (R.HLK_CTRL_ONE_LANE_OK p) (v / 4)).aon = s.aon := rfl
      have hpending : ((s.put (R.HLK_CTRL_EN p) v).put (R.HLK_CTRL_ONE_LANE_OK p) (v / 4)).pending = s.pending := rfl
      generalize (s.put (R.HLK_CTRL_EN p) v).put (R.HLK_CTRL_ONE_LANE_OK p) (v / 4) = u at *
      obtain ⟨hone, -, -, hkept, haon', hpending', -⟩ := u.trainStart_shown (by omega : p < 24)
      refine ⟨_, (show execHlkEnWrite p v s = _ from coreEvent_next hr ((if_pos hp).trans hctrl) (haon'.trans haon) (hpending'.trans hpending)),
        ?_, hone⟩
      rw [hkept.flag (by
        simp [Fld.key, R.HLK_CTRL_EN, R.HLK_STAT_STATE, R.HLK_STAT_FAILCAUSE, R.HLK_STAT_LANES, R.FIR_HTEMP_VALID, R.FIR_HTEMP_BAND]; omega), hflag]
    · obtain ⟨h1, h0, -, -, haon, hpending, hload'⟩ := s.trainStart_shown (by omega : p < 24)
      have hdo : s.hlkRetrain p = s.trainStart p := by
        unfold State.hlkRetrain
        rw [if_neg (by simp [hup])]
        exact (if_pos (by simp [hen, hm])).trans (State.loadKick_none (hload'.trans hload))
      exact ⟨_, (show execHlkRetrain p s = _ from coreEvent_next hr ((if_pos hp).trans hdo) haon hpending), h1, h0⟩
  · have hctrl : s.hlkCtrl p v
        = (((((s.put (R.HLK_CTRL_EN p) v).put (R.HLK_CTRL_ONE_LANE_OK p) (v / 4)).linkForget p).linkOff p).report p p 3).loadKick := by
      unfold State.hlkCtrl
      dsimp only
      rw [hen, h0, h1, if_neg (by simp), if_neg (by simp), if_pos (by rfl)]
    exact show execHlkEnWrite p v s = _ from coreEvent_eq hr ((if_pos hp).trans hctrl)

/-! ## Lanes and usage -/

theorem State.onLink_link_self {s : State} {p : Nat} (h : p < s.links.length) (f : Link → Link) : (s.onLink p f).link p = f (s.link p) := by
  simp [State.link, State.onLink, modifyNth_eq_modify, h]

/-- LANESEL for both lanes, and the instant they came back (R191). -/
theorem State.laneBack_shown {s : State} {p : Nat} (hp : p < s.links.length) (f : Link → Link) :
    (((s.laneSel p 3).onLink p f).link p) = f { s.link p with mask := 3, both := 0 } ∧
      ((s.laneSel p 3).onLink p f).get (R.HLK_STAT_LANES p) = 2 ∧
      RegsKept [R.HLK_STAT_LANES p] s ((s.laneSel p 3).onLink p f) ∧
      ((s.laneSel p 3).onLink p f).out = .down p 0xE8 [3, 0, 0, 0, 0, 0, crc8 [3, 0, 0, 0, 0, 0]] :: s.out := by
  have hlen : (s.onLink p (fun l => { l with mask := 3, both := 0 })).links.length = s.links.length := modifyNth_length ..
  have hself := State.onLink_link_self hp (fun l => { l with mask := 3, both := 0 })
  unfold State.laneSel
  dsimp only
  rw [show popcount 2 3 = 2 from by decide]
  refine ⟨?_, State.get_put_self (s.onLink p (fun l => { l with mask := 3, both := 0 })) _ _, ?_, rfl⟩
  · rw [State.onLink_link_self (by simpa using hlen ▸ hp)]
    exact congrArg f hself
  · exact (RegsKept.of_regs (t := s.onLink p (fun l => { l with mask := 3, both := 0 })) rfl).put (by simp) 2

/-- Settles O30: the loss of lock, the return of a lane, and the usage count. -/
theorem linkFaults : Obligations.LinkFaults := by
  unfold Obligations.LinkFaults
  refine ⟨fun s p hr hup => ?_, fun s p hup => ?_, fun s p hr hp hup => ?_, fun s p hr hp hup hmask hboth hsticky => ?_,
    fun s p hr hprim hup hgy5 hpend hacc => ?_, fun s p op nonce again hr hu hp => ⟨fun hop => ?_, fun hop => ?_⟩⟩
  · exact show execLinkLockLost p s = _ from coreEvent_eq hr (if_pos hup)
  · exact coreEvent_of_noop fun _ => congrArg (State.framed s) (if_neg (by simp [hup] : ¬ s.linkUp p = true))
  · exact show execHlkRetrain p s = _ from coreEvent_eq hr ((if_pos hp).trans (if_pos hup))
  · obtain ⟨hlink, hlanes, hkept, hout⟩ := State.laneBack_shown hp (fun l => { l with backT := some s.now })
    exact ⟨_, (show execLaneRestore p s = _ from coreEvent_next hr (if_pos (by simp [hup, hmask, hboth, hsticky])) rfl rfl), hlanes,
      congrArg Link.mask hlink, congrArg Link.backT hlink, hout, hkept⟩
  · exact show execUsageInc p s = _ from coreEvent_eq hr (if_pos (by simp [hprim, hup, hgy5, hpend]; omega))
  · subst hop
    refine show execUsageTimeout p s = _ from coreEvent_eq hr ?_
    rw [hu]
    rfl
  · have hdo : (match (s.link p).usage with
        | some (6, _, again) => (s.usageDone p).usageSend p 5 (!again)
        | some _ => s.usageDone p
        | none => s) = s.usageDone p := by
      rw [hu]
      split
      · next h => exact absurd (congrArg Prod.fst (Option.some.inj h)) hop
      · rfl
      · next h => cases h
    refine ⟨_, (show execUsageTimeout p s = _ from coreEvent_next hr hdo rfl rfl), ?_, State.get_put_self .., ?_⟩
    · exact congrArg Link.usage (State.onLink_link_self hp _)
    · exact (RegsKept.of_regs (t := s.onLink p (fun l => { l with
        usage := none, queue := l.queue.filter (fun (f : LinkFrame) => f.owner != 5) })) rfl).put (by simp) 0

end Sys2Proof.Machine

/-! Camera frames and captures (chapter 9). -/

namespace Sys2Proof.Machine

theorem State.nCams_le (s : State) : s.nCams ≤ 4 := by unfold State.nCams; split <;> omega

theorem State.camOn_lt {s : State} {n : Nat} (h : s.camOn n = true) : n < 4 := by
  have hn := s.nCams_le
  unfold State.camOn at h
  simp only [Bool.and_eq_true, decide_eq_true_eq] at h
  omega

theorem outside_cam {n : Nat} (h : n < 4) : outside (R.CAM_STAT_HDR_ERR n).key ∧ outside (R.CAM_ERRCNT_HDR n).key ∧
    outside (R.CAM_STAT_LONG_FRAME n).key ∧ outside (R.CAM_CAP_BUSY n).key ∧ outside (R.CAM_CAP_DONE n).key ∧
    outside (R.CAM_CAP_TRUNC n).key ∧ outside (R.CAM_CAP_REFUSED n).key ∧ outside (R.CAM_CAPLEN_LEN n).key := by
  simp only [outside, Fld.key, R.CAM_STAT_HDR_ERR, R.CAM_ERRCNT_HDR, R.CAM_STAT_LONG_FRAME, R.CAM_CAP_BUSY, R.CAM_CAP_DONE,
    R.CAM_CAP_TRUNC, R.CAM_CAP_REFUSED, R.CAM_CAPLEN_LEN]
  omega

/-! ## Frames -/

/-- The registers of a frame start that every pipeline serves by itself (R196, R199). -/
def State.frameShown (s : State) (n : Nat) : State :=
  ((s.put (R.CAM_FRAMENO_FRAMENO n) (s.get (R.CAM_FRAMENO_FRAMENO n) + 1)).put (R.CAM_STAT_SHARED n) 0).put
    (R.CAM_PIPE_STAT_SERVING (partnerPipe n)) 0

theorem State.frameShown_kept (s : State) (n : Nat) :
    RegsKept [R.CAM_FRAMENO_FRAMENO n, R.CAM_STAT_SHARED n, R.CAM_PIPE_STAT_SERVING (partnerPipe n)] s (s.frameShown n) :=
  (((RegsKept.refl _ s).put (by simp) _).put (f := R.CAM_STAT_SHARED n) (by simp) 0).put (by simp) 0

theorem State.frameShown_rest (s : State) (n : Nat) : s.frameShown n = { s with regs := (s.frameShown n).regs } := rfl

theorem partnerPipe_lt {n : Nat} (h : n < 4) : partnerPipe n < 4 := by
  unfold partnerPipe
  interval_cases n <;> decide

theorem State.frameShown_number (s : State) {n : Nat} (h : n < 4) : (s.frameShown n).get (R.CAM_FRAMENO_FRAMENO n)
    = (s.get (R.CAM_FRAMENO_FRAMENO n) + 1) % 2 ^ (R.CAM_FRAMENO_FRAMENO n).width := by
  have hm := partnerPipe_lt h
  rw [State.frameShown, State.get_put_ne _ _ (by simp only [Fld.key, R.CAM_FRAMENO_FRAMENO, R.CAM_PIPE_STAT_SERVING]; omega),
    State.get_put_ne _ _ (by simp only [Fld.key, R.CAM_FRAMENO_FRAMENO, R.CAM_STAT_SHARED]; omega), State.get_put_self]

/-- A frame start with nothing parted and no frame in progress or staged: the port's own pipeline takes the frame. -/
theorem State.frameStart_own {s : State} {n : Nat} (hen : s.flag (R.CAM_CFG_EN n) = true) (hf : (s.cport n).frame = none)
    (hparted : s.acct.parted = []) (hslots : s.cam.slots = []) (hn : n < 4) : ∃ f : CamFrame, ∃ mark : Bool,
    s.frameStart n = (s.frameShown n).onCam n (fun c => { c with frame := some f, wanted := c.wanted || mark }) ∧
      f.num = (s.frameShown n).get (R.CAM_FRAMENO_FRAMENO n) ∧ f.time = s.time40 ∧ f.rows = [] ∧ f.width = s.camWidth n ∧
      f.height = s.camHeight n ∧ f.dropped = false ∧ f.shared = false := by
  have hclose : s.closeFrame n true = s := by unfold State.closeFrame; rw [hf]
  have hkept := s.frameShown_kept n
  have hm := partnerPipe_lt hn
  have hwidth : (s.frameShown n).camWidth n = s.camWidth n := by
    unfold State.camWidth
    rw [hkept.get (by simp [Fld.key, R.CAM_SIZE_WIDTH, R.CAM_FRAMENO_FRAMENO, R.CAM_STAT_SHARED, R.CAM_PIPE_STAT_SERVING]; omega)]
  have hheight : (s.frameShown n).camHeight n = s.camHeight n := by
    unfold State.camHeight
    rw [hkept.get (by simp [Fld.key, R.CAM_SIZE_HEIGHT, R.CAM_FRAMENO_FRAMENO, R.CAM_STAT_SHARED, R.CAM_PIPE_STAT_SERVING]; omega)]
  have hpipe (u : State) (h : u.acct.parted = []) (k : Nat) : u.pipeParted k = false := by unfold State.pipeParted; rw [h]; rfl
  have hstaged (u : State) (h : u.cam.slots = []) (k : Nat) : u.slotsOf k = [] := by unfold State.slotsOf; rw [h]; rfl
  unfold State.frameStart
  rw [hclose]
  extract_lets u v m lent stay away whole w width height lost mark pos f x
  have hv : v.acct.parted = [] ∧ v.cam.slots = [] := ⟨hparted, hslots⟩
  have hlent : lent = false := by simp [lent, hpipe v hv.1]
  have hstay : stay = false := by simp [stay, hstaged v hv.2]
  have haway : away = false := by simp [away, hlent, hstay]
  have hwhole : whole = false := by simp [whole, haway, hstaged v hv.2, hpipe v hv.1]
  have hlost : lost = false := by
    have : w.acct.parted = [] := hparted
    simp [lost, hwhole, hpipe w this]
  have hw : w = s.frameShown n := by
    change (v.put (R.CAM_STAT_SHARED n) (b2n away)).put (R.CAM_PIPE_STAT_SERVING m) (b2n away) = _
    rw [haway]; rfl
  refine ⟨f, mark, ?_, congrArg (State.get · _) hw, rfl, rfl, (congrArg (State.camWidth · n) hw).trans hwidth,
    (congrArg (State.camHeight · n) hw).trans hheight, hlost, hwhole⟩
  rw [if_neg (by simp [u, hen]), if_neg (by simp [hwhole]), if_neg (by simp [hlost]), ← hw]

theorem State.frameFlag_shown {s : State} {n : Nat} {f : CamFrame} (hf : (s.cport n).frame = some f) (hn : n < s.cam.ports.length) (i : Nat)
    {g : Fld} (ho : outside g.key) (hw : 0 < g.width) :
    (s.frameFlag n i g).flag g = true ∧ ((s.frameFlag n i g).cport n).frame = some { f with flags := setBit f.flags i } ∧
      RegsKeptOutside [g] s (s.frameFlag n i g) := by
  unfold State.frameFlag
  refine ⟨State.raise_flag _ ho hw, ?_, ?_⟩
  · rw [State.raise_rest]
    refine (congrArg CamPort.frame (State.onCam_cport_self hn _)).trans ?_
    rw [hf]; rfl
  · exact (RegsKeptOutside.of_regs (t := s.onCam n _) rfl).raise (by simp) _

theorem State.mkRow_raw (s : State) (n : Nat) (f : CamFrame) (k : Nat) {px : List Nat} (h : px.length = f.width) (flags : Nat) :
    (s.mkRow n f k px flags).raw.length = f.width := by
  simp [State.mkRow, h]

/-- A whole line of the right length joins the frame in progress (R195, R202). -/
theorem State.imageLine_whole {s : State} {n : Nat} {px : List Nat} {f : CamFrame} (hf : (s.cport n).frame = some f)
    (hdrop : f.dropped = false) (hrows : f.rows.length < f.height) (hlen : px.length = f.width) :
    s.imageLine n px false false =
      (let row := s.mkRow n f f.rows.length px 0
       let g : CamFrame := if f.rows.isEmpty && !s.flag (R.CAM_CFG_SCAN n) then { f with pos := s.camPos n } else f
       let g : CamFrame := { g with rows := f.rows ++ [row] }
       if f.shared then s.onCam n (fun c => { c with frame := some g })
        else (s.camScan n g row).1.onCam n (fun c => { c with frame := some (s.camScan n g row).2 })) := by
  unfold State.imageLine
  have hroom : ¬ f.height ≤ f.rows.length := by omega
  have hshort : decide (px.length < f.width) = false := by simp [hlen]
  have hlong : decide (f.width < px.length) = false := by simp [hlen]
  simp only [hf, hdrop, hroom, hshort, hlong, Bool.false_eq_true, if_false]
  cases f.rows.isEmpty && !s.flag (R.CAM_CFG_SCAN n) <;> rfl

/-- Settles O32: frame starts, image lines and frame ends. -/
theorem cameraFrames : Obligations.CameraFrames := by
  unfold Obligations.CameraFrames
  refine ⟨fun s n num px fl hoff => ?_, fun s n num hr hon hen hf hports hparted hslots => ?_, fun s n px fl hr hon hbit => ?_,
    fun s n px f hr hon hf hports hdrop => ⟨fun hrows => ?_, fun hrows hlen => ?_⟩, fun s n hr hon => ?_⟩
  · have hno (k : State → State) : coreEvent s (fun s => if s.camOn n then k s else s) = .next s :=
      coreEvent_of_noop fun _ => congrArg (State.framed s) (if_neg (by simp [hoff]))
    refine ⟨hno (fun s => s.frameStart n), ?_, hno (fun s => s.closeFrame n false)⟩
    exact show execImageLine n px fl s = _ from coreEvent_of_noop fun _ => congrArg (State.framed s) (if_pos (by simp [hoff]))
  · have hn := State.camOn_lt hon
    obtain ⟨f, mark, hdo, hnum, htime, hrows, hwidth, hheight, hdrop, hshared⟩ := State.frameStart_own hen hf hparted hslots hn
    have hkept := s.frameShown_kept n
    have hno := s.frameShown_number hn
    have hrest := s.frameShown_rest n
    generalize s.frameShown n = u at *
    refine ⟨_, f, (show execFrameStart n num s = _ from coreEvent_next hr ((if_pos hon).trans hdo) ?_ ?_), hno, ?_, hnum, htime, hrows,
      hwidth, hheight, hdrop, hshared, hkept.trans (.of_regs rfl)⟩
    · rw [hrest]; rfl
    · rw [hrest]; rfl
    · exact congrArg CamPort.frame (State.onCam_cport_self (by rw [hrest]; exact hports) _)
  · obtain ⟨ohdr, ocnt, -⟩ := outside_cam (State.camOn_lt hon)
    have hne : (R.CAM_STAT_HDR_ERR n).key ≠ (R.CAM_ERRCNT_HDR n).key := by simp only [Fld.key, R.CAM_STAT_HDR_ERR, R.CAM_ERRCNT_HDR]; omega
    refine ⟨_, (show execImageLine n px fl s = _ from coreEvent_eq hr ((if_neg (by simp [hon])).trans (if_pos hbit))), ?_, ?_, ?_⟩
    · rw [State.flag_framed, State.bump, State.flag_put_ne _ _ hne]
      exact State.raise_flag _ ohdr Nat.one_pos
    · rw [State.get_framed, State.get_bump_self, State.raise_get _ ocnt hne.symm]
    · exact (((RegsKeptOutside.refl _ s).raise (by simp) _).bump (f := R.CAM_ERRCNT_HDR n) (by simp) 1).framed
  · obtain ⟨-, -, olong, -⟩ := outside_cam (State.camOn_lt hon)
    obtain ⟨hflag, hframe, hkept⟩ := State.frameFlag_shown hf hports 3 olong Nat.one_pos
    have hline : s.imageLine n px false false = s.frameFlag n 3 (R.CAM_STAT_LONG_FRAME n) := by
      unfold State.imageLine
      rw [hf]
      exact (if_neg (by simp [hdrop])).trans (if_pos hrows)
    exact ⟨_, (show execImageLine n px 0 s = _ from coreEvent_eq hr ((if_neg (by simp [hon])).trans hline)), hflag, hframe, hkept.framed⟩
  · refine ⟨?_, s.mkRow_raw n f _ hlen 0⟩
    exact show execImageLine n px 0 s = _ from coreEvent_eq hr ((if_neg (by simp [hon])).trans (State.imageLine_whole hf hdrop hrows hlen))
  · exact show execFrameEnd n s = _ from coreEvent_eq hr (if_pos hon)

/-! ## Captures (R212, R286) -/

/-- A request for a capture, its mode and the bits it clears. -/
def State.capCleared (s : State) (n v : Nat) : State :=
  let s := s.put (R.CAM_CAP_RAWMODE n) (v / 2)
  let s := if bit v 3 then s.put (R.CAM_CAP_DONE n) 0 else s
  let s := if bit v 4 then s.put (R.CAM_CAP_TRUNC n) 0 else s
  if bit v 5 then s.put (R.CAM_CAP_REFUSED n) 0 else s

theorem State.capCleared_kept (s : State) (n v : Nat) : RegsKept [R.CAM_CAP_DONE n, R.CAM_CAP_TRUNC n, R.CAM_CAP_REFUSED n]
    (s.put (R.CAM_CAP_RAWMODE n) (v / 2)) (s.capCleared n v) := by
  have hdone := ((RegsKept.refl [R.CAM_CAP_DONE n, R.CAM_CAP_TRUNC n, R.CAM_CAP_REFUSED n] (s.put (R.CAM_CAP_RAWMODE n) (v / 2))).put
    (f := R.CAM_CAP_DONE n) (by simp) 0).ite (c := bit v 3 = true) (RegsKept.refl _ _)
  have htrunc := (hdone.put (f := R.CAM_CAP_TRUNC n) (by simp) 0).ite (c := bit v 4 = true) hdone
  exact (htrunc.put (f := R.CAM_CAP_REFUSED n) (by simp) 0).ite htrunc

theorem State.capCleared_rest (s : State) (n v : Nat) : s.capCleared n v = { s with regs := (s.capCleared n v).regs } := by
  unfold State.capCleared
  dsimp only
  cases bit v 3 <;> cases bit v 4 <;> cases bit v 5 <;> rfl

theorem State.capCleared_mode (s : State) (n v : Nat) : (s.capCleared n v).flag (R.CAM_CAP_RAWMODE n) = bit v 1 := by
  rw [(s.capCleared_kept n v).flag (by
    simp [Fld.key, R.CAM_CAP_RAWMODE, R.CAM_CAP_DONE, R.CAM_CAP_TRUNC, R.CAM_CAP_REFUSED]), State.flag_put_self _ rfl]
  rfl

theorem State.capCleared_busy (s : State) (n v : Nat) : (s.capCleared n v).flag (R.CAM_CAP_BUSY n) = s.flag (R.CAM_CAP_BUSY n) := by
  rw [(s.capCleared_kept n v).flag (by
    simp [Fld.key, R.CAM_CAP_BUSY, R.CAM_CAP_DONE, R.CAM_CAP_TRUNC, R.CAM_CAP_REFUSED]),
    State.flag_put_ne _ _ (by simp [Fld.key, R.CAM_CAP_BUSY, R.CAM_CAP_RAWMODE])]

theorem State.capCleared_enable (s : State) {n : Nat} (hn : n < 4) (v : Nat) :
    (s.capCleared n v).flag R.BLT_ENG_CFG_CAP_ENABLE = s.flag R.BLT_ENG_CFG_CAP_ENABLE := by
  rw [(s.capCleared_kept n v).flag (by
    simp [Fld.key, R.BLT_ENG_CFG_CAP_ENABLE, R.CAM_CAP_DONE, R.CAM_CAP_TRUNC, R.CAM_CAP_REFUSED]; omega),
    State.flag_put_ne _ _ (by simp [Fld.key, R.BLT_ENG_CFG_CAP_ENABLE, R.CAM_CAP_RAWMODE]; omega)]

theorem State.capWrite_request {s : State} {n v : Nat} (hn : n < s.nCams) (hv : bit v 0 = true) : s.capWrite n v =
    if (s.capCleared n v).flag (R.CAM_CAP_BUSY n) || !(s.capCleared n v).flag R.BLT_ENG_CFG_CAP_ENABLE then
      (s.capCleared n v).raise (R.CAM_CAP_REFUSED n) srcCAM
    else ((s.capCleared n v).put (R.CAM_CAP_BUSY n) 1).onCam n
      (fun c => { c with capRaw := (s.capCleared n v).flag (R.CAM_CAP_RAWMODE n), wanted := false }) :=
  (if_neg (by omega)).trans (if_neg (by simp [hv]))

/-- A capture record as it leaves (R212). -/
theorem State.capDeliver_shown (s : State) {n : Nat} (c : CamCap) (hn : n < 4) (hp : n < s.cam.ports.length) : ∃ b,
    .hostWrite (s.get (R.CAM_CAPADDR_ADDR n) / 64 * 64) b ∈ (s.capDeliver n c).out ∧ b.length ≤ s.get (R.CAM_CAPSIZE_SIZE n) ∧
      (s.capDeliver n c).get (R.CAM_CAPLEN_LEN n) = b.length % 2 ^ (R.CAM_CAPLEN_LEN n).width ∧
      (s.capDeliver n c).flag (R.CAM_CAP_BUSY n) = false ∧ (s.capDeliver n c).flag (R.CAM_CAP_DONE n) = true ∧
      ((s.capDeliver n c).cport n).cap = none ∧
      RegsKeptOutside [R.CAM_CAPLEN_LEN n, R.CAM_CAP_BUSY n, R.CAM_CAP_TRUNC n, R.CAM_CAP_DONE n] s (s.capDeliver n c) := by
  obtain ⟨-, -, -, obusy, odone, otrunc, -, olen⟩ := outside_cam hn
  unfold State.capDeliver
  extract_lets stored size lines sent record trunc s1 s2 s3 s4
  have hsize : record.length ≤ s.get (R.CAM_CAPSIZE_SIZE n) := by simp only [record, List.length_take]; omega
  clear_value record trunc
  have hk2 : RegsKeptOutside [R.CAM_CAPLEN_LEN n, R.CAM_CAP_BUSY n] s s2 :=
    (((RegsKeptOutside.of_regs (State.emit_regs s _)).put (f := R.CAM_CAPLEN_LEN n) (by simp) record.length).put (by simp) 0)
  have hlen2 : s2.get (R.CAM_CAPLEN_LEN n) = record.length % 2 ^ (R.CAM_CAPLEN_LEN n).width :=
    (State.get_put_ne _ _ (by simp only [Fld.key, R.CAM_CAPLEN_LEN, R.CAM_CAP_BUSY]; omega)).trans (State.get_put_self ..)
  have hbusy2 : s2.flag (R.CAM_CAP_BUSY n) = false := State.flag_put_self _ rfl 0
  have hcam2 : s2.cam = s.cam := rfl
  have hout2 : .hostWrite (s.get (R.CAM_CAPADDR_ADDR n) / 64 * 64) record ∈ s2.out := by simp [s2, s1]
  clear_value s2
  have h3 : s3.cam = s2.cam ∧ s3.out = s2.out ∧ RegsKeptOutside [R.CAM_CAP_TRUNC n] s2 s3 :=
    State.ite_both (fun t => t.cam = s2.cam ∧ t.out = s2.out ∧ RegsKeptOutside [R.CAM_CAP_TRUNC n] s2 t)
      ⟨by rw [State.raise_rest], State.raise_out .., (RegsKeptOutside.refl _ s2).raise (by simp) _⟩ ⟨rfl, rfl, .refl _ _⟩
  clear_value s3
  obtain ⟨hcam3, hout3, hk3⟩ := h3
  have hdone4 : s4.flag (R.CAM_CAP_DONE n) = true := State.raise_flag _ odone Nat.one_pos
  have hcap4 : (s4.cport n).cap = none := by
    refine congrArg CamPort.cap (State.onCam_cport_self ?_ _)
    rw [State.raise_rest]
    exact (congrArg (fun c => c.ports.length) (hcam3.trans hcam2)) ▸ hp
  have hk4 : RegsKeptOutside [R.CAM_CAP_DONE n] s3 s4 :=
    ((RegsKeptOutside.refl _ s3).raise (by simp) srcCAM).trans (.of_regs rfl)
  have hout4 : s4.out = s3.out := State.raise_out ..
  clear_value s4
  have hpost := State.postEvent_notice s4 0x8011 (n + (if trunc then 2 else 1) * 2 ^ 8) (field c.head 4 4 + record.length * 2 ^ 32)
  have hpout := State.postEvent_out s4 0x8011 (n + (if trunc then 2 else 1) * 2 ^ 8) (field c.head 4 4 + record.length * 2 ^ 32)
  generalize s4.postEvent 0x8011 (n + (if trunc then 2 else 1) * 2 ^ 8) (field c.head 4 4 + record.length * 2 ^ 32) = t at *
  have hk34 : RegsKeptOutside [R.CAM_CAP_TRUNC n, R.CAM_CAP_DONE n] s2 t :=
    (hk3.mono (by simp)).trans ((hk4.mono (by simp)).notice hpost)
  refine ⟨record, hpout.subset (by rw [hout4, hout3]; exact hout2), hsize, ?_, ?_, ?_, ?_, (hk2.mono (by simp)).trans (hk34.mono (by simp))⟩
  · rw [hk34 _ olen (by simp [Fld.key, R.CAM_CAPLEN_LEN, R.CAM_CAP_TRUNC, R.CAM_CAP_DONE]; omega), hlen2]
  · rw [State.flag, hk34 _ obusy (by simp [Fld.key, R.CAM_CAP_BUSY, R.CAM_CAP_TRUNC, R.CAM_CAP_DONE])]
    exact hbusy2
  · rw [State.flag, hpost.get odone]
    exact hdone4
  · rw [hpost.rest]
    exact hcap4

/-- A request that no frame has met is withdrawn (R286). -/
def State.capWithdrawn (s : State) (n : Nat) : State :=
  let unmark (f : CamFrame) : CamFrame := { f with flags := clrBit f.flags 15 }
  let s := (s.put (R.CAM_CAP_BUSY n) 0).onCam n (fun c => { c with wanted := false, frame := c.frame.map unmark })
  { s with cam := { s.cam with slots := s.cam.slots.map (fun (e : Nat × CamFrame) => if e.1 = n then (e.1, unmark e.2) else e) } }

theorem State.capWithdrawn_shown {s : State} {n : Nat} (h : n < s.cam.ports.length) :
    (s.capWithdrawn n).flag (R.CAM_CAP_BUSY n) = false ∧ ((s.capWithdrawn n).cport n).wanted = false ∧
      RegsKept [R.CAM_CAP_BUSY n] s (s.capWithdrawn n) := by
  have hself := State.onCam_cport_self (s := s.put (R.CAM_CAP_BUSY n) 0) h
    (fun c => { c with wanted := false, frame := c.frame.map (fun (f : CamFrame) => { f with flags := clrBit f.flags 15 }) })
  exact ⟨State.flag_put_self s rfl 0, congrArg CamPort.wanted hself, ((RegsKept.refl _ s).put (by simp) 0).trans (.of_regs rfl)⟩

/-- Settles O33: the request, the delivery and the withdrawal of a capture. -/
theorem cameraCaptures : Obligations.CameraCaptures := by
  unfold Obligations.CameraCaptures
  refine ⟨fun s n v hr hn hv => ⟨fun hbad => ?_, fun hbusy hen hports => ?_⟩, fun s n c hr hn hports hcap hall => ?_,
    fun s n hr hn hports hbusy hcap => ?_⟩
  · have hn4 : n < 4 := lt_of_lt_of_le hn s.nCams_le
    have hdo := State.capWrite_request hn hv
    rw [s.capCleared_busy n v, s.capCleared_enable hn4 v, if_pos (by simpa using hbad)] at hdo
    have hb := s.capCleared_busy n v
    have hrest := s.capCleared_rest n v
    obtain ⟨-, -, -, obusy, -, -, oref, -⟩ := outside_cam hn4
    generalize s.capCleared n v = u at *
    refine ⟨_, (show execCaptureReq n v s = _ from coreEvent_eq hr hdo), State.raise_flag _ oref Nat.one_pos, ?_, ?_⟩
    · rw [State.flag_framed, ← hb, State.flag, State.raise_get _ obusy (by simp [Fld.key, R.CAM_CAP_BUSY, R.CAM_CAP_REFUSED])]
      rfl
    · show (u.raise _ _).cam = _
      rw [State.raise_rest, hrest]
  · have hn4 : n < 4 := lt_of_lt_of_le hn s.nCams_le
    have hdo := State.capWrite_request hn hv
    rw [s.capCleared_busy n v, s.capCleared_enable hn4 v, if_neg (by simp [hbusy, hen])] at hdo
    have hmode := s.capCleared_mode n v
    have hkept := (((RegsKept.refl [R.CAM_CAP_BUSY n, R.CAM_CAP_RAWMODE n, R.CAM_CAP_DONE n, R.CAM_CAP_TRUNC n, R.CAM_CAP_REFUSED n] s).put
      (f := R.CAM_CAP_RAWMODE n) (by simp) (v / 2)).trans ((s.capCleared_kept n v).mono (by simp)))
    have hrest := s.capCleared_rest n v
    generalize s.capCleared n v = u at *
    have hport : n < (u.put (R.CAM_CAP_BUSY n) 1).cam.ports.length := by rw [hrest]; exact hports
    have hself := State.onCam_cport_self hport (fun c => { c with capRaw := u.flag (R.CAM_CAP_RAWMODE n), wanted := false })
    refine ⟨_, (show execCaptureReq n v s = _ from coreEvent_next hr hdo ?_ ?_), State.flag_put_self u rfl 1, congrArg CamPort.wanted hself,
      (congrArg CamPort.capRaw hself).trans hmode, (hkept.put (f := R.CAM_CAP_BUSY n) (by simp) 1).trans (.of_regs rfl)⟩
    · rw [hrest]; rfl
    · rw [hrest]; rfl
  · have hdo : (match (s.cport n).cap with
        | some c => if c.pieces.all (fun (p : List Nat × Option (List Nat)) => p.2.isSome) then s.capDeliver n c else s
        | none => s) = s.capDeliver n c := by
      rw [hcap]
      exact if_pos hall
    obtain ⟨b, hout, hsize, hlen, hbusy, hdone, hnone, hkept⟩ := s.capDeliver_shown c hn hports
    generalize s.capDeliver n c = u at *
    exact ⟨_, b, (show execCaptureDone n s = _ from coreEvent_eq hr hdo), hout, hsize, hlen, hbusy, hdone, hnone, hkept.framed⟩
  · have hdo : ∃ d e, execCaptureNoFrame n s = .next (s.framed ((s.capWithdrawn n).postEvent 0x8011 d e)) :=
      ⟨_, _, coreEvent_eq hr (if_pos (by simp [hbusy, hcap]))⟩
    obtain ⟨d, e, hdo⟩ := hdo
    obtain ⟨hb, hw, hkept⟩ := State.capWithdrawn_shown hports
    generalize s.capWithdrawn n = u at *
    have hpost := u.postEvent_notice 0x8011 d e
    refine ⟨_, hdo, ?_, ?_, (hkept.outside.notice hpost).framed⟩
    · rw [State.flag_framed, State.flag, hpost.get (outside_cam hn).2.2.2.1]
      exact hb
    · show ((u.postEvent _ _ _).cport n).wanted = false
      rw [hpost.rest]
      exact hw

end Sys2Proof.Machine

/-! How an accepted mailbox command answers, and what the start of a long one changes (R252, R255). -/

namespace Sys2Proof.Machine

/-- An accepted command that ends at once: its final completion in the state its work leaves. -/
theorem withCmd_finish {s u : State} {c : Cmd} {op st d : Nat} {r : List Nat} {k : State → Cmd → State} (hw : Waiting s c op)
    (hk : k s c = u.finish c st d r) : ∃ t, withCmd s c.ref op k = .next t ∧ Completed u t c st d r := by
  refine ⟨_, withCmd_waiting hw k, ?_⟩
  rw [hk]
  exact (u.finish_completed hw.slot st d r).framed s.aon s.pending

/-- What an accepted command's work leaves, in the frame. -/
theorem withCmd_eq {s u : State} {c : Cmd} {op : Nat} {k : State → Cmd → State} (hw : Waiting s c op) (hk : k s c = u) :
    withCmd s c.ref op k = .next (s.framed u) := hk ▸ withCmd_waiting hw k

theorem Waiting.mem {s : State} {c : Cmd} {op : Nat} (h : Waiting s c op) : c ∈ s.mbx.cmds := List.mem_of_find?_eq_some h.found

/-- The start of a long command moves its own state, the tag table and the pair log. -/
theorem State.startLong_spec (s : State) (c : Cmd) :
    (s.startLong c).mbx.cmds = s.mbx.cmds.map (fun (d : Cmd) => if d.ref == c.ref then { d with running := true } else d) ∧
      RegsKept [R.TSL_LOG_TX_OFF] s (s.startLong c) ∧
      s.startLong c = { s with
        regs := (s.startLong c).regs, mbx := (s.startLong c).mbx, pair := (s.startLong c).pair, out := (s.startLong c).out } := by
  have htag (b : Bool) : (if b then s.tagRecord c.tag c.op stIN_PROGRESS 0 [] else s).mbx.cmds = s.mbx.cmds ∧
      (if b then s.tagRecord c.tag c.op stIN_PROGRESS 0 [] else s)
        = { s with mbx := (if b then s.tagRecord c.tag c.op stIN_PROGRESS 0 [] else s).mbx } := by
    cases b <;> exact ⟨rfl, rfl⟩
  have hlog (u : State) (b : Bool) : Logged u (if b then u.logTag c.tag c.op stIN_PROGRESS [] else u) := by
    cases b
    · exact .refl u
    · exact u.logOne_logged ..
  unfold State.startLong
  extract_lets u v
  obtain ⟨hcmds, hu⟩ := htag (cmdChanges c.op)
  have hv : Logged u v := hlog u (cmdLogged c.op)
  change u.mbx.cmds = _ at hcmds
  change u = _ at hu
  clear_value u v
  have hmbx : v.mbx = u.mbx := by rw [hv.rest]
  refine ⟨?_, ?_, ?_⟩
  · dsimp only
    rw [hmbx, hcmds]
  · exact ((RegsKept.of_logged hv (by rw [hu]) (by simp)).trans (.of_regs rfl))
  · rw [hv.rest, hu]

/-- The command that starts to run is among those that run. -/
theorem State.startLong_running {s : State} {c : Cmd} (h : c ∈ s.mbx.cmds) :
    ∃ d ∈ (s.startLong c).mbx.cmds, d.ref = c.ref ∧ d.running = true := by
  rw [(s.startLong_spec c).1]
  exact ⟨_, List.mem_map_of_mem h, by simp, by simp⟩

end Sys2Proof.Machine

/-! The pair link: heartbeats, blocks and the log stream (R215, R217, R224, R230, R231). -/

namespace Sys2Proof.Machine

/-! ## Heartbeats and blocks -/

/-- The heartbeat of a member whose link is UP (R230). -/
theorem State.hbSend_up {s : State} (hup : s.pairUp = true) (hm : s.mode ≠ .boot) : ∃ b d,
    s.hbSend = { s with
      pair := { s.pair with hbCnt := (s.pair.hbCnt + 1) % 2 ^ 16, liveO := !s.pair.liveO }
      out := .pair 0x23 d :: .pin .pairLiveO 0 (b2n !s.pair.liveO) :: .pair 0x3C (b ++ [crc8 b]) :: s.out } ∧
      b.take 2 = toBytes 2 ((s.pair.hbCnt + 1) % 2 ^ 16) := by
  unfold State.hbSend
  rw [if_neg (by simp [hup, hm])]
  exact ⟨_, _, rfl, rfl⟩

theorem State.hbSend_off {s : State} (h : s.pairUp = false ∨ s.mode = .boot) : s.hbSend = s := if_pos (by rcases h with h | h <;> simp [h])

section
variable {s : State} {b : List Nat}

theorem State.blockIn_bad (hst : s.pair.state ≠ 0) (h : b.length ≠ 7 ∨ crc8 (b.take 6) ≠ b.getD 6 0) (k : State → List Nat → State) :
    s.blockIn b k = s.bump R.TSL_LINKCNT_BADFRAME :=
  (if_neg hst).trans (if_neg fun hgood => h.elim (absurd hgood.1) (absurd hgood.2))

theorem State.blockIn_good (hst : s.pair.state ≠ 0) (hlen : b.length = 7) (hcrc : crc8 (b.take 6) = b.getD 6 0) (k : State → List Nat → State) :
    s.blockIn b k = k s b := (if_neg hst).trans (if_pos ⟨hlen, hcrc⟩)

end

/-- The partner as a heartbeat shows it (R231). -/
def State.peerSeen (s : State) (b : List Nat) : State :=
  (({ s with pair := { s.pair with peerHb := some (b.take 6), peerT := some s.now } } : State).put R.TSL_DETECT_D s.detectTime).put
    R.TSL_STAT_HB_OK 1

theorem State.hbIn_secondary {s : State} (hp : s.primary = false) (hm : s.mode ≠ .shadow ∨ s.synced = true) (b : List Nat) :
    s.hbIn b = s.peerSeen b :=
  (if_neg fun h : s.primary = true => absurd (hp.symm.trans h) (by decide)).trans
    (if_neg (by
      rintro ⟨h1, h2, -⟩
      rcases hm with h | h
      · exact h h1
      · exact absurd (h.symm.trans h2) (by decide)))

theorem State.peerSeen_shown (s : State) (b : List Nat) :
    (s.peerSeen b).flag R.TSL_STAT_HB_OK = true ∧ (s.peerSeen b).get R.TSL_DETECT_D = s.detectTime % 2 ^ 16 ∧
      RegsKept [R.TSL_STAT_HB_OK, R.TSL_DETECT_D] s (s.peerSeen b) := by
  refine ⟨State.flag_put_self _ rfl 1, ?_, ?_⟩
  · rw [State.peerSeen, State.get_put_ne _ _ (by decide), State.get_put_self]; rfl
  · exact ((RegsKept.of_regs (t := { s with pair := { s.pair with peerHb := some (b.take 6), peerT := some s.now } }) rfl).put
      (by simp) _).put (by simp) 1

theorem State.detectTime_bounds (s : State) : 6400 ≤ s.detectTime ∧ s.detectTime ≤ 19200 := by
  unfold State.detectTime
  omega

/-- Settles O34: what a heartbeat sends, and what one received shows. -/
theorem heartbeats : Obligations.Heartbeats := by
  unfold Obligations.Heartbeats
  refine ⟨fun s hr hup hm => ?_, fun s h => ?_, fun s b hr hst hbad => ?_, fun s b hr hst hlen hcrc => ⟨fun hp hm => ?_, ?_, ?_, ?_, ?_⟩,
    State.detectTime_bounds⟩
  · obtain ⟨b, d, hdo, htake⟩ := State.hbSend_up hup hm
    exact ⟨_, b, d, (show execHbTimer s = _ from coreEvent_next hr hdo rfl rfl), rfl, rfl, htake, rfl⟩
  · exact coreEvent_of_noop fun _ => congrArg (State.framed s) (State.hbSend_off h)
  · have hdo (k : State → List Nat → State) : coreEvent s (fun s => s.blockIn b k) = .next (s.bump R.TSL_LINKCNT_BADFRAME) :=
      coreEvent_next hr (State.blockIn_bad hst hbad k) rfl rfl
    exact ⟨_, hdo _, hdo _, State.get_bump_self .., (RegsKept.refl _ s).bump (by simp) 1, rfl⟩
  · obtain ⟨hok, hdetect, hkept⟩ := s.peerSeen_shown b
    exact ⟨_, (show execHbBlock b s = _ from
      coreEvent_next hr ((State.blockIn_good hst hlen hcrc _).trans (State.hbIn_secondary hp hm b)) rfl rfl), rfl, hok, hdetect, hkept, rfl⟩
  · exact show execHbBlock b s = _ from coreEvent_eq hr (State.blockIn_good hst hlen hcrc _)
  · exact fun hc hp => show execFaultBlock b s = _ from
      coreEvent_eq hr ((State.blockIn_good hst hlen hcrc _).trans ((if_neg hc).trans (if_pos hp)))
  · exact fun hc hp hm => show execFaultBlock b s = _ from
      coreEvent_eq hr ((State.blockIn_good hst hlen hcrc _).trans ((if_neg hc).trans ((if_neg (by simp [hp])).trans (if_pos hm))))
  · exact fun hc hp => show execFaultBlock b s = _ from
      coreEvent_eq hr ((State.blockIn_good hst hlen hcrc _).trans ((if_pos hc).trans (if_neg (by simp [hp]))))

/-! ## The log stream -/

theorem State.ackBillets_none {s : State} (h : s.store.flights = []) : s.ackBillets = s := by
  unfold State.ackBillets State.appendKick State.appendAll
  simp [h]

theorem State.logSteps_none {s : State} (h : s.pair.steps = []) : s.logSteps = { s with pair := { s.pair with steps := [], hold := false } } := by
  unfold State.logSteps
  simp [h]

/-- The acknowledged offset and what is left unacknowledged (R217). -/
def State.ackTaken (s : State) (off : Nat) : State :=
  { s.put R.TSL_LOG_ACK_OFF off with
    pair := { s.pair with buf := s.pair.buf.filter (fun (e : Nat × List Nat) => decide (0 < sdiff 32 e.1 off)) } }

theorem State.logAckIn_new {s : State} {off : Nat} (ho : s.pair.logOpen = true) (hf : s.store.flights = []) (hs : s.pair.steps = [])
    (hack : 0 < sdiff 32 off (s.get R.TSL_LOG_ACK_OFF)) (htx : sdiff 32 off (s.get R.TSL_LOG_TX_OFF) ≤ 0) :
    s.logAckIn off false = { s.ackTaken off with pair := { (s.ackTaken off).pair with steps := [], hold := false } } := by
  have hbil : (s.ackTaken off).ackBillets = s.ackTaken off := State.ackBillets_none hf
  have hsteps := State.logSteps_none (s := s.ackTaken off) hs
  refine (if_neg (by simp [ho])).trans ((if_neg (by simp)).trans ((if_pos ⟨hack, htx⟩).trans ?_))
  exact (congrArg State.logSteps hbil).trans hsteps

/-- Settles O36: acknowledgements, the repeat, and what a standby refuses. -/
theorem logStream : Obligations.LogStream := by
  unfold Obligations.LogStream
  refine ⟨fun s off nak ho => ⟨?_, ?_⟩, fun s off hr ho hf hs hack htx => ?_, fun s off nak hr => ?_, fun s hr ho => ?_,
    fun s b hr hst hm => ?_, fun s off b hp hm hj hoff => ?_⟩
  · exact show execLogAck off nak s = _ from coreEvent_of_noop fun _ => congrArg (State.framed s) (if_pos ho)
  · exact show execLogResend s = _ from coreEvent_of_noop fun _ => congrArg (State.framed s) (if_neg (by simp [ho]))
  · refine ⟨_, (show execLogAck off false s = _ from coreEvent_next hr (State.logAckIn_new ho hf hs hack htx) rfl rfl), ?_, rfl, ?_, rfl⟩
    · exact (State.get_put_self s R.TSL_LOG_ACK_OFF _).trans (Nat.mod_mod ..)
    · exact ((RegsKept.refl _ s).put (f := R.TSL_LOG_ACK_OFF) (by simp) (off % 2 ^ 32)).trans (.of_regs rfl)
  · exact show execLogAck off nak s = _ from coreEvent_framed hr _
  · exact show execLogResend s = _ from coreEvent_eq hr (if_pos ho)
  · have hrx : (s.bump R.TSL_LINKCNT_BADFRAME).get R.TSL_LOG_RX_OFF = s.get R.TSL_LOG_RX_OFF := State.get_bump_ne s _ (by decide)
    have hdo := coreEvent_next (k := fun s => if false then s.frameIn 0x21 b (fun s => if s.mode = .shadow then s.ackOut true else s)
        (fun s b => s.logIn (field b 0 4) (pairData b)) else if s.pair.state < 3 then s
        else if (s.bump R.TSL_LINKCNT_BADFRAME).mode = .shadow then (s.bump R.TSL_LINKCNT_BADFRAME).ackOut true
        else s.bump R.TSL_LINKCNT_BADFRAME) hr ((if_neg (by decide)).trans ((if_neg (by omega)).trans (if_pos hm))) rfl rfl
    refine ⟨_, (show execLogFrame b false s = _ from hdo), State.get_bump_self .., ?_, ((RegsKept.refl _ s).bump (by simp) 1).trans (.of_regs rfl)⟩
    rw [← hrx]; rfl
  · unfold State.logIn
    rw [if_neg (by simp [hp, hm]), if_neg (by simp [hj]), if_neg (by simp [hm]), if_neg hoff]
    rfl

end Sys2Proof.Machine

/-! The pair link's training and lanes, the loss of the partner, joins and the Pair commands (R218, R228, R231, R241, R245, R289). -/

namespace Sys2Proof.Machine

/-! ## Training and lanes -/

theorem popcount_le (n mask : Nat) : popcount n mask ≤ n := by
  unfold popcount members
  exact (List.length_filter_le _ _).trans (by simp)

theorem popcount_mod (mask : Nat) : popcount 4 mask % 2 ^ 3 = popcount 4 mask :=
  Nat.mod_eq_of_lt (by have := popcount_le 4 mask; omega)

/-- A step of training begins in no parted link (R218). -/
theorem State.linkTrain_link {s : State} (h : s.acct.parted.any (fun (u : PartedUnit) => u.src == 42) = false) (ok : Bool) :
    s.linkTrain 4 ok = if !ok then { s with pair := { s.pair with state := 1, lanes := 0, laneReady := 0, ident := none } }
      else match s.pair.state with
        | 0 => { s with pair := { s.pair with state := 1 } }
        | 1 => if s.pair.laneReady = 0 then s else { s with pair := { s.pair with state := 2 } }
        | 2 => ({ s with pair := { s.pair with state := 3 } } : State).sendIdent
        | 3 =>
          match s.pair.ident with
          | some b => if field b 24 1 = s.get R.TSL_STAT_SIDE then s
            else ({ s with pair := { s.pair with state := 4 } } : State).laneMask s.pair.laneReady
          | none => s
        | _ => s := by
  unfold State.linkTrain
  rw [if_neg (by simp [h])]
  exact if_neg (by decide)

theorem State.linkTrain_lane {s : State} (h : s.acct.parted.any (fun (u : PartedUnit) => u.src == 42) = false) {k : Nat} (hk : k < 4)
    (hst : s.pair.state ≠ 4) : s.linkTrain k true = { s with pair := { s.pair with laneReady := setBit s.pair.laneReady k } } := by
  unfold State.linkTrain
  rw [if_neg (by simp [h]), if_pos hk]
  exact (if_pos rfl).trans (if_neg hst)

/-- A lane lost or found, noticed or not, and the lanes in use (R218). -/
theorem State.laneMask_shown {s u : State} (hkept : RegsKeptOutside [R.TSL_STAT_LANE_DOWN] s u) (m : Nat) :
    (u.laneMask m).get R.TSL_STAT_LANES = popcount 4 m ∧
      RegsKeptOutside [R.TSL_STAT_LANES, R.TSL_STAT_LANE_DOWN] s (u.laneMask m) ∧
      (u.laneMask m).flag R.TSL_STAT_LANE_DOWN = u.flag R.TSL_STAT_LANE_DOWN := by
  refine ⟨(State.get_put_self ..).trans (popcount_mod m), ?_, State.flag_put_ne _ _ (by decide)⟩
  exact ((hkept.mono (by simp)).trans (.of_regs (t := { u with pair := { u.pair with lanes := m } }) rfl)).put (by simp) _

/-- LANE_DOWN as a change of lanes raises it. -/
theorem State.laneDown_shown (s : State) (c : Prop) [Decidable c] :
    (c → (if c then s.raise R.TSL_STAT_LANE_DOWN srcTSL else s).flag R.TSL_STAT_LANE_DOWN = true) ∧
      RegsKeptOutside [R.TSL_STAT_LANE_DOWN] s (if c then s.raise R.TSL_STAT_LANE_DOWN srcTSL else s) ∧
      (if c then s.raise R.TSL_STAT_LANE_DOWN srcTSL else s).pair = s.pair := by
  refine ⟨fun h => ?_, ((RegsKeptOutside.refl _ s).raise (by simp) _).ite (.refl _ s), ?_⟩
  · rw [if_pos h]
    exact State.raise_flag _ (outside_of rfl) (by decide)
  · split
    · rw [State.raise_rest]
    · rfl

theorem State.lanesIn_some {s : State} {m : Nat} (hst : s.pair.state = 4) (hm : m % 16 ≠ 0) : s.lanesIn m =
    (if Nat.land s.pair.lanes (m % 16) ≠ s.pair.lanes then s.raise R.TSL_STAT_LANE_DOWN srcTSL else s).laneMask (m % 16) := by
  unfold State.lanesIn
  rw [if_neg (by simp [hst])]
  dsimp only
  rw [if_neg hm]
  simp only [decide_eq_true_eq]

theorem State.pairLaneLost_eq {s : State} {k : Nat} (hb : bit s.pair.lanes k = true) : s.pairLaneLost k =
    (let u := (({ s with pair := { s.pair with laneReady := clrBit s.pair.laneReady k } } : State).raise R.TSL_STAT_LANE_DOWN srcTSL)
     if clrBit s.pair.lanes k = 0 then u.tslDown else u.lanesOut (clrBit s.pair.lanes k)) := by
  unfold State.pairLaneLost
  dsimp only
  rw [hb]
  rfl

/-- Settles O37: the stages of training and the lanes in use. -/
theorem pairLink : Obligations.PairLink := by
  unfold Obligations.PairLink
  refine ⟨fun s hr hparted => ?_, fun s m hr hst hm => ?_, fun s k hr hk hb => ?_, fun s l hr hl => ?_, fun s n p hheld => ?_,
    fun s n p c hr hheld hocrc hc => ?_⟩
  · have hlink (ok : Bool) := State.linkTrain_link hparted ok
    refine ⟨?_, fun h0 => ?_, fun h1 hready => ?_, fun h2 => ?_, fun b h3 hid hside => ?_, fun k hk hst => ?_⟩
    · exact show execPairLinkTrain 4 false s = _ from coreEvent_next hr (hlink false) rfl rfl
    · refine show execPairLinkTrain 4 true s = _ from coreEvent_next hr ((hlink true).trans ((if_neg (by decide)).trans ?_)) rfl rfl
      rw [h0]; rfl
    · refine show execPairLinkTrain 4 true s = _ from coreEvent_next hr ((hlink true).trans ((if_neg (by decide)).trans ?_)) rfl rfl
      rw [h1]
      exact if_neg hready
    · have hdo : s.linkTrain 4 true = ({ s with pair := { s.pair with state := 3 } } : State).sendIdent := by
        refine (hlink true).trans ((if_neg (by decide)).trans ?_)
        rw [h2]; rfl
      exact ⟨_, _, (show execPairLinkTrain 4 true s = _ from coreEvent_next hr hdo rfl rfl), rfl, rfl, rfl⟩
    · have hdo : s.linkTrain 4 true = ({ s with pair := { s.pair with state := 4 } } : State).laneMask s.pair.laneReady := by
        refine (hlink true).trans ((if_neg (by decide)).trans ?_)
        rw [h3, hid]
        exact if_neg hside
      exact ⟨_, (show execPairLinkTrain 4 true s = _ from coreEvent_next hr hdo rfl rfl), rfl, State.get_put_self ..⟩
    · exact show execPairLinkTrain k true s = _ from coreEvent_next hr (State.linkTrain_lane hparted hk hst) rfl rfl
  · have hdo := State.lanesIn_some hst hm
    obtain ⟨hflag, hkept, hpair⟩ := s.laneDown_shown (Nat.land s.pair.lanes (m % 16) ≠ s.pair.lanes)
    generalize (if Nat.land s.pair.lanes (m % 16) ≠ s.pair.lanes then s.raise R.TSL_STAT_LANE_DOWN srcTSL else s) = u at *
    obtain ⟨hlanes, hk, hdown⟩ := State.laneMask_shown hkept (m % 16)
    refine ⟨_, (show execLanesBlock m s = _ from coreEvent_eq hr hdo), ?_, hlanes, fun h => ?_, hk.framed⟩
    · show ({ u.pair with lanes := m % 16 } : Pair) = _
      rw [hpair]
    · exact hdown.trans (hflag h)
  · have hdo := State.pairLaneLost_eq hb
    refine ⟨fun hz => ?_, fun hz => ?_⟩
    · have hraised := State.raise_flag (s := { s with pair := { s.pair with laneReady := clrBit s.pair.laneReady k } })
        (f := R.TSL_STAT_LANE_DOWN) srcTSL (outside_of rfl) (by decide)
      have hkept : RegsKeptOutside [R.TSL_STAT_LANE_DOWN] s
          (({ s with pair := { s.pair with laneReady := clrBit s.pair.laneReady k } } : State).raise R.TSL_STAT_LANE_DOWN srcTSL) :=
        (RegsKeptOutside.of_regs (t := { s with pair := { s.pair with laneReady := clrBit s.pair.laneReady k } }) rfl).raise (by simp) _
      have hpair : (({ s with pair := { s.pair with laneReady := clrBit s.pair.laneReady k } } : State).raise R.TSL_STAT_LANE_DOWN srcTSL).pair
          = { s.pair with laneReady := clrBit s.pair.laneReady k } := by rw [State.raise_rest]
      dsimp only at hdo
      rw [if_neg hz] at hdo
      generalize ({ s with pair := { s.pair with laneReady := clrBit s.pair.laneReady k } } : State).raise R.TSL_STAT_LANE_DOWN srcTSL = u at *
      obtain ⟨hlanes, hk', hdown⟩ := State.laneMask_shown hkept (clrBit s.pair.lanes k)
      refine ⟨_, (show execPairLaneLost k s = _ from coreEvent_eq hr ((if_pos hk).trans hdo)), hdown.trans hraised, ?_, hlanes, hk'.framed⟩
      show ({ u.pair with lanes := clrBit s.pair.lanes k } : Pair) = _
      rw [hpair]
    · exact show execPairLaneLost k s = _ from coreEvent_eq hr ((if_pos hk).trans (hdo.trans (if_pos hz)))
  · refine ⟨_, (show execPairLiveIChange l s = _ from coreEvent_next hr (if_neg hl) rfl rfl), State.flag_put_self _ rfl 1, rfl, ?_⟩
    exact (RegsKept.of_regs (t := { s with pair := { s.pair with liveI := l, liveT := some s.now } }) rfl).put (by simp) 1
  · exact show execWithholdTimeout n p s = _ from
      coreEvent_of_noop fun _ => congrArg (State.framed s) (if_pos (by simpa using hheld))
  · have hdo : s.heldEnd n p
        = ({ s with pair := { s.pair with held := s.pair.held.filter (fun (e : Nat × Nat) => e != (n, p)) } } : State).frameOut p c := by
      unfold State.heldEnd
      rw [if_neg (by simpa using hheld)]
      have hocrc' : ({ s with pair := { s.pair with held := s.pair.held.filter (fun (e : Nat × Nat) => e != (n, p)) } } : State).theirOcrc n
        = none := hocrc
      have hc' : ({ s with pair := { s.pair with held := s.pair.held.filter (fun (e : Nat × Nat) => e != (n, p)) } } : State).cline p n
        = some c := hc
      dsimp only
      rw [hc', hocrc']
      rfl
    exact show execWithholdTimeout n p s = _ from coreEvent_eq hr hdo

/-! ## Loss of the partner and joins -/

theorem State.linkLost_rest (s : State) : s.linkLost = { s with
    regs := s.linkLost.regs, mbx := s.linkLost.mbx, hic := s.linkLost.hic, out := s.linkLost.out } := by
  unfold State.linkLost
  split
  · rfl
  · have hraise := s.raise_rest R.TSL_STAT_LINK_LOST srcTSL
    generalize s.raise R.TSL_STAT_LINK_LOST srcTSL = u at *
    have hpost := (State.postEvent_notice u 0x8012 (4 + 0 * 2 ^ 8) s.encLine).rest
    unfold State.pairEvent
    generalize u.postEvent 0x8012 (4 + 0 * 2 ^ 8) s.encLine = v at *
    rw [hpost, hraise]

/-- PAIR_LIVE_I has changed within the detection time. -/
def State.stillLive (s : State) : Bool :=
  match s.pair.liveT with | some t => decide (s.now < t + s.detectTime) | none => false

theorem State.stillLive_false {s : State} (h : ∀ x, s.pair.liveT = some x → x + s.detectTime ≤ s.now) : s.stillLive = false := by
  unfold State.stillLive
  split
  · next t ht => simpa using h t ht
  · rfl

theorem State.stillLive_true {s : State} {x : Nat} (h : s.pair.liveT = some x) (hx : s.now < x + s.detectTime) : s.stillLive = true := by
  unfold State.stillLive
  rw [h]
  simpa using hx

/-- The loss of the heartbeat as a synchronised standby takes it (R231). -/
theorem State.heartLost_standby {s : State} (hp : s.primary = false) (hm : s.mode = .shadow) : s.heartLost =
    (let u : State := { s.put R.TSL_STAT_HB_OK 0 with pair := { s.pair with peerT := none } }
     if s.stillLive then (if u.linkLost.synced then u.linkLost.desync pcLINK
      else if u.linkLost.pair.join = 0 then u.linkLost else u.linkLost.joinFail pcLINK)
     else (u.put R.TSL_STAT_PEER_LIVE 0).primaryLost) :=
  (if_neg fun h : s.primary = true => absurd (hp.symm.trans h) (by decide)).trans (if_pos hm)

theorem State.joinPhase_shown (s : State) {k : Nat} (hk : k < 3) :
    (s.joinPhase k).pair = { s.pair with join := k } ∧ (s.joinPhase k).get R.TSL_STAT_JOIN = 0 ∧ RegsKept [R.TSL_STAT_JOIN] s (s.joinPhase k) := by
  refine ⟨rfl, ?_, (RegsKept.of_regs (t := { s with pair := { s.pair with join := k } }) rfl).put (by simp) _⟩
  interval_cases k <;> exact State.get_put_self ..

/-- Settles O38: the loss of the heartbeat by role, and each phase of a join. -/
theorem pairLossAndJoin : Obligations.PairLossAndJoin := by
  unfold Obligations.PairLossAndJoin
  refine ⟨fun s hr hp => ⟨fun hn => ?_, fun hn => ?_⟩, fun s hr hp hm hs => ⟨fun hlive => ?_, fun x hx hlive => ?_⟩,
    fun s hr hp hj => ⟨fun hok => ?_, fun hbad => ?_⟩, fun s hr hp => ?_, fun s hr hp hj => ?_, fun s hr hp hj => ?_⟩
  · have hdo : s.heartLost = s.put R.TSL_STAT_HB_OK 0 := (if_pos hp).trans (if_neg (by simp [hn]))
    exact ⟨_, (show execHeartbeatLoss s = _ from coreEvent_next hr hdo rfl rfl), State.flag_put_self _ rfl 0,
      (RegsKept.refl _ s).put (by simp) 0, rfl⟩
  · exact show execHeartbeatLoss s = _ from coreEvent_eq hr ((if_pos hp).trans (if_pos (Option.isSome_iff_ne_none.2 hn)))
  · refine show execHeartbeatLoss s = _ from coreEvent_eq hr ((State.heartLost_standby hp hm).trans ?_)
    dsimp only
    rw [State.stillLive_false hlive]
    exact (if_neg (by decide)).trans ((if_pos hm).trans (if_pos hs))
  · refine show execHeartbeatLoss s = _ from coreEvent_eq hr ((State.heartLost_standby hp hm).trans ?_)
    dsimp only
    rw [State.stillLive_true hx hlive, if_pos rfl]
    exact if_pos (by rw [State.linkLost_rest]; exact hs)
  · have hdo : (if s.primary then s.joinServe else s.joinStep) = (s.joinPhase 2).setProgress opPAIR_JOIN 250 := by
      rw [if_neg (by simp [hp])]
      unfold State.joinStep
      rw [hj]
      exact if_neg (not_not.2 hok)
    obtain ⟨hpair, hshow, hkept⟩ := s.joinPhase_shown (k := 2) (by decide)
    exact ⟨_, (show execJoinPhaseEnd s = _ from coreEvent_next hr hdo rfl rfl), hpair, hshow, hkept.trans (.of_regs rfl)⟩
  · have hdo : (if s.primary then s.joinServe else s.joinStep) = s.joinFail s.helloBad := by
      rw [if_neg (by simp [hp])]
      unfold State.joinStep
      rw [hj]
      exact if_pos hbad
    exact show execJoinPhaseEnd s = _ from coreEvent_eq hr hdo
  · exact show execJoinPhaseEnd s = _ from coreEvent_eq hr (if_pos hp)
  · exact show execAlignTimeout s = _ from coreEvent_eq hr (if_pos ⟨hp, hj⟩)
  · exact show execVerifyTimeout s = _ from coreEvent_eq hr (if_pos ⟨hp, hj⟩)

/-! ## The Pair commands -/

/-- A member that follows nobody any more: no sender, no record, no claim (R245). -/
def State.unfollowed (u : State) : State :=
  ({ u with synced := false, pair := { u.pair with quiet := false, syncDue := false, due := [], rx := [], switchAt := none } } : State).put
    R.HLK_CLAIM_CLAIM 0

/-- What a standby that leaves gives up (R245). -/
def State.pairLeft (s : State) : State := (s.joinPhase 0).joinDrop.dropSkew.discardAll.maintOff.unfollowed

theorem State.unfollowed_mode (u : State) : u.maintOff.unfollowed.mode = u.mode := rfl

theorem State.pairLeft_mode (s : State) : s.pairLeft.mode = s.mode := by
  have hdrop := (s.joinPhase 0).joinDrop.dropSkew_steady.mode
  have hdiscard := (s.joinPhase 0).joinDrop.dropSkew.discardAll_steady.mode
  exact (State.unfollowed_mode _).trans (hdiscard.trans hdrop)

theorem State.cmdPairLeave_standby {s : State} (hp : s.primary = false) (hm : s.mode = .shadow) (hj : s.pair.join = 0) (c : Cmd) :
    s.cmdPairLeave c = (s.pairLeft.setMode .idle mcCOMMAND).finish c stOK := by
  unfold State.cmdPairLeave
  rw [if_neg (by simp [hp, hm])]
  extract_lets failed u v q x w
  have hu : u = s := if_pos hj
  have hw : w = s.pairLeft := (show w = u.pairLeft from rfl).trans (congrArg State.pairLeft hu)
  clear_value w
  subst hw
  exact congrArg (State.finish · c stOK) (if_pos (s.pairLeft_mode.trans hm))

/-- Settles O39: the three Pair commands, case by case. -/
theorem pairCommands : Obligations.PairCommands := by
  unfold Obligations.PairCommands
  refine ⟨fun s c hw => ⟨fun hp => ?_, fun hp hno => ?_, fun hp hen hup => ?_⟩,
    fun s c hw hp hen hup hsync hlog htrans hpeer hswitch hresv h0 hline => ⟨fun harm => ?_, fun harm => ?_⟩,
    fun s c hw => ⟨fun hp => ?_, fun hp hm hj => ?_⟩⟩
  · exact withCmd_finish (k := State.cmdPairJoin) hw (if_pos hp)
  · exact withCmd_finish (k := State.cmdPairJoin) hw ((if_neg (by simp [hp])).trans (if_pos (by simpa [or_comm] using hno)))
  · have hdo : s.cmdPairJoin c = (s.startLong c).joinDrop.joinPhase 1 :=
      (if_neg (by simp [hp])).trans (if_neg (by simp [hen, hup]))
    have hrun := State.startLong_running hw.mem
    generalize s.startLong c = u at *
    obtain ⟨hpair, hshow, -⟩ := u.joinDrop.joinPhase_shown (k := 1) (by decide)
    exact ⟨_, (show execPairJoin c.ref s = _ from withCmd_eq hw hdo), congrArg Pair.join hpair, hshow, congrArg Pair.items hpair, hrun⟩
  · have hsame : ¬ (s.pairSynced = false ∨ s.logOpen = false ∨ s.trans = true ∨ s.peerTrans = true ∨ s.pair.switchAt.isSome = true) := by
      simp [hsync, hlog, htrans, hpeer, hswitch]
    exact withCmd_finish (k := State.cmdPairSwitchover) hw (by
      refine (if_neg (by simp [hp])).trans ((if_neg (by simp [hen, hup])).trans ((if_neg hsame).trans ((if_neg (by
        rw [h0, hresv, hline]; decide)).trans ((if_pos harm).trans ((if_neg (by rw [h0]; simp [bit])).trans ?_)))))
      rw [h0]
      rfl)
  · have hsame : ¬ (s.pairSynced = false ∨ s.logOpen = false ∨ s.trans = true ∨ s.peerTrans = true ∨ s.pair.switchAt.isSome = true) := by
      simp [hsync, hlog, htrans, hpeer, hswitch]
    obtain ⟨u, hdo, hprim⟩ : ∃ u, s.cmdPairSwitchover c = u ∧ u.primary = false :=
      ⟨_, (if_neg (by simp [hp])).trans ((if_neg (by simp [hen, hup])).trans ((if_neg hsame).trans ((if_neg (by
        rw [h0, hresv, hline]; decide)).trans ((if_neg (by simp [harm])).trans (if_neg (by rw [h0]; decide)))))), rfl⟩
    exact ⟨_, (show execPairSwitchover c.ref s = _ from withCmd_eq hw hdo), hprim⟩
  · exact withCmd_finish (k := State.cmdPairLeave) hw (if_pos (Or.inl hp))
  · exact withCmd_finish (k := State.cmdPairLeave) hw (State.cmdPairLeave_standby hp hm hj c)

end Sys2Proof.Machine

/-! Doorbells, the completion queue, interrupt gaps and host-side resets (R37, R248–R259). -/

namespace Sys2Proof.Machine

/-! ## The take of a doorbell (R250, R251) -/

/-- A slot that is locked reads as locked. -/
theorem State.setLock_locks (s : State) {r : SlotRef} (h : r.slot < 64) : (s.setLock r true).isLocked r = true := by
  obtain ⟨tr, n⟩ := r
  cases tr
  · simp only [State.setLock, State.isLocked, State.bitIn, State.setIn, if_true]
    rw [State.get_put_ne _ _ (by decide)]
    exact State.bit_put_setBit _ (show n < 64 from h) _
  · simp [State.setLock, State.isLocked, bit_setBit]

theorem State.isLocked_congr {s t : State} (hr : t.get R.MBX_SLOTS_LOCKED = s.get R.MBX_SLOTS_LOCKED)
    (hu : t.mbx.udpLocked = s.mbx.udpLocked) (r : SlotRef) : t.isLocked r = s.isLocked r := by
  obtain ⟨tr, n⟩ := r
  cases tr
  · exact congrArg (bit · n) hr
  · exact congrArg (bit · n) hu

/-- What the mode says to a command rests on the mode, the class in use and the axes' leave to move in PRINT. -/
theorem State.admission_congr {s t : State} (hm : t.mode = s.mode) (ht : t.trans = s.trans)
    (hc : t.get R.FIR_CTRL_CLASS = s.get R.FIR_CTRL_CLASS)
    (hp : ∀ a, t.flag (R.MOT_AX_W0_PRINT_OK a) = s.flag (R.MOT_AX_W0_PRINT_OK a)) (op : Nat) (b : List Nat) :
    t.admission op b = s.admission op b := by
  unfold State.admission
  simp only [hm, ht, hc, hp]

/-- A slot as its doorbell has locked it, the take counted and the command entered. -/
def State.entered (s : State) (r : SlotRef) (c : Cmd) : State :=
  let u := (s.setLock r true).count R.CNT_MBX_LOCK_COUNT
  { u with mbx := { u.mbx with takes := u.mbx.takes + 1, cmds := u.mbx.cmds ++ [c] } }

/-- The command that a slot holds. -/
def State.slotCmd (s : State) (r : SlotRef) (seq : Nat) (note : List Nat) : Cmd :=
  let b := s.slotBytes r
  ⟨r, field b 2 2, field b 0 2, field b 6 1, field b 7 1, s.mbx.takes, seq, false, 0, s.vendorCore, false,
    if field b 0 2 = opIDENTIFY then s.identity else note⟩

theorem State.entered_get (s : State) (r : SlotRef) (c : Cmd) {f : Fld} (h0 : f.key ≠ R.MBX_SLOTS_LOCKED.key)
    (h1 : f.key ≠ R.MBX_STAT_ACTIVE.key) (h2 : f.key ≠ R.CNT_MBX_LOCK_COUNT.key) : (s.entered r c).get f = s.get f := by
  show ((s.setLock r true).put R.CNT_MBX_LOCK_COUNT _).get f = _
  rw [State.get_put_ne _ _ h2]
  exact congrArg (· % 2 ^ f.width) (s.setLock_look r true ⟨h0, h1⟩)

theorem State.entered_locked (s : State) {r : SlotRef} (c : Cmd) (h : r.slot < 64) : (s.entered r c).isLocked r = true :=
  (State.isLocked_congr (t := s.entered r c) (s := s.setLock r true) (State.get_put_ne _ _ (by decide)) rfl r).trans (s.setLock_locks h)

theorem State.entered_mbx (s : State) (r : SlotRef) (c : Cmd) : (s.entered r c).mbx.cmds = s.mbx.cmds ++ [c] ∧
    (s.entered r c).mode = s.mode ∧ (s.entered r c).trans = s.trans := by
  have hrest := s.setLock_rest r true
  unfold State.entered
  generalize s.setLock r true = u at hrest ⊢
  rw [hrest]
  exact ⟨rfl, rfl, rfl⟩

theorem State.entered_counted (s : State) (r : SlotRef) (c : Cmd) : (s.entered r c).get R.CNT_MBX_LOCK_COUNT =
    (s.get R.CNT_MBX_LOCK_COUNT + 1) % 2 ^ R.CNT_MBX_LOCK_COUNT.width := by
  have hget : (s.setLock r true).get R.CNT_MBX_LOCK_COUNT = s.get R.CNT_MBX_LOCK_COUNT :=
    congrArg (· % 2 ^ R.CNT_MBX_LOCK_COUNT.width) (s.setLock_look r true ⟨by decide, by decide⟩)
  show ((s.setLock r true).put R.CNT_MBX_LOCK_COUNT ((s.setLock r true).get R.CNT_MBX_LOCK_COUNT + 1)).get _ = _
  rw [State.get_put_self, hget]

/-- The take of a command that the mode admits now is the take of one that it admitted before. -/
theorem State.entered_admission (s : State) (r : SlotRef) (c : Cmd) (op : Nat) (b : List Nat) :
    (s.entered r c).admission op b = s.admission op b := by
  obtain ⟨-, hm, ht⟩ := s.entered_mbx r c
  refine State.admission_congr hm ht (s.entered_get r c (by decide) (by decide) (by decide)) (fun a => ?_) op b
  refine congrArg (· == 1) (s.entered_get r c ?_ ?_ ?_) <;>
    simp only [Fld.key, R.MOT_AX_W0_PRINT_OK, R.MBX_SLOTS_LOCKED, R.MBX_STAT_ACTIVE, R.CNT_MBX_LOCK_COUNT] <;> omega

/-- A command that does not run yet conflicts with none. -/
theorem State.entered_conflicts (s : State) (r : SlotRef) {c : Cmd} (hc : c.running = false) (op : Nat) :
    (s.entered r c).conflicts op = s.conflicts op := by
  rw [State.conflicts, (s.entered_mbx r c).1, List.any_append]
  simp [State.conflicts, hc]

/-- A doorbell that passes checks 1 to 8. -/
theorem State.take_accepted {s : State} {r : SlotRef} {seq : Nat} {note : List Nat} (hlock : s.isLocked r = false)
    (hform : ¬ (4 ≤ field (s.slotBytes r) 6 1 ∨ 64 ≤ field (s.slotBytes r) 7 1 ∨ field (s.slotBytes r) 8 8 ≠ 0 ∨
      240 < field (s.slotBytes r) 4 2))
    (hop : (cmdInfo (field (s.slotBytes r) 0 2)).isSome = true)
    (hlen : plenOk (field (s.slotBytes r) 0 2) (field (s.slotBytes r) 4 2) (((s.slotBytes r).drop 16).take (field (s.slotBytes r) 4 2)) = true)
    (hused : s.mbx.cmds.any (fun d => (d.ref.transport == r.transport) && (d.tag == field (s.slotBytes r) 2 2)) = false)
    (hrec : s.mbx.tags.find? (fun t => t.tag == field (s.slotBytes r) 2 2 && t.op == field (s.slotBytes r) 0 2) = none)
    (hadm : s.admission (field (s.slotBytes r) 0 2) (((s.slotBytes r).drop 16).take (field (s.slotBytes r) 4 2)) = 0)
    (hconf : s.conflicts (field (s.slotBytes r) 0 2) = false) :
    s.take r seq note = s.entered r (s.slotCmd r seq note) := by
  have hadm' := (s.entered_admission r (s.slotCmd r seq note) _ _).trans hadm
  have hconf' := (s.entered_conflicts r (c := s.slotCmd r seq note) rfl _).trans hconf
  unfold State.take
  rw [if_neg (by simp [hlock])]
  dsimp only
  rw [hrec, ite_self]
  refine (if_neg hform).trans ((if_neg (by simp [Option.isSome_iff_ne_none.1 hop])).trans ((if_neg (by simpa using hlen)).trans
    ((if_neg (by simpa using hused)).trans ?_)))
  exact (if_neg (not_not.2 hadm')).trans (if_neg (by rw [Bool.not_eq_true]; exact hconf'))

/-! ## Entries and messages -/

theorem State.sendIrq_cmds (s : State) (v : Nat) : (s.sendIrq v).mbx.cmds = s.mbx.cmds := by rw [s.sendIrq_rest v]

theorem State.writeEntry_cmds (s : State) (e : List Nat) : (s.writeEntry e).mbx.cmds = s.mbx.cmds := by rw [s.writeEntry_rest e]

theorem State.postLost_cmds (s : State) : s.postLost.mbx.cmds = s.mbx.cmds := by
  unfold State.postLost
  split
  · exact State.ite_both (fun t => t.mbx.cmds = s.mbx.cmds) ((State.sendIrq_cmds _ _).trans (s.writeEntry_cmds _)) (s.writeEntry_cmds _)
  · rfl

theorem State.postSoft_cmds (s : State) (e : List Nat) (b : Bool) : (s.postSoft e b).mbx.cmds = s.mbx.cmds := by
  unfold State.postSoft
  split
  · rfl
  · refine State.ite_both (fun t => t.mbx.cmds = s.mbx.cmds) ?_ s.postLost_cmds
    exact State.ite_both (fun t => t.mbx.cmds = s.mbx.cmds)
      ((State.sendIrq_cmds _ _).trans ((State.writeEntry_cmds _ _).trans s.postLost_cmds)) ((State.writeEntry_cmds _ _).trans s.postLost_cmds)

/-- A doorbell of a locked slot is answered, and enters nothing. -/
theorem State.take_locked_cmds {s : State} {r : SlotRef} (seq : Nat) (note : List Nat) (h : s.isLocked r = true) :
    (s.take r seq note).mbx.cmds = s.mbx.cmds := by
  unfold State.take
  rw [if_pos h]
  dsimp only
  cases r.transport
  · exact s.postSoft_cmds _ _
  · rfl

/-- What an event changes of the host interface beside its queue is none of the link's state. -/
theorem State.sendIrq_link (s : State) (v : Nat) : (s.sendIrq v).mbx.pcieUp = s.mbx.pcieUp ∧
    (s.sendIrq v).mbx.resetPending = s.mbx.resetPending := by
  rw [s.sendIrq_rest v]; exact ⟨rfl, rfl⟩

theorem State.writeEntry_link (s : State) (e : List Nat) : (s.writeEntry e).mbx.pcieUp = s.mbx.pcieUp ∧
    (s.writeEntry e).mbx.resetPending = s.mbx.resetPending := by
  rw [s.writeEntry_rest e]; exact ⟨rfl, rfl⟩

theorem State.postLost_link (s : State) : s.postLost.mbx.pcieUp = s.mbx.pcieUp ∧ s.postLost.mbx.resetPending = s.mbx.resetPending := by
  unfold State.postLost
  split
  · obtain ⟨hu, hp⟩ := s.writeEntry_link (s.entry 0 0x8005 0 0xFF 2 0 0 0 s.mbx.lost 0)
    refine State.ite_both (fun t => t.mbx.pcieUp = s.mbx.pcieUp ∧ t.mbx.resetPending = s.mbx.resetPending) ?_ ⟨hu, hp⟩
    exact ⟨(State.sendIrq_link _ _).1.trans hu, (State.sendIrq_link _ _).2.trans hp⟩
  · exact ⟨rfl, rfl⟩

theorem State.postSoft_link (s : State) (e : List Nat) (b : Bool) :
    (s.postSoft e b).mbx.pcieUp = s.mbx.pcieUp ∧ (s.postSoft e b).mbx.resetPending = s.mbx.resetPending := by
  unfold State.postSoft
  split
  · exact ⟨rfl, rfl⟩
  · obtain ⟨hu, hp⟩ := s.postLost_link
    obtain ⟨hu', hp'⟩ := s.postLost.writeEntry_link e
    let same (t : State) := t.mbx.pcieUp = s.mbx.pcieUp ∧ t.mbx.resetPending = s.mbx.resetPending
    refine State.ite_both same (State.ite_both same ?_ ?_) ⟨hu, hp⟩
    · exact ⟨(State.sendIrq_link _ _).1.trans (hu'.trans hu), (State.sendIrq_link _ _).2.trans (hp'.trans hp)⟩
    · exact ⟨hu'.trans hu, hp'.trans hp⟩

theorem State.postEvent_link (s : State) (code detail data : Nat) :
    (s.postEvent code detail data).mbx.pcieUp = s.mbx.pcieUp ∧ (s.postEvent code detail data).mbx.resetPending = s.mbx.resetPending := by
  unfold State.postEvent
  dsimp only
  split <;> exact State.postSoft_link _ _ _

/-- Settles O40: the take of a doorbell by checks 1 to 8, and the link's own events. -/
theorem doorbells : Obligations.Doorbells := by
  unfold Obligations.Doorbells
  refine ⟨fun s r note hs hlock => ?_, fun s r note h => State.take_locked_cmds 0 note h, fun s k hr hup hsv => ?_,
    fun s k hr hup hsv => ?_, fun s k hup => coreEvent_of_noop fun _ => congrArg s.framed (if_neg (by simp [hup])), fun s d hr hsv => ?_,
    fun s hr => (show execPerstNRelease s = _ from coreEvent_next hr rfl rfl rfl), fun s hr hp => ?_, fun s n hr hp => ?_⟩
  · intro b p hflags hvec hzero hlen hop hplen hused hrec hadm hconf
    have htake := State.take_accepted (seq := 0) (note := note) hlock
      (not_or.2 ⟨Nat.not_le.2 hflags, not_or.2 ⟨Nat.not_le.2 hvec, not_or.2 ⟨not_not.2 hzero, Nat.not_lt.2 hlen⟩⟩⟩) hop hplen hused hrec hadm hconf
    rw [htake]
    exact ⟨s.slotCmd r 0 note, (s.entered_mbx r _).1, rfl, rfl, rfl, rfl, rfl, s.entered_locked _ hs, s.entered_counted r _⟩
  · exact coreEvent_eq hr ((if_pos hup).trans (if_neg (by simp [hsv])))
  · exact coreEvent_next hr ((if_pos hup).trans (if_pos (by simp [hsv]))) rfl rfl
  · have hin : s.doorbellIn (.udp d) = s.takeUdp d := if_neg (by simp [hsv])
    exact show execMbxDoorbell (.udp d) s = _ from coreEvent_eq hr hin
  · show execPcieLinkUp s = _
    refine coreEvent_next (u := { s with mbx := { s.mbx with pcieUp := true } }) hr ?_ rfl rfl
    dsimp only
    rw [hp]
  · have hev : coreEvent s (fun s =>
        let s := { s with mbx := { s.mbx with pcieUp := true } }
        match s.mbx.resetPending with
        | some n =>
          let s := { s with mbx := { s.mbx with resetPending := none } }
          s.postEvent 0x8006 (n % 2 ^ 16) 0
        | none => s)
        = .next (s.framed (({ s with mbx := { s.mbx with pcieUp := true, resetPending := none } } : State).postEvent 0x8006 (n % 2 ^ 16) 0)) := by
      refine coreEvent_eq hr ?_
      dsimp only
      rw [hp]
    obtain ⟨hup, hnone⟩ := State.postEvent_link { s with mbx := { s.mbx with pcieUp := true, resetPending := none } } 0x8006 (n % 2 ^ 16) 0
    exact ⟨_, hev, hup, hnone, (RegsKeptOutside.of_notice (State.postEvent_notice
      { s with mbx := { s.mbx with pcieUp := true, resetPending := none } } 0x8006 (n % 2 ^ 16) 0) rfl).framed⟩


/-! ## The host's side (R249, R253–R255, R259) -/

/-- CQ_HEAD is not moved by an entry or a message. -/
theorem State.postLost_look (s : State) {k : Nat} (hk : k ≠ R.MBX_CQ_TAIL_TAIL.key)
    (hq : k < 0x40110000 * 32 ∨ 0x40120000 * 32 ≤ k) (hp : k < 0x40107000 * 32 ∨ 0x40107008 * 32 ≤ k) :
    Cells.look dfltReg s.postLost.regs k = Cells.look dfltReg s.regs k := by
  have hentry := s.writeEntry_look (s.entry 0 0x8005 0 0xFF 2 0 0 0 s.mbx.lost 0) (s.entry_length ..) ⟨hk, hq⟩
  unfold State.postLost
  split
  · exact State.ite_both (fun t => Cells.look dfltReg t.regs k = Cells.look dfltReg s.regs k)
      ((State.sendIrq_look _ _ hp).trans hentry) hentry
  · rfl

/-- The host's write of CQ_HEAD is shown. -/
theorem State.cqHead_shown (s : State) (v : Nat) : (s.cqHead v).get R.MBX_CQ_HEAD_HEAD = v % 2 ^ 11 ∧ RegsKeptOutside [] s (s.cqHead v) := by
  have hnotice : Notice s (s.cqHead v) :=
    (Notice.put s v (by simp [outside, Fld.key, R.MBX_CQ_HEAD_HEAD])).trans ((State.ring_notice _ srcMBXCQ).trans (State.postLost_notice _))
  refine ⟨?_, (RegsKeptOutside.refl _ s).notice hnotice⟩
  refine (congrArg (· % 2 ^ 11) (State.postLost_look _ (by decide) (by decide) (by decide))).trans ?_
  exact ((s.put R.MBX_CQ_HEAD_HEAD v).ring_writes 0 srcMBXCQ |>.kept _ (by decide)).trans (State.get_put_self ..)

/-- An entry that is written where there is room and nothing is owed. -/
theorem State.postSoft_room {s : State} (hreset : s.mbx.resetPending = none) (hlost : s.mbx.lost = 0) (hroom : s.cqRoom = true)
    (e : List Nat) : s.postSoft e false = s.writeEntry e := by
  have hnone : s.postLost = s := if_neg (by simp [hlost])
  unfold State.postSoft
  rw [if_neg (by simp [hreset])]
  dsimp only
  rw [hnone]
  exact (if_pos (by simp [hroom, hlost])).trans (if_neg (by simp))

/-- The bytes of an entry that is not final. -/
theorem State.progressEntry (s : State) (c : Cmd) (hslot : c.ref.slot < 256) :
    let e := s.entry c.tag c.op stIN_PROGRESS c.ref.slot 0 0 2 (min c.progress 1000) 0 0
    e.length = 32 ∧ (∀ x ∈ e, x < 256) ∧ e.getD 7 0 < 128 ∧ e.take 6 = entryHead c stIN_PROGRESS := by
  refine ⟨s.entry_length .., ?_, by simp [State.entry, toBytes], by simp [State.entry, entryHead, toBytes]⟩
  unfold State.entry
  simp only [List.forall_mem_append, List.forall_mem_cons]
  refine ⟨⟨⟨⟨⟨⟨⟨toBytes_lt, toBytes_lt⟩, toBytes_lt⟩, hslot, by decide, by decide, by decide, by simp⟩, toBytes_lt⟩, toBytes_lt⟩, toBytes_lt⟩,
    toBytes_lt⟩

/-- The body of a datagram stands behind its 16 bytes of header. -/
theorem datagram_body (session kind seq : Nat) (body : List Nat) : (datagram session kind seq body).drop 16 = body := by
  unfold datagram
  dsimp only
  rw [List.drop_append, List.drop_of_length_le (by simp [toBytes_length])]
  simp [toBytes_length]

/-- What has happened to a gap whose end does not concern another vector. -/
theorem State.sendIrq_unmasked {s : State} {v : Nat} (hgap : s.mbx.gaps.any (fun g => g.1 == v) = false) (hm : s.msixMasked v = false) :
    (s.sendIrq v).out = .msix v :: s.out ∧ (s.sendIrq v).regs = s.regs ∧ (s.sendIrq v).aon = s.aon ∧ (s.sendIrq v).pending = s.pending := by
  unfold State.sendIrq
  rw [if_neg (by simp [hgap]), if_neg (by simp [hm])]
  split <;> exact ⟨rfl, rfl, rfl, rfl⟩

theorem State.sendIrq_masked {s : State} {v : Nat} (hgap : s.mbx.gaps.any (fun g => g.1 == v) = false) (hm : s.msixMasked v = true) :
    s.sendIrq v = s.msixPend v := by
  unfold State.sendIrq
  rw [if_neg (by simp [hgap]), if_pos hm]

theorem gaps_closed (l : List (Nat × Bool)) (v : Nat) : (l.filter (fun g => g.1 != v)).any (fun g => g.1 == v) = false := by
  simp [List.any_eq_false]

/-- A gap that ends with a message waiting. -/
theorem exec_irqGapEnd_due {s : State} {v w : Nat} (hr : s.running = true) (h : s.mbx.gaps.find? (fun g => g.1 == v) = some (w, true)) :
    exec (.irqGapEnd v) s
      = .next (s.framed (({ s with mbx := { s.mbx with gaps := s.mbx.gaps.filter (fun g => g.1 != v) } } : State).sendIrq v)) := by
  show execIrqGapEnd v s = _
  refine coreEvent_eq hr ?_
  dsimp only
  rw [h]
  rfl

/-- A gap that ends with none closes. -/
theorem exec_irqGapEnd_idle {s : State} {v w : Nat} (hr : s.running = true) (h : s.mbx.gaps.find? (fun g => g.1 == v) = some (w, false)) :
    exec (.irqGapEnd v) s = .next { s with mbx := { s.mbx with gaps := s.mbx.gaps.filter (fun g => g.1 != v) } } := by
  show execIrqGapEnd v s = _
  refine coreEvent_next (u := { s with mbx := { s.mbx with gaps := s.mbx.gaps.filter (fun g => g.1 != v) } }) hr ?_ rfl rfl
  dsimp only
  rw [h]
  rfl

/-- A long command that runs reports its progress. -/
theorem exec_longProgress {s : State} {c : Cmd} (hr : s.running = true)
    (h : s.mbx.cmds.find? (fun d => d.ref == c.ref && d.running) = some c) :
    exec (.longProgress c.ref) s = .next (s.framed (s.postProgress c)) := by
  show execLongProgress c.ref s = _
  refine coreEvent_eq hr ?_
  rw [h]

/-! ### A host-side reset (R259) -/

theorem State.writeRecord_steady (s : State) (f : Flight) : Steady s (s.writeRecord f) := by
  have hput : Steady s (s.recordPut f) := ⟨rfl, rfl, rfl, rfl, rfl, rfl, rfl⟩
  rw [State.writeRecord_eq]
  exact .ite (hput.trans (.of_notice (State.sendIrq_notice _ _))) hput

theorem State.settle1_steady (fuel : Nat) (s : State) (n : Nat) (udp : Bool) : Steady s (State.settle1 fuel s n udp) := by
  induction fuel generalizing s with
  | zero => exact .refl s
  | succ fuel ih =>
    have next {u : State} (id : Nat) (hu : Steady s u) : Steady s (State.settle1 fuel (u.dropFlight id) n udp) :=
      hu.trans ((⟨rfl, rfl, rfl, rfl, rfl, rfl, rfl⟩ : Steady u (u.dropFlight id)).trans (ih _))
    rw [State.settle1_succ]
    split
    · exact .refl s
    next f _ =>
      exact .ite (.refl s) (.ite (next f.id (.refl s)) (.ite (next f.id (.of_notice (s.recordUdp_notice f).1))
        (.ite (.refl s) (next f.id (s.writeRecord_steady f)))))

theorem State.recordsOut_steady (s : State) : Steady s s.recordsOut :=
  (State.forEach_steady (fun u n => State.settle1_steady _ u n false) s).trans (State.settle1_steady _ _ 3 true)

/-- Reads that end move the two counts of descriptors and the block's mode not at all. -/
theorem State.readsEnd_kept (s : State) (st : Nat) :
    RegsKeptOutside [R.ING_INFLIGHT_COUNT, R.ING_RETURNED_COUNT] s (s.readsEnd st) ∧ Steady s (s.readsEnd st) := by
  unfold State.readsEnd
  generalize (s.store.flights.filter (fun (f : Flight) => f.phase == 0 && !f.udp)).map (fun (f : Flight) => f.id) = ids
  induction ids generalizing s with
  | nil => exact ⟨.refl _ s, .refl s⟩
  | cons id ids ih =>
    have hover : Steady s (s.flightOver id st 0 0) := by
      unfold State.flightOver
      exact .ite ⟨rfl, rfl, rfl, rfl, rfl, rfl, rfl⟩ ⟨rfl, rfl, rfl, rfl, rfl, rfl, rfl⟩
    obtain ⟨hkept, hsteady⟩ := ih (s.flightEnd id st 0 0)
    rw [State.flightEnd_eq] at hkept hsteady
    exact ⟨(((s.flightOver_kept id st 0 0).1.outside).trans ((State.recordsOut_kept _).1.mono (by simp))).trans hkept,
      (hover.trans (State.recordsOut_steady _)).trans hsteady⟩

/-- The fields of a ring that a host-side reset clears. -/
def ringFlds (n : Nat) : List Fld :=
  [R.ING_RING_CFG_ENABLE n, R.ING_RING_CFG_SIZE n, R.ING_RING_CFG_VEC n, R.ING_RING_TAIL_TAIL n, R.ING_RING_HEAD_HEAD n,
    R.ING_RING_CQLO_ADDR_LO n, R.ING_RING_CQHI_ADDR_HI n, R.ING_RING_CQDONE_DONE n, R.MBX_INGDB_TAIL n]

theorem State.resetFields_kept (s : State) (l : List Fld) : RegsKept l s (s.resetFields l) ∧ s.resetFields l = { s with regs := (s.resetFields l).regs } := by
  induction l generalizing s with
  | nil => exact ⟨.refl _ s, rfl⟩
  | cons f l ih =>
    obtain ⟨hk, hrest⟩ := ih (s.put f (dfltReg f.key))
    refine ⟨((RegsKept.refl _ s).put (by simp) _).trans (hk.mono (by simp)), ?_⟩
    show (s.put f (dfltReg f.key)).resetFields l = _
    rw [hrest]
    rfl

/-- A row of registers, each cleared to what it reads at reset, is at its reset values whatever it held. -/
theorem State.resetFields_shown {l : List Fld} (hl : l.Pairwise (fun f g => g.key ≠ f.key)) (s : State) {f : Fld} (hf : f ∈ l) :
    (s.resetFields l).get f = dfltReg f.key % 2 ^ f.width := by
  induction l generalizing s with
  | nil => cases hf
  | cons g l ih =>
    obtain ⟨hhead, htail⟩ := List.pairwise_cons.1 hl
    by_cases hmem : f ∈ l
    · exact ih htail _ hmem
    · obtain rfl : f = g := (List.mem_cons.1 hf).resolve_right hmem
      exact (((s.put f (dfltReg f.key)).resetFields_kept l).1 f fun g hg => (hhead g hg).symm).trans (State.get_put_self ..)

theorem State.mbx_framed (s t : State) : (s.framed t).mbx = t.mbx := rfl

theorem State.mode_framed (s t : State) : (s.framed t).mode = t.mode := rfl

theorem ringFlds_addr {n : Nat} {f : Fld} (h : f ∈ ringFlds n) : f.key / 2048 = 0x1008000 + n ∨ f.key / 32 = 0x40104020 + 4 * n := by
  simp only [ringFlds, List.mem_cons, List.not_mem_nil, or_false] at h
  rcases h with rfl | rfl | rfl | rfl | rfl | rfl | rfl | rfl | rfl <;>
    simp only [Fld.key, R.ING_RING_CFG_ENABLE, R.ING_RING_CFG_SIZE, R.ING_RING_CFG_VEC, R.ING_RING_TAIL_TAIL, R.ING_RING_HEAD_HEAD,
      R.ING_RING_CQLO_ADDR_LO, R.ING_RING_CQHI_ADDR_HI, R.ING_RING_CQDONE_DONE, R.MBX_INGDB_TAIL] <;> omega

theorem ringFlds_apart (n : Nat) : (ringFlds n).Pairwise (fun f g => g.key ≠ f.key) := by
  simp [ringFlds, Fld.key, R.ING_RING_CFG_ENABLE, R.ING_RING_CFG_SIZE, R.ING_RING_CFG_VEC, R.ING_RING_TAIL_TAIL, R.ING_RING_HEAD_HEAD,
      R.ING_RING_CQLO_ADDR_LO, R.ING_RING_CQHI_ADDR_HI, R.ING_RING_CQDONE_DONE, R.MBX_INGDB_TAIL]
  omega

/-- The rings are cleared one after the other, and each stays cleared. -/
theorem State.ringsCleared (s : State) {l : List Nat} (hl : l.Nodup) {n : Nat} (hn : n ∈ l) (h4 : ∀ m ∈ l, m < 4) {f : Fld} (hf : f ∈ ringFlds n) :
    (s.forEach l (fun s n => s.resetFields (ringFlds n))).get f = dfltReg f.key % 2 ^ f.width := by
  have other {u : State} {m : Nat} (hm : m ≠ n) (h : m < 4) : (u.resetFields (ringFlds m)).get f = u.get f :=
    (u.resetFields_kept _).1 f fun g hg he => by
      have hfn := ringFlds_addr hf
      have hgm := ringFlds_addr hg
      have := h4 n hn
      rw [he] at hfn
      omega
  have stays (u : State) {t : List Nat} (hnt : n ∉ t) (h4 : ∀ m ∈ t, m < 4) :
      (u.forEach t (fun s n => s.resetFields (ringFlds n))).get f = u.get f := by
    induction t generalizing u with
    | nil => rfl
    | cons m t ih =>
      obtain ⟨hm, ht⟩ := not_or.1 (List.mem_cons.not.1 hnt)
      exact (ih _ ht fun k hk => h4 k (by simp [hk])).trans (other (Ne.symm hm) (h4 m (by simp)))
  induction l generalizing s with
  | nil => cases hn
  | cons m t ih =>
    obtain ⟨hm, ht⟩ := List.nodup_cons.1 hl
    have h4t : ∀ k ∈ t, k < 4 := fun k hk => h4 k (by simp [hk])
    rcases List.mem_cons.1 hn with rfl | hnt
    · exact (stays _ hm h4t).trans (s.resetFields_shown (ringFlds_apart n) hf)
    · exact ih _ ht hnt h4t

/-- A window of words is cleared. -/
def State.wiped (s : State) (a n : Nat) : State := s.forEach (List.range n) (fun s i => s.put (wordFld (a + 4 * i)) 0)

/-- The registers of the four rings are cleared. -/
def State.ringsReset (s : State) : State := s.forEach (List.range 4) (fun s n => s.resetFields (ringFlds n))

/-- The host-facing registers as a host-side reset leaves them. -/
def State.hostCleared (s : State) : State :=
  (((((s.wiped 0x40106000 256).wiped 0x40107000 2).resetFields [R.MBX_CFG_EVT_VEC, R.MBX_CFG_EVT_IRQ, R.MBX_CFG_MIRROR,
    R.MBX_CQ_MLO_ADDR_LO, R.MBX_CQ_MHI_ADDR_HI, R.MBX_CQ_HEAD_HEAD, R.MBX_CQ_TAIL_TAIL]).wiped 0x40110000 16384)).ringsReset

/-- The rings of a host-side reset: each at its beginning, its reads in progress quiet. -/
def State.ringsStopped (s : State) : State :=
  let s := s.put R.MBX_STAT_HOSTRESET 1
  { s with store := { s.store with
    cqPhase := [true, true, true, true], cqIndex := [0, 0, 0, 0],
    flights := s.store.flights.map (fun (f : Flight) => if f.udp then f else { f with quiet := true }) } }

/-- The host interface of a host-side reset: PCIe is down and the commands of the slots run on unheard. -/
def State.hostGone (s : State) : State :=
  { s with mbx := { s.mbx with
    phase := true, lost := 0, pcieUp := false, gaps := [], resetPending := some 0,
    cmds := s.mbx.cmds.map (fun (c : Cmd) => if c.ref.transport == .bar then { c with discard := true } else c) } }

theorem exec_hostReset {s : State} (hr : s.running = true) :
    exec .hostReset s = .next (s.framed ((s.hostCleared.ringsStopped.readsEnd 0x1F).recordsOut.hostGone)) := by
  show execHostReset s = _
  unfold execHostReset
  rw [coreEvent_framed hr]
  extract_lets u0 u1 u2 u3 u4 u5 store u6 u7 mbx
  have hcleared : u4 = s.hostCleared := rfl
  rw [← hcleared]
  clear_value u4
  have hstopped : u6 = u4.ringsStopped := rfl
  rw [← hstopped]
  clear_value u6
  have hended : u7 = (u6.readsEnd 0x1F).recordsOut := rfl
  rw [← hended]
  clear_value u7
  rfl

theorem State.wiped_steady (s : State) (a n : Nat) : Steady s (s.wiped a n) := State.forEach_steady (fun u _ => .put u _ 0) s

theorem State.resetFields_steady (s : State) (l : List Fld) : Steady s (s.resetFields l) := Steady.fold (fun u f => .put u f _) s

theorem State.ringsReset_steady (s : State) : Steady s s.ringsReset := State.forEach_steady (fun u n => u.resetFields_steady (ringFlds n)) s

theorem State.hostCleared_steady (s : State) : Steady s s.hostCleared :=
  ((((s.wiped_steady _ _).trans (State.wiped_steady _ _ _)).trans (State.resetFields_steady _ _)).trans (State.wiped_steady _ _ _)).trans
    (State.ringsReset_steady _)

theorem State.ringsReset_get (s : State) {n : Nat} (hn : n < 4) {f : Fld} (hf : f ∈ ringFlds n) :
    s.ringsReset.get f = dfltReg f.key % 2 ^ f.width :=
  State.ringsCleared _ List.nodup_range (List.mem_range.2 hn) (fun _ => List.mem_range.1) hf

theorem State.hostGone_get (s : State) (f : Fld) : s.hostGone.get f = s.get f := rfl

theorem State.hostGone_mode (s : State) : s.hostGone.mode = s.mode := rfl

theorem State.ringsStopped_get (s : State) {f : Fld} (h : f.key ≠ R.MBX_STAT_HOSTRESET.key) : s.ringsStopped.get f = s.get f :=
  State.get_put_ne s 1 h

theorem State.ringsStopped_mode (s : State) : s.ringsStopped.mode = s.mode := rfl

/-- A ring's registers after the reads that a host-side reset ends. -/
theorem State.ringsEnded_get (s : State) {f : Fld} (ho : outside f.key) (h0 : f.key ≠ R.ING_INFLIGHT_COUNT.key)
    (h1 : f.key ≠ R.ING_RETURNED_COUNT.key) (h2 : f.key ≠ R.MBX_STAT_HOSTRESET.key) :
    (s.ringsStopped.readsEnd 0x1F).recordsOut.hostGone.get f = s.get f := by
  rw [State.hostGone_get, (State.recordsOut_kept _).1 f ho (by simp), (State.readsEnd_kept _ _).1 f ho (by simp [h0, h1]),
    State.ringsStopped_get _ h2]

theorem State.ringsEnded_mode (s : State) : (s.ringsStopped.readsEnd 0x1F).recordsOut.hostGone.mode = s.mode := by
  rw [State.hostGone_mode, (State.recordsOut_steady _).mode, (State.readsEnd_kept _ _).2.mode, State.ringsStopped_mode]

theorem hostGone_discards {s : State} : ∀ c ∈ s.hostGone.mbx.cmds, c.ref.transport = .bar → c.discard = true := by
  intro c hc htr
  obtain ⟨d, -, rfl⟩ := List.mem_map.1 hc
  by_cases h : (d.ref.transport == .bar) = true
  · rw [if_pos h]
  · rw [if_neg h] at htr
    simp [htr] at h

/-- Settles O41: the queue's head, the gaps, the progress entries, and a host-side reset. -/
theorem hostEvents : Obligations.HostEvents := by
  unfold Obligations.HostEvents
  refine ⟨fun s v hr => ?_, fun s v w hr => ⟨fun hgap hm => ?_, fun hgap hm => ?_, fun hgap => exec_irqGapEnd_idle hr hgap⟩,
    fun s c hr hc => ⟨fun hd => ?_, fun hd htr hslot hreset hlost hroom => ?_, fun hd htr => ?_⟩, fun s hr => ?_⟩
  · obtain ⟨hhead, hkept⟩ := s.cqHead_shown v
    exact ⟨_, (show execCqHeadWrite v s = _ from coreEvent_framed hr _), hhead, hkept.framed⟩
  · obtain ⟨hout, hregs, -, -⟩ := State.sendIrq_unmasked
      (s := { s with mbx := { s.mbx with gaps := s.mbx.gaps.filter (fun g => g.1 != v) } }) (gaps_closed _ v) hm
    exact ⟨_, exec_irqGapEnd_due hr hgap, hout, .of_regs hregs⟩
  · have hirq := State.sendIrq_masked
      (s := { s with mbx := { s.mbx with gaps := s.mbx.gaps.filter (fun g => g.1 != v) } }) (gaps_closed _ v) hm
    have hexec := exec_irqGapEnd_due hr hgap
    rw [hirq] at hexec
    refine ⟨_, hexec, rfl, State.bit_put_setBit _ (show v % 32 < 32 from Nat.mod_lt _ (by decide)) _, ?_⟩
    exact (RegsKept.of_regs (t := { s with mbx := { s.mbx with gaps := s.mbx.gaps.filter (fun g => g.1 != v) } }) rfl).put (by simp) _
  · rw [exec_longProgress hr hc]
    exact congrArg (Host.Outcome.next ∘ s.framed) (if_pos hd)
  · obtain ⟨hlen, hbytes, h7, hhead⟩ := s.progressEntry c hslot
    have hpost : s.postProgress c = s.writeEntry (s.entry c.tag c.op stIN_PROGRESS c.ref.slot 0 0 2 (min c.progress 1000) 0 0) := by
      unfold State.postProgress
      rw [htr]
      exact (if_neg (by simp [hd])).trans (State.postSoft_room hreset hlost hroom _)
    rw [exec_longProgress hr hc, hpost]
    refine ⟨_, rfl, ⟨s.get R.MBX_CQ_TAIL_TAIL, s.get_lt _, (s.writeEntry_head _ hlen hbytes h7).trans hhead⟩, ?_⟩
    exact ((RegsKeptOutside.refl _ s).notice (s.writeEntry_notice _ hlen)).framed
  · have hpost : s.postProgress c = s.sendUdp 2 c.seq (s.entry c.tag c.op stIN_PROGRESS c.ref.slot 0 0 2 (min c.progress 1000) 0 0) := by
      unfold State.postProgress
      rw [htr]
      exact if_neg (by simp [hd])
    rw [exec_longProgress hr hc, hpost]
    refine ⟨_, _, rfl, rfl, ?_⟩
    rw [datagram_body]
    simp [State.entry, entryHead, toBytes]
  · refine ⟨_, exec_hostReset hr, rfl, rfl, rfl, rfl, ?_, fun n hn => ?_, ?_⟩
    · rw [State.mbx_framed]
      exact hostGone_discards
    · obtain ⟨henable, htail, hhead⟩ : dfltReg (R.ING_RING_CFG_ENABLE n).key = 0 ∧ dfltReg (R.ING_RING_TAIL_TAIL n).key = 0 ∧
          dfltReg (R.ING_RING_HEAD_HEAD n).key = 0 := by
        interval_cases n <;> decide +kernel
      have shown {f : Fld} (hf : f ∈ ringFlds n) (ho : outside f.key) (h0 : f.key ≠ R.ING_INFLIGHT_COUNT.key)
          (h1 : f.key ≠ R.ING_RETURNED_COUNT.key) (h2 : f.key ≠ R.MBX_STAT_HOSTRESET.key) (hz : dfltReg f.key = 0) :
          (s.framed (s.hostCleared.ringsStopped.readsEnd 0x1F).recordsOut.hostGone).get f = 0 := by
        rw [State.get_framed, State.ringsEnded_get _ ho h0 h1 h2, State.hostCleared, State.ringsReset_get _ hn hf, hz, Nat.zero_mod]
      refine ⟨congrArg (· == 1) (shown (by simp [ringFlds]) ?_ ?_ ?_ ?_ henable), shown (by simp [ringFlds]) ?_ ?_ ?_ ?_ htail,
        shown (by simp [ringFlds]) ?_ ?_ ?_ ?_ hhead⟩
      all_goals
        simp only [outside, Fld.key, R.ING_RING_CFG_ENABLE, R.ING_RING_TAIL_TAIL, R.ING_RING_HEAD_HEAD, R.ING_INFLIGHT_COUNT,
          R.ING_RETURNED_COUNT, R.MBX_STAT_HOSTRESET]
        omega
    · rw [State.mode_framed, State.ringsEnded_mode, s.hostCleared_steady.mode]

end Sys2Proof.Machine

/-! Register access and the commands that answer at once (R6, R249, R273, R288, R291, R292). -/

namespace Sys2Proof.Machine

/-! ## Register access (R249, R291, R292, R331) -/

/-- A host write below BAR0, or between BAR0 and BAR2. -/
theorem State.hostRegWrite_outside (s : State) {a : Nat} (v : Nat)
    (h : a / 4 * 4 < 0x40100000 ∨ 0x40200000 ≤ a / 4 * 4 ∧ a / 4 * 4 < 0x200000000) : s.hostRegWrite a v = s :=
  (if_neg (show ¬ 0x200000000 ≤ a / 4 * 4 by omega)).trans (if_neg (by omega))

theorem State.hostRegWrite_locked {s : State} {a : Nat} (v : Nat) (h0 : 0x40100000 ≤ a / 4 * 4) (h1 : a / 4 * 4 < 0x40104000)
    (hlock : s.bitIn R.MBX_SLOTS_LOCKED ((a / 4 * 4 - 0x40100000) / 0x100) = true) : s.hostRegWrite a v = s :=
  (if_neg (show ¬ 0x200000000 ≤ a / 4 * 4 by omega)).trans ((if_pos (by omega)).trans (if_pos (by simp [hlock, h1])))

theorem State.hostRegWrite_bar2 (s : State) {a : Nat} (v : Nat) (h0 : 0x200000000 ≤ a / 4 * 4) (h1 : a / 4 * 4 < 0x201000000) :
    s.hostRegWrite a v = s.put R.MBX_STAT_BAR2_WR 1 := (if_pos h0).trans (if_pos h1)

/-- MBX_IRQMOD as the table of registers has it. -/
def irqmodRow : RegRow := ⟨0x40104040, [], 1, .none, [⟨0, 16, .rw, .always⟩]⟩

theorem findRow_irqmod : findRow (rowsOf 0x40104040) 0x40104040 = some (irqmodRow, [], 0) := rfl

/-- The whole of a field of one word that may be written is replaced. -/
theorem State.irqmod_written (s : State) (v : Nat) : s.regApply none 0x40104040 v = s.put R.MBX_IRQMOD_GAP
    (s.get R.MBX_IRQMOD_GAP - s.get R.MBX_IRQMOD_GAP % 2 ^ 16 + v % 2 ^ 16) := by
  have hrow : s.regApply none 0x40104040 v = s.rowEffect irqmodRow [] 0 v none := by
    unfold State.regApply
    rw [findRow_irqmod]
    exact if_pos rfl
  have heff : s.rowEffect irqmodRow [] 0 v none = s.rowWrite irqmodRow [] 0 v none := by
    simp [State.rowEffect, irqmodRow]
  rw [hrow, heff]
  simp [State.rowWrite, State.fieldWrite, irqmodRow, RegRow.at_, State.gateOpen, R.MBX_IRQMOD_GAP]

/-- The words of REG_READ, and what it answers where one lies outside its range. -/
theorem State.cmdRegRead_denied {s : State} {c : Cmd} {i : Nat} (h : (List.range (field (s.slotBytes c.ref) 4 2 / 4)).find? (fun (i : Nat) =>
      !readable (((List.range (field (s.slotBytes c.ref) 4 2 / 4)).map (fun (i : Nat) => s.arg c (4 * i) 4)).getD i 0)) = some i) :
    s.cmdRegRead c = s.finish c stADDR_DENIED i := by
  unfold State.cmdRegRead
  dsimp only
  rw [h]

theorem State.cmdRegRead_read {s : State} {c : Cmd} (h : (List.range (field (s.slotBytes c.ref) 4 2 / 4)).find? (fun (i : Nat) =>
      !readable (((List.range (field (s.slotBytes c.ref) 4 2 / 4)).map (fun (i : Nat) => s.arg c (4 * i) 4)).getD i 0)) = none) :
    s.cmdRegRead c = ((s.regReads c.core ((List.range (field (s.slotBytes c.ref) 4 2 / 4)).map (fun (i : Nat) => s.arg c (4 * i) 4))).1.finish c
      stOK 0 ((s.regReads c.core ((List.range (field (s.slotBytes c.ref) 4 2 / 4)).map
        (fun (i : Nat) => s.arg c (4 * i) 4))).2.flatMap (toBytes 4))) := by
  unfold State.cmdRegRead
  dsimp only
  rw [h]

/-- The words that REG_WRITE holds. -/
def State.writeList (s : State) (c : Cmd) : List (Nat × Nat) :=
  (List.range (field (s.slotBytes c.ref) 4 2 / 8)).map (fun (i : Nat) => (s.arg c (8 * i) 4, s.arg c (8 * i + 4) 4))

/-- The words of a list written in order, and their record in the pair log. -/
def State.wordsWritten (s : State) (c : Cmd) (l : List (Nat × Nat)) : State :=
  let u := l.foldl (fun (s : State) (e : Nat × Nat) => s.regApply (some c.core) e.1 e.2) s
  let k := l.filter (fun (e : Nat × Nat) => logged e.1 && !skewPendAddr e.1)
  if k.isEmpty then u else u.logAdd 0x01 none 0 (regwBody k)

theorem State.cmdRegWrite_denied {s : State} {c : Cmd} {i : Nat} (h : (List.range (field (s.slotBytes c.ref) 4 2 / 8)).find? (fun (i : Nat) =>
      !writable ((s.writeList c).getD i (0, 0)).1) = some i) : s.cmdRegWrite c = s.finish c stADDR_DENIED i := by
  unfold State.cmdRegWrite
  dsimp only
  unfold State.writeList at h
  rw [h]

theorem State.cmdRegWrite_written {s : State} {c : Cmd} (h : (List.range (field (s.slotBytes c.ref) 4 2 / 8)).find? (fun (i : Nat) =>
      !writable ((s.writeList c).getD i (0, 0)).1) = none) : s.cmdRegWrite c = (s.wordsWritten c (s.writeList c)).finish c stOK := by
  unfold State.cmdRegWrite
  dsimp only
  unfold State.writeList at h
  rw [h]
  rfl

/-- A command that reads a block checks its form before its range. -/
theorem State.cmdBlockRead_denied {s : State} {c : Cmd} {i : Nat} (hform : ¬ (field (s.payloadOf c) 4 4 = 0 ∨ 1048576 < field (s.payloadOf c) 4 4 ∨
      field (s.payloadOf c) 8 8 % 64 ≠ 0))
    (h : (List.range (field (s.payloadOf c) 4 4)).find? (fun (i : Nat) => !readable (field (s.payloadOf c) 0 4 + 4 * i)) = some i) :
    s.cmdBlockRead c = s.finish c stADDR_DENIED i := by
  unfold State.cmdBlockRead
  dsimp only
  rw [h]
  exact if_neg hform

/-- The words of a block, and their way to host memory. -/
def State.blockSent (s : State) (c : Cmd) : State × Bool :=
  let p := s.payloadOf c
  let r := s.regReads c.core ((List.range (field p 4 4)).map (fun (i : Nat) => field p 0 4 + 4 * i))
  r.1.dmaOut (field p 8 8) (r.2.flatMap (toBytes 4))

theorem State.cmdBlockRead_read {s : State} {c : Cmd} (hform : ¬ (field (s.payloadOf c) 4 4 = 0 ∨ 1048576 < field (s.payloadOf c) 4 4 ∨
      field (s.payloadOf c) 8 8 % 64 ≠ 0))
    (h : (List.range (field (s.payloadOf c) 4 4)).find? (fun (i : Nat) => !readable (field (s.payloadOf c) 0 4 + 4 * i)) = none) :
    s.cmdBlockRead c = (s.blockSent c).1.finish c (if (s.blockSent c).2 then stOK else stDMA_ERROR) := by
  unfold State.cmdBlockRead
  dsimp only
  rw [h]
  exact if_neg hform

/-- Settles O43: writes of the host and of the cores, and the three commands that reach registers. -/
theorem registerAccess : Obligations.RegisterAccess := by
  unfold Obligations.RegisterAccess
  refine ⟨fun s a v hr => ⟨fun h => ?_, fun h0 h1 hlock => ?_, fun h0 h1 => ?_⟩, fun s v hr => ?_, fun s c a v hr => ⟨fun hc => ?_,
    fun hc hd => ?_, fun hc hd ho hl => ?_⟩, fun s c i hw => ⟨fun h => ?_, fun h => ?_⟩, fun s c i hw => ⟨fun h => ?_, fun h => ?_⟩,
    fun s c hw h0 h1 h2 => ?_⟩
  · exact show execRegisterWrite .host a v s = _ from coreEvent_next hr (s.hostRegWrite_outside _ h) rfl rfl
  · exact show execRegisterWrite .host a v s = _ from coreEvent_next hr (State.hostRegWrite_locked _ h0 h1 hlock) rfl rfl
  · refine ⟨_, (show execRegisterWrite .host a v s = _ from coreEvent_next hr (s.hostRegWrite_bar2 _ h0 h1) rfl rfl),
      State.flag_put_self _ rfl 1, (RegsKept.refl _ s).put (by simp) 1, rfl⟩
  · have hwrite : s.hostRegWrite 0x40104040 (v % 2 ^ 32) = s.regApply none 0x40104040 (v % 2 ^ 32) := by
      simp [State.hostRegWrite]
    refine ⟨_, (show execRegisterWrite .host 0x40104040 v s = _ from coreEvent_next hr (hwrite.trans (s.irqmod_written _)) rfl rfl), ?_,
      (RegsKept.refl _ s).put (by simp) _⟩
    have hlt : s.get R.MBX_IRQMOD_GAP < 2 ^ 16 := s.get_lt _
    rw [State.get_put_self, Nat.mod_eq_of_lt hlt, Nat.sub_self, Nat.zero_add]
    show v % 2 ^ 32 % 2 ^ 16 % 2 ^ 16 = v % 2 ^ 16
    omega
  · exact show execRegisterWrite (.core c) a v s = _ from coreEvent_next hr (if_pos (by simp [hc])) rfl rfl
  · exact show execRegisterWrite (.core c) a v s = _ from coreEvent_eq hr ((if_neg (by simp [hc])).trans (if_pos (by simp [hd])))
  · exact show execRegisterWrite (.core c) a v s = _ from
      coreEvent_eq hr ((if_neg (by simp [hc])).trans ((if_neg (by simp [hd, ho])).trans (if_neg (by simp [hl]))))
  · exact withCmd_finish (k := State.cmdRegRead) hw (State.cmdRegRead_denied h)
  · exact withCmd_finish (k := State.cmdRegRead) hw (State.cmdRegRead_read h)
  · exact withCmd_finish (k := State.cmdRegWrite) hw (State.cmdRegWrite_denied h)
  · exact withCmd_finish (k := State.cmdRegWrite) hw (State.cmdRegWrite_written h)
  · have hform : ¬ (field (s.payloadOf c) 4 4 = 0 ∨ 1048576 < field (s.payloadOf c) 4 4 ∨ field (s.payloadOf c) 8 8 % 64 ≠ 0) := by
      rintro (h | h | h)
      · exact h0 h
      · exact Nat.not_lt.2 h1 h
      · exact h h2
    exact ⟨fun i h => withCmd_finish (k := State.cmdBlockRead) hw (State.cmdBlockRead_denied hform h),
      fun h => withCmd_finish (k := State.cmdBlockRead) hw (State.cmdBlockRead_read hform h)⟩

/-! ## Commands that answer at once (R273, R288, R291, R296) -/

/-- What is wrong with the form of SNAPSHOT. -/
def snapshotBad (p : List Nat) : Prop :=
  2 ≤ field p 0 1 ∨ resv p [(1, 2)] = true ∨ (bit (field p 0 1) 0 = true ∧ field p 3 5 ≠ 0)

theorem not_snapshotBad {p : List Nat} (h0 : field p 0 1 < 2) (h1 : resv p [(1, 2)] = false)
    (h2 : bit (field p 0 1) 0 = true → field p 3 5 = 0) : ¬ snapshotBad p := by
  rintro (h | h | ⟨h, hne⟩)
  · omega
  · simp [h1] at h
  · exact hne (h2 h)

theorem State.cmdSnapshot_pending {s : State} {c : Cmd} (hform : ¬ snapshotBad (s.payloadOf c)) (h : s.flag R.CNT_SNAP_PENDING = true) :
    s.cmdSnapshot c = s.finish c stSNAP_PENDING := (if_neg hform).trans (if_pos h)

theorem State.cmdSnapshot_none {s : State} {c : Cmd} (hform : ¬ snapshotBad (s.payloadOf c)) (h : s.flag R.CNT_SNAP_PENDING = false)
    (ha : s.path.armed = false) (hn : bit (field (s.payloadOf c) 0 1) 0 = false) : s.cmdSnapshot c = s.finish c stNO_LINES :=
  (if_neg hform).trans ((if_neg (by simp [h])).trans (if_pos (by simp [ha, hn])))

theorem State.cmdSnapshot_taken {s : State} {c : Cmd} (hform : ¬ snapshotBad (s.payloadOf c)) (h : s.flag R.CNT_SNAP_PENDING = false)
    (ha : s.path.armed = true ∨ bit (field (s.payloadOf c) 0 1) 0 = true) :
    s.cmdSnapshot c = (s.snapRequest (bit (field (s.payloadOf c) 0 1) 0) (field (s.payloadOf c) 3 5)).finish c stOK 0
      ([s.snapBank, 0] ++ toBytes 2 (s.acct.snapGen + 1) ++ [0, 0, 0, 0]) :=
  (if_neg hform).trans ((if_neg (by simp [h])).trans (if_neg (by rcases ha with ha | ha <;> simp [ha])))

/-- What is wrong with the form of DROP_READ. -/
def dropReadBad (p : List Nat) : Prop :=
  2 ≤ field p 0 1 ∨ resv p [(1, 3), (12, 4)] = true ∨ field p 8 4 = 0 ∨ 196608 < field p 4 4 + field p 8 4 ∨ field p 16 8 % 64 ≠ 0

/-- The drop counters of a bank, and their way to host memory. -/
def State.dropsSent (s : State) (p : List Nat) : State × Bool :=
  s.dmaOut (field p 16 8) ((List.range (field p 8 4)).flatMap (fun (i : Nat) =>
    toBytes 8 (Cells.look dfltZero (s.bankOf (field p 0 1)).drops (field p 4 4 + i))))

theorem State.cmdDropRead_empty {s : State} {c : Cmd} (hform : ¬ dropReadBad (s.payloadOf c))
    (h : (s.bankOf (field (s.payloadOf c) 0 1)).complete = false) : s.cmdDropRead c = s.finish c stBAD_PARAM :=
  (if_neg hform).trans (if_pos (by simp [h]))

theorem State.cmdDropRead_sent {s : State} {c : Cmd} (hform : ¬ dropReadBad (s.payloadOf c))
    (h : (s.bankOf (field (s.payloadOf c) 0 1)).complete = true) :
    s.cmdDropRead c = (s.dropsSent (s.payloadOf c)).1.finish c (if (s.dropsSent (s.payloadOf c)).2 then stOK else stDMA_ERROR) :=
  (if_neg hform).trans (if_neg (by simp [h]))

/-- The journal, as far as JOURNAL_READ asks for it, and its way to host memory. -/
def State.journalSent (s : State) (p : List Nat) : State × Bool :=
  s.dmaOut (field p 0 8) ((s.flash.journal.flatMap JEntry.bytes).take (field p 8 4))

theorem State.cmdJournalRead_sent {s : State} {c : Cmd} (hform : ¬ (resv (s.payloadOf c) [(12, 4)] = true ∨ field (s.payloadOf c) 0 8 % 64 ≠ 0))
    (h : (s.journalSent (s.payloadOf c)).2 = true) : s.cmdJournalRead c = (s.journalSent (s.payloadOf c)).1.finish c stOK 0
      (toBytes 4 ((s.flash.journal.flatMap JEntry.bytes).take (field (s.payloadOf c) 8 4)).length ++ [0, 0, 0, 0]) :=
  (if_neg hform).trans (if_pos h)

theorem State.cmdJournalRead_lost {s : State} {c : Cmd} (hform : ¬ (resv (s.payloadOf c) [(12, 4)] = true ∨ field (s.payloadOf c) 0 8 % 64 ≠ 0))
    (h : (s.journalSent (s.payloadOf c)).2 = false) : s.cmdJournalRead c = (s.journalSent (s.payloadOf c)).1.finish c stDMA_ERROR :=
  (if_neg hform).trans (if_neg (Bool.not_eq_true _ ▸ h))

/-- The keys of the table that a new one does not replace. -/
def State.otherKeys (s : State) (p : List Nat) : List (Nat × Nat) :=
  s.flash.usageKeys.filter (fun (e : Nat × Nat) => e.1 != field p 0 8)

/-- The state with a key entered and shown at the ports. -/
def State.keyEntered (s : State) (p : List Nat) : State :=
  ({ s with flash := { s.flash with usageKeys := s.otherKeys p ++ [(field p 0 8, field p 16 32)] } } : State).forEach
    (List.range s.nPorts) State.keyShow

theorem State.cmdUsageKey_full {s : State} {c : Cmd} (h0 : field (s.payloadOf c) 8 1 = 0) (h1 : resv (s.payloadOf c) [(9, 7)] = false)
    (h : 64 ≤ (s.otherKeys (s.payloadOf c)).length) : s.cmdUsageKey c = s.finish c stKEY_TABLE_FULL :=
  (if_neg (by simp [h0, h1, bit])).trans (if_pos (by rw [h0]; simpa [bit, State.otherKeys] using h))

theorem State.cmdUsageKey_entered {s : State} {c : Cmd} (h0 : field (s.payloadOf c) 8 1 = 0) (h1 : resv (s.payloadOf c) [(9, 7)] = false)
    (h : (s.otherKeys (s.payloadOf c)).length < 64) : s.cmdUsageKey c = (s.keyEntered (s.payloadOf c)).finish c stOK := by
  have hset : (if bit (field (s.payloadOf c) 8 1) 0 then s.otherKeys (s.payloadOf c)
      else s.otherKeys (s.payloadOf c) ++ [(field (s.payloadOf c) 0 8, field (s.payloadOf c) 16 32)])
      = s.otherKeys (s.payloadOf c) ++ [(field (s.payloadOf c) 0 8, field (s.payloadOf c) 16 32)] := if_neg (by simp [h0, bit])
  refine (if_neg (by simp [h0, h1, bit])).trans ((if_neg (by rw [h0]; simpa [bit, State.otherKeys] using h)).trans ?_)
  unfold State.keyEntered
  rw [← hset]
  rfl

/-- The frame of SOFT_RESET, which alone of the commands can change the cause of reset. -/
theorem execSoftReset_eq {s u : State} {c : Cmd} (hw : Waiting s c opSOFT_RESET) (hk : s.cmdSoftReset c = u) :
    exec (.softReset c.ref) s = .next { u with aon := { s.aon with cause := u.aon.cause }, pending := s.pending } := by
  have hrun : s.runCmd c.ref opSOFT_RESET State.cmdSoftReset = u := by
    simp only [State.runCmd, hw.found, hw.turn, hw.cores, hw.admitted]
    simpa using hk
  show execSoftReset c.ref s = _
  unfold execSoftReset
  rw [if_pos hw.running, hrun]

/-- The state that SOFT_RESET resets: its completion is posted, and the partner is told. -/
def State.softEnded (s : State) (c : Cmd) : State :=
  let u := s.finish c stOK
  if u.pairUp then u.pairFault 3 0xFF else u

theorem State.softEnded_kept {s : State} {c : Cmd} (hs : c.ref.slot < 64) :
    (s.softEnded c).fuse = s.fuse ∧ (s.softEnded c).flash = s.flash := by
  have hrest := s.finish_rest hs stOK 0 []
  refine State.ite_both (fun t => t.fuse = s.fuse ∧ t.flash = s.flash) ?_ ?_
  · show (s.finish c stOK).fuse = s.fuse ∧ (s.finish c stOK).flash = s.flash
    rw [hrest]
    exact ⟨rfl, rfl⟩
  · rw [hrest]
    exact ⟨rfl, rfl⟩

theorem State.resetChip_memory (s : State) (a : Aon) : (s.resetChip a).fuse = s.fuse ∧ (s.resetChip a).flash = s.flash := ⟨rfl, rfl⟩

/-- Settles O44: the commands of the groups Session, Counters and Diagnostics that answer at once. -/
theorem serviceCommands : Obligations.ServiceCommands := by
  unfold Obligations.ServiceCommands
  refine ⟨fun s c hw => withCmd_finish (k := fun s c => s.finish c stOK 0 c.atTake) hw rfl,
    fun s c hw => withCmd_finish (k := State.cmdEcho) hw rfl, fun s c hw h0 h1 h2 => ?_, fun s c hw h0 h1 h2 h3 h4 => ?_,
    fun s c hw h0 h1 => ?_, fun s c hw => withCmd_finish (k := fun s c => (s.fltClear (field (s.payloadOf c) 0 8)).finish c stOK) hw rfl,
    fun s c hw h0 h1 => ⟨fun h => ?_, fun h => ?_⟩, fun s c hw => ⟨fun h => ?_, fun h => ?_⟩⟩
  · have hform := not_snapshotBad h0 h1 h2
    exact ⟨fun h => withCmd_finish (k := State.cmdSnapshot) hw (State.cmdSnapshot_pending hform h),
      fun h ha hn => withCmd_finish (k := State.cmdSnapshot) hw (State.cmdSnapshot_none hform h ha hn),
      fun h ha => withCmd_finish (k := State.cmdSnapshot) hw (State.cmdSnapshot_taken hform h ha)⟩
  · have hform : ¬ dropReadBad (s.payloadOf c) := by
      rintro (h | h | h | h | h)
      · exact Nat.not_le.2 h0 h
      · simp [h1] at h
      · exact h2 h
      · exact Nat.not_lt.2 h3 h
      · exact h h4
    exact ⟨fun h => withCmd_finish (k := State.cmdDropRead) hw (State.cmdDropRead_empty hform h),
      fun h => withCmd_finish (k := State.cmdDropRead) hw (State.cmdDropRead_sent hform h)⟩
  · have hform : ¬ (resv (s.payloadOf c) [(12, 4)] = true ∨ field (s.payloadOf c) 0 8 % 64 ≠ 0) := by
      rintro (h | h)
      · simp [h0] at h
      · exact h h1
    exact ⟨fun h => withCmd_finish (k := State.cmdJournalRead) hw (State.cmdJournalRead_sent hform h),
      fun h => withCmd_finish (k := State.cmdJournalRead) hw (State.cmdJournalRead_lost hform h)⟩
  · exact withCmd_finish (k := State.cmdUsageKey) hw (State.cmdUsageKey_full h0 h1 h)
  · exact withCmd_finish (k := State.cmdUsageKey) hw (State.cmdUsageKey_entered h0 h1 h)
  · have hbad : s.cmdSoftReset c = s.finish c stBAD_PARAM := if_pos h
    exact ⟨_, execSoftReset_eq hw hbad, (s.finish_completed hw.slot stBAD_PARAM 0 []).framed _ _⟩
  · have hreset : s.cmdSoftReset c = (s.softEnded c).resetChip { (s.softEnded c).aon with cause := rcSOFT } := if_neg (not_not.2 h)
    obtain ⟨hfuse, hflash⟩ := s.softEnded_kept hw.slot
    obtain ⟨-, hpin, hsoft, -, -⟩ := (s.softEnded c).resetChip_cause (a := { (s.softEnded c).aon with cause := rcSOFT }) (c := rcSOFT) rfl
    have hexec := execSoftReset_eq hw hreset
    obtain ⟨hfuse', hflash'⟩ := (s.softEnded c).resetChip_memory { (s.softEnded c).aon with cause := rcSOFT }
    have hmode := (s.softEnded c).resetChip_mode { (s.softEnded c).aon with cause := rcSOFT }
    generalize (s.softEnded c).resetChip { (s.softEnded c).aon with cause := rcSOFT } = t at hexec hpin hsoft hfuse' hflash' hmode
    have hsoft1 : t.get R.BTJ_RSTCAUSE_SOFT = 1 := hsoft
    have hpin0 : t.get R.BTJ_RSTCAUSE_PIN = 0 := hpin
    exact ⟨_, hexec, hmode, (State.framed_get ..).trans hsoft1, (State.framed_get ..).trans hpin0, hfuse'.trans hfuse, hflash'.trans hflash⟩

end Sys2Proof.Machine

/-! Transactions of the interrupt controller (R321–R332). -/

namespace Sys2Proof.Machine

/-! ## Bits and delivery -/

theorem State.putPend_pend (s : State) (src : Nat) (b : Bool) : (s.putPend src b).pend src = b := by
  have hlt : src % 32 < (R.HIC_PEND_PEND (src / 32)).width := Nat.mod_lt _ (by decide)
  cases b
  · exact State.bit_put_clrBit s hlt _
  · exact State.bit_put_setBit s hlt _

theorem State.putInsvc_insvc (s : State) (src : Nat) : (s.putInsvc src true).insvc src = true := by
  have hlt : src % 32 < (R.HIC_INSVC_INSVC (src / 32)).width := Nat.mod_lt _ (by decide)
  exact State.bit_put_setBit s hlt _

theorem State.insvc_congr {s t : State} {src : Nat} (h : t.get (R.HIC_INSVC_INSVC (src / 32)) = s.get (R.HIC_INSVC_INSVC (src / 32))) :
    t.insvc src = s.insvc src := congrArg (bit · (src % 32)) h

theorem State.enab_congr {s t : State} {src : Nat} (h : t.get (R.HIC_EN_EN (src / 32)) = s.get (R.HIC_EN_EN (src / 32))) :
    t.enab src = s.enab src := congrArg (bit · (src % 32)) h

/-- A look at a source's delivery moves the fields of the delivery alone. -/
theorem State.settle_get (s : State) {src : Nat} {f : Fld} (hcur : f.key ≠ (R.HIC_ROUTE_CUR src).key)
    (hredir : f.key ≠ (R.HIC_ROUTE_REDIR src).key) (hsleep : ∀ c < 6, f.key ≠ (R.HIC_CORE_SLEEP c).key) :
    (s.settle src).get f = s.get f :=
  (s.settle_writes src).kept f (forall_mem_settleFlds.2 ⟨hcur, hredir, hsleep⟩)

theorem settleFlds_inside {src : Nat} (hs : src < 192) : ∀ g ∈ settleFlds src, ¬ outside g.key :=
  fun g hg => deliveryFlds_inside (core := 0) hs (by decide) g (settleFlds_subset 0 src hg)

/-- A source that rings is pending, where it is one of the edge sources. -/
theorem State.ring_pend {s : State} {src : Nat} (he : hicExists src = true) (hl : s.isLevel src = false) : (s.ring src).pend src = true := by
  unfold State.ring
  rw [if_pos (by simp [he, hl]), State.settle_pend _ (hicExists_lt he), State.putPend_pend]

theorem State.ring_kept (s : State) {src : Nat} (hs : src < 192) :
    RegsKeptOutside [] s (s.ring src) ∧ s.ring src = { s with regs := (s.ring src).regs, hic := (s.ring src).hic } :=
  ⟨(s.ring_writes 0 src).keptOutside (deliveryFlds_inside hs (by decide)), (s.ring_writes 0 src).rest⟩

/-- A status bit of the controller or of a core that is set: the bit, and the ring of its event. -/
theorem State.hicStat_flag (s : State) {f : Fld} (hw : f.width = 1) (hf : ∀ g ∈ deliveryFlds 0 srcHIC, f.key ≠ g.key) :
    (s.hicStat f).flag f = true := by
  unfold State.hicStat State.raise
  by_cases h : s.flag f = true
  · rwa [if_pos h]
  · rw [if_neg h, State.flag, (State.ring_writes _ 0 srcHIC).kept f hf]
    exact s.flag_put_self hw 1

theorem State.hicStat_writes (s : State) (f : Fld) : HicWrites (f :: deliveryFlds 0 srcHIC) s (s.hicStat f) := by
  unfold State.hicStat State.raise
  split
  · exact .refl _ s
  · exact (HicWrites.put s 1 (List.mem_cons_self ..)).trans ((State.ring_writes _ 0 srcHIC).mono (List.subset_cons_self ..))

theorem State.hicStat_kept (s : State) {f : Fld} (hf : ¬ outside f.key) :
    RegsKeptOutside [] s (s.hicStat f) ∧ s.hicStat f = { s with regs := (s.hicStat f).regs, hic := (s.hicStat f).hic } :=
  ⟨(s.hicStat_writes f).keptOutside (List.forall_mem_cons.2 ⟨hf, deliveryFlds_inside (by decide) (by decide)⟩), (s.hicStat_writes f).rest⟩

/-- What a status bit sets beside itself is no service. -/
theorem State.hicStat_insvc (s : State) {f : Fld} {src : Nat} (hf : (R.HIC_INSVC_INSVC (src / 32)).key ≠ f.key)
    (hd : ¬ deliveryKey (R.HIC_INSVC_INSVC (src / 32)).key) : (s.hicStat f).insvc src = s.insvc src :=
  State.insvc_congr ((s.hicStat_writes f).kept _ (List.forall_mem_cons.2 ⟨hf, fun g hg he =>
    hd (he ▸ deliveryFlds_key (by decide) (by decide) g hg)⟩))

/-! ## The words of a transaction -/

/-- A word with one bit set names one source. -/
theorem members_bit {n b : Nat} (h : b < n) : members n (2 ^ b) = [b] := by
  have hbit : (fun i => bit (2 ^ b) i) = fun i => i == b := by
    funext i
    rw [bit, beq_eq_decide, ← Nat.testBit_eq_decide_div_mod_eq, Nat.testBit_two_pow]
    simp only [eq_comm (a := b), beq_eq_decide]
  unfold members
  rw [hbit, List.filter_beq, List.count_range]
  simp [h]

theorem word_source (src : Nat) : (members 32 (2 ^ (src % 32))).map (fun b => 32 * (src / 32) + b) = [src] := by
  rw [members_bit (Nat.mod_lt _ (by decide))]
  simp [Nat.div_add_mod]

theorem wordSources_one {core src : Nat} (hc : core < 4) (he : hicExists src = true) :
    wordSources core (src / 32) (2 ^ (src % 32)) = [src] := by
  have hopen : isOpenCore core = false := by simp [isOpenCore]; omega
  unfold wordSources
  rw [word_source]
  simp [he, hopen]

/-! ## Claims (R325) -/

/-- A source as its claim takes it into service. -/
def State.claimTaken (s : State) (core src : Nat) : State :=
  let s := ((s.putInsvc src true).putPend src false).put (R.HIC_ROUTE_CLAIMER src) core
  if s.flag (R.HIC_ROUTE_CLASS src) then s.put (R.HIC_CORE_INFAST core) 1 else s

theorem State.claim_taken {s : State} {core src : Nat} (he : hicExists src = true) (hd : s.deliverable src core = true) :
    s.claim core src = (s.claimTaken core src).settle src := if_pos (by simp [he, hd])

theorem State.claim_refused {s : State} {core src : Nat} (hd : s.deliverable src core = false) :
    s.claim core src = s.hicStat (R.HIC_CORE_BAD_CLAIM core) := if_neg (by simp [hd])

theorem State.claimTaken_writes (s : State) (core src : Nat) : HicWrites [R.HIC_INSVC_INSVC (src / 32), R.HIC_PEND_PEND (src / 32),
    R.HIC_ROUTE_CLAIMER src, R.HIC_CORE_INFAST core] s (s.claimTaken core src) := by
  unfold State.claimTaken
  refine HicWrites.trans (.trans (.trans ((s.putInsvc_writes src true).mono ?_) ((State.putPend_writes _ src false).mono ?_)) (.put _ _ ?_))
    (.ite (.put _ _ ?_) (.refl _ _)) <;> simp

/-- The service begins: in service, not pending, claimed by its core. -/
theorem State.claimTaken_shown (s : State) {core src : Nat} (hc : core < 6) (_ : src < 192) :
    (s.claimTaken core src).insvc src = true ∧ (s.claimTaken core src).pend src = false ∧
      (s.claimTaken core src).get (R.HIC_ROUTE_CLAIMER src) = core ∧ (s.claimTaken core src).flag (R.HIC_CORE_INFAST core)
        = (s.flag (R.HIC_CORE_INFAST core) || s.flag (R.HIC_ROUTE_CLASS src)) := by
  have hbits : ((s.putInsvc src true).putPend src false).insvc src = true := by
    refine (State.insvc_congr (((s.putInsvc src true).putPend_writes src false).kept _ ?_)).trans (s.putInsvc_insvc src)
    simp only [List.mem_singleton, forall_eq, Fld.key, R.HIC_INSVC_INSVC, R.HIC_PEND_PEND]
    omega
  have hpend : ((s.putInsvc src true).putPend src false).pend src = false := State.putPend_pend _ src false
  have hwrites := (((s.putInsvc_writes src true).append ((s.putInsvc src true).putPend_writes src false))).kept
  have hclass : ((s.putInsvc src true).putPend src false).get (R.HIC_ROUTE_CLASS src) = s.get (R.HIC_ROUTE_CLASS src) := hwrites _ (by
    simp only [List.cons_append, List.nil_append, List.mem_cons, List.not_mem_nil, or_false, forall_eq_or_imp, forall_eq, Fld.key,
      R.HIC_ROUTE_CLASS, R.HIC_INSVC_INSVC, R.HIC_PEND_PEND]
    omega)
  have hfast : ((s.putInsvc src true).putPend src false).get (R.HIC_CORE_INFAST core) = s.get (R.HIC_CORE_INFAST core) := hwrites _ (by
    simp only [List.cons_append, List.nil_append, List.mem_cons, List.not_mem_nil, or_false, forall_eq_or_imp, forall_eq, Fld.key,
      R.HIC_CORE_INFAST, R.HIC_INSVC_INSVC, R.HIC_PEND_PEND]
    omega)
  unfold State.claimTaken
  generalize (s.putInsvc src true).putPend src false = u at hbits hpend hclass hfast
  have hins (v : State) (g : Fld) (x : Nat) (hg : g = R.HIC_ROUTE_CLAIMER src ∨ g = R.HIC_CORE_INFAST core) :
      (v.put g x).insvc src = v.insvc src ∧ (v.put g x).pend src = v.pend src := by
    rcases hg with rfl | rfl <;>
      refine ⟨congrArg (bit · (src % 32)) (State.get_put_ne _ _ ?_), congrArg (bit · (src % 32)) (State.get_put_ne _ _ ?_)⟩ <;>
      simp only [Fld.key, R.HIC_INSVC_INSVC, R.HIC_PEND_PEND, R.HIC_ROUTE_CLAIMER, R.HIC_CORE_INFAST] <;> omega
  obtain ⟨hins1, hpend1⟩ := hins u (R.HIC_ROUTE_CLAIMER src) core (.inl rfl)
  obtain ⟨hins2, hpend2⟩ := hins (u.put (R.HIC_ROUTE_CLAIMER src) core) (R.HIC_CORE_INFAST core) 1 (.inr rfl)
  have hclaimer : (u.put (R.HIC_ROUTE_CLAIMER src) core).get (R.HIC_ROUTE_CLAIMER src) = core :=
    (State.get_put_self ..).trans (Nat.mod_eq_of_lt (show core < 8 by omega))
  have hclass1 : (u.put (R.HIC_ROUTE_CLAIMER src) core).flag (R.HIC_ROUTE_CLASS src) = s.flag (R.HIC_ROUTE_CLASS src) :=
    (State.flag_put_ne _ _ (by simp [Fld.key, R.HIC_ROUTE_CLASS, R.HIC_ROUTE_CLAIMER])).trans (congrArg (· == 1) hclass)
  have hfast1 : (u.put (R.HIC_ROUTE_CLAIMER src) core).flag (R.HIC_CORE_INFAST core) = s.flag (R.HIC_CORE_INFAST core) :=
    (State.flag_put_ne _ _ (by simp only [Fld.key, R.HIC_CORE_INFAST, R.HIC_ROUTE_CLAIMER]; omega)).trans (congrArg (· == 1) hfast)
  dsimp only
  rw [hclass1]
  cases hcl : s.flag (R.HIC_ROUTE_CLASS src)
  · rw [if_neg (by simp), hins1, hpend1, hfast1]
    exact ⟨hbits, hpend, hclaimer, (Bool.or_false _).symm⟩
  · rw [if_pos rfl, hins2, hpend2, hins1, hpend1]
    refine ⟨hbits, hpend, (State.get_put_ne _ _ ?_).trans hclaimer, (State.flag_put_self _ rfl 1).trans (Bool.or_true _).symm⟩
    simp only [Fld.key, R.HIC_CORE_INFAST, R.HIC_ROUTE_CLAIMER]
    omega

/-! ## Writes of the routes, the enables and the pending bits (R324, R327, R328) -/

/-- A source's route as its four fields are written, and its delivery formed from it. -/
def State.routed (s : State) (src v : Nat) : State :=
  let s := (((s.put (R.HIC_ROUTE_CORE src) v).put (R.HIC_ROUTE_ALT src) (v / 8)).put (R.HIC_ROUTE_CLASS src) (v / 64)).put
    (R.HIC_ROUTE_WAKE src) (v / 128)
  let s := (s.put (R.HIC_ROUTE_CUR src) (s.routeTarget src)).put (R.HIC_ROUTE_REDIR src) 0
  { s with hic := { s.hic with redirect := s.hic.redirect.filter (· != src) } }

theorem State.routeWrite_eq {s : State} {core src : Nat} (v : Nat) (hc : core < 4) (he : hicExists src = true) :
    s.routeWrite core src v = (s.routed src v).settle src := by
  have hopen : isOpenCore core = false := by simp [isOpenCore]; omega
  exact (if_neg (by simp [he])).trans ((if_neg (by simp [hopen])).trans (if_neg (by simp [hopen])))

/-- The fields of a source's route, as a write of it leaves them. -/
def routeFlds (src : Nat) : List Fld := [R.HIC_ROUTE_CORE src, R.HIC_ROUTE_ALT src, R.HIC_ROUTE_CLASS src, R.HIC_ROUTE_WAKE src,
  R.HIC_ROUTE_CUR src, R.HIC_ROUTE_REDIR src]

theorem State.routed_writes (s : State) (src v : Nat) : HicWrites (routeFlds src) s (s.routed src v) := by
  unfold State.routed
  refine HicWrites.trans (.trans (.trans (.trans (.trans (.trans (.put s v ?_) (.put _ _ ?_)) (.put _ _ ?_)) (.put _ _ ?_)) (.put _ _ ?_))
    (.put _ _ ?_)) (.hic _ _ _) <;> simp [routeFlds]

theorem State.routed_shown (s : State) (src v : Nat) : (s.routed src v).get (R.HIC_ROUTE_CORE src) = v % 8 ∧
    (s.routed src v).get (R.HIC_ROUTE_ALT src) = v / 8 % 8 ∧ (s.routed src v).get (R.HIC_ROUTE_CLASS src) = v / 64 % 2 ∧
    (s.routed src v).get (R.HIC_ROUTE_WAKE src) = v / 128 % 2 := by
  generalize ht : (((s.put (R.HIC_ROUTE_CORE src) v).put (R.HIC_ROUTE_ALT src) (v / 8)).put (R.HIC_ROUTE_CLASS src) (v / 64)).put
    (R.HIC_ROUTE_WAKE src) (v / 128) = t
  have hrouted (f : Fld) (hcur : f.key ≠ (R.HIC_ROUTE_CUR src).key) (hredir : f.key ≠ (R.HIC_ROUTE_REDIR src).key) :
      (s.routed src v).get f = t.get f := by
    subst ht
    exact (State.get_put_ne _ _ hredir).trans (State.get_put_ne _ _ hcur)
  refine ⟨?_, ?_, ?_, ?_⟩ <;> rw [hrouted _ (by simp [Fld.key, R.HIC_ROUTE_CORE, R.HIC_ROUTE_ALT, R.HIC_ROUTE_CLASS, R.HIC_ROUTE_WAKE,
    R.HIC_ROUTE_CUR]) (by simp [Fld.key, R.HIC_ROUTE_CORE, R.HIC_ROUTE_ALT, R.HIC_ROUTE_CLASS, R.HIC_ROUTE_WAKE, R.HIC_ROUTE_REDIR]), ← ht] <;>
    simp [State.get_put, Fld.key, R.HIC_ROUTE_CORE, R.HIC_ROUTE_ALT, R.HIC_ROUTE_CLASS, R.HIC_ROUTE_WAKE]

/-- A source's enable written, and its delivery looked at. -/
def State.enabled (s : State) (src : Nat) (b : Bool) : State :=
  (if b then s.setIn (R.HIC_EN_EN (src / 32)) (src % 32) else s.clrIn (R.HIC_EN_EN (src / 32)) (src % 32)).settle src

theorem State.enabled_shown (s : State) {src : Nat} (b : Bool) (hs : src < 192) :
    (s.enabled src b).enab src = b ∧ HicWrites (R.HIC_EN_EN (src / 32) :: settleFlds src) s (s.enabled src b) := by
  have hlt : src % 32 < (R.HIC_EN_EN (src / 32)).width := Nat.mod_lt _ (by decide)
  have hkeep (u : State) : (u.settle src).enab src = u.enab src := State.enab_congr (u.settle_get
    (by simp only [Fld.key, R.HIC_EN_EN, R.HIC_ROUTE_CUR]; omega) (by simp only [Fld.key, R.HIC_EN_EN, R.HIC_ROUTE_REDIR]; omega)
    (fun c hc => by simp only [Fld.key, R.HIC_EN_EN, R.HIC_CORE_SLEEP]; omega))
  have hwrites (x : Nat) : HicWrites (R.HIC_EN_EN (src / 32) :: settleFlds src) s ((s.put (R.HIC_EN_EN (src / 32)) x).settle src) :=
    (HicWrites.put s x (List.mem_cons_self ..)).trans ((State.settle_writes _ src).mono (List.subset_cons_self ..))
  cases b
  · exact ⟨(hkeep _).trans (State.bit_put_clrBit s hlt _), hwrites _⟩
  · exact ⟨(hkeep _).trans (State.bit_put_setBit s hlt _), hwrites _⟩

/-- A pending bit that is cleared, and the delivery that ends with it. -/
theorem State.cleared_shown (s : State) {src : Nat} (hs : src < 192) : ((s.putPend src false).settle src).pend src = false ∧
    HicWrites (deliveryFlds 0 src) s ((s.putPend src false).settle src) :=
  ⟨(State.settle_pend _ hs).trans (s.putPend_pend src false),
    ((s.putPend_writes src false).mono (by simp [deliveryFlds])).trans ((State.settle_writes _ src).mono (settleFlds_subset 0 src))⟩

/-- Settles O48: what the transactions of a core that runs do, and that those of another do nothing. -/
theorem hicTransactions : Obligations.HicTransactions := by
  unfold Obligations.HicTransactions
  refine ⟨fun s core w v hc => ?_, fun s core src hr hc hlt => ⟨fun h0 h1 hopen => ?_, fun h => ?_⟩,
    fun s core src hr hc he => ⟨fun hd => ?_, fun hd => ?_⟩, fun s core src v hr hc h4 he => ?_,
    fun s core src hr hc h4 he => ⟨?_, ?_, fun hl => ⟨?_, ?_⟩, fun hl => ⟨?_, ?_⟩⟩⟩
  · have idle (k : State → State) : coreEvent s (fun s => if s.coreRuns core then k s else s) = .next s :=
      coreEvent_of_noop fun _ => congrArg s.framed (if_neg (by simp [hc]))
    have hclaim : execHicClaim core w v s = .next s := coreEvent_of_noop fun _ => congrArg s.framed (if_neg (by simp [hc]))
    exact ⟨(show execHicDoorbell core v s = _ from idle _), hclaim, (show execHicEoi core v s = _ from idle _),
      (show execHicRouteWrite core w v s = _ from idle _), (show execHicPendSet core w v s = _ from idle _),
      (show execHicPendClr core w v s = _ from idle _), (show execHicEnSet core w v s = _ from idle _),
      (show execHicEnClr core w v s = _ from idle _), (show execHicExtWrite core w v s = _ from idle _)⟩
  · have hcore := State.coreRuns_lt hc
    have hring : s.doorbell core src = s.ring src := by
      unfold State.doorbell
      rw [Nat.mod_eq_of_lt hlt]
      exact if_pos (by simp only [isOpenCore, decide_eq_true_eq]; split_ifs <;> simp <;> omega)
    obtain ⟨hkept, hrest⟩ := s.ring_kept (src := src) (by omega)
    refine ⟨_, (show execHicDoorbell core src s = _ from coreEvent_next hr ((if_pos hc).trans hring) (by rw [hrest]) (by rw [hrest])), ?_,
      hkept, hrest⟩
    exact State.ring_pend (by simp [hicExists]; omega) (by simp [State.isLevel]; omega)
  · have hcore := State.coreRuns_lt hc
    have hbad : s.doorbell core src = s.hicStat R.HIC_STAT_BADDB := by
      unfold State.doorbell
      rw [Nat.mod_eq_of_lt hlt]
      exact if_neg (by simp only [isOpenCore, decide_eq_true_eq]; split_ifs <;> simp <;> omega)
    obtain ⟨hkept, hrest⟩ := s.hicStat_kept (f := R.HIC_STAT_BADDB) (by simp [outside, Fld.key, R.HIC_STAT_BADDB])
    exact ⟨_, (show execHicDoorbell core src s = _ from coreEvent_next hr ((if_pos hc).trans hbad) (by rw [hrest]) (by rw [hrest])),
      s.hicStat_flag rfl (by decide), hkept, hrest⟩
  · have hcore := State.coreRuns_lt hc
    have hs := hicExists_lt he
    obtain ⟨hins, hpend, hclaimer, hfast⟩ := s.claimTaken_shown hcore hs
    have hall := (s.claimTaken_writes core src).append ((s.claimTaken core src).settle_writes src)
    have hclaim : s.forEach ((members 32 (2 ^ (src % 32))).map (fun b => 32 * (src / 32) + b)) (fun s src => s.claim core src)
        = (s.claimTaken core src).settle src := by rw [word_source]; exact State.claim_taken he hd
    have hexec : exec (.hicClaim core (src / 32) (2 ^ (src % 32))) s = .next ((s.claimTaken core src).settle src) :=
      show execHicClaim core (src / 32) (2 ^ (src % 32)) s = _ from
        coreEvent_next hr ((if_pos (by simp [hc]; omega)).trans hclaim) (by rw [hall.rest]) (by rw [hall.rest])
    generalize s.claimTaken core src = u at *
    refine ⟨_, hexec, (State.insvc_congr (u.settle_get ?_ ?_ ?_)).trans hins, (u.settle_pend hs).trans hpend,
      (u.settle_get ?_ ?_ ?_).trans hclaimer, (congrArg (· == 1) (u.settle_get ?_ ?_ ?_)).trans hfast,
      hall.keptOutside (List.forall_mem_append.2 ⟨?_, settleFlds_inside hs⟩), hall.rest⟩
    all_goals
      simp only [List.mem_cons, List.not_mem_nil, or_false, forall_eq_or_imp, forall_eq, outside, Fld.key, R.HIC_INSVC_INSVC,
        R.HIC_PEND_PEND, R.HIC_ROUTE_CLAIMER, R.HIC_CORE_INFAST, R.HIC_ROUTE_CUR, R.HIC_ROUTE_REDIR, R.HIC_CORE_SLEEP]
      omega
  · have hcore := State.coreRuns_lt hc
    have hs := hicExists_lt he
    obtain ⟨hkept, hrest⟩ := s.hicStat_kept (f := R.HIC_CORE_BAD_CLAIM core) (by simp only [outside, Fld.key, R.HIC_CORE_BAD_CLAIM]; omega)
    have hclaim : s.forEach ((members 32 (2 ^ (src % 32))).map (fun b => 32 * (src / 32) + b)) (fun s src => s.claim core src)
        = s.hicStat (R.HIC_CORE_BAD_CLAIM core) := by rw [word_source]; exact State.claim_refused hd
    refine ⟨_, (show execHicClaim core (src / 32) (2 ^ (src % 32)) s = _ from
      coreEvent_next hr ((if_pos (by simp [hc]; omega)).trans hclaim) (by rw [hrest]) (by rw [hrest])), s.hicStat_flag rfl (forall_mem_deliveryFlds.2 ⟨?_, ?_, ?_, ?_, fun d hd => ?_⟩),
      s.hicStat_insvc ?_ ?_, hkept⟩
    all_goals
      simp only [deliveryKey, Fld.key, R.HIC_CORE_BAD_CLAIM, R.HIC_INSVC_INSVC, R.HIC_PEND_PEND, R.HIC_CORE_INFAST, R.HIC_ROUTE_CUR,
        R.HIC_ROUTE_REDIR, R.HIC_CORE_SLEEP, srcHIC]
      omega
  · have hs := hicExists_lt he
    obtain ⟨h0, h1, h2, h3⟩ := s.routed_shown src v
    have hall := (s.routed_writes src v).append ((s.routed src v).settle_writes src)
    have hexec : exec (.hicRouteWrite core src v) s = .next ((s.routed src v).settle src) :=
      show execHicRouteWrite core src v s = _ from
        coreEvent_next hr ((if_pos hc).trans (State.routeWrite_eq v h4 he)) (by rw [hall.rest]) (by rw [hall.rest])
    generalize s.routed src v = u at *
    refine ⟨_, hexec, (u.settle_get ?_ ?_ ?_).trans h0, (u.settle_get ?_ ?_ ?_).trans h1, (u.settle_get ?_ ?_ ?_).trans h2,
      (u.settle_get ?_ ?_ ?_).trans h3, hall.keptOutside (List.forall_mem_append.2 ⟨?_, settleFlds_inside hs⟩)⟩
    all_goals
      simp only [routeFlds, List.mem_cons, List.not_mem_nil, or_false, forall_eq_or_imp, forall_eq, outside, Fld.key, R.HIC_ROUTE_CORE,
        R.HIC_ROUTE_ALT, R.HIC_ROUTE_CLASS, R.HIC_ROUTE_WAKE, R.HIC_ROUTE_CUR, R.HIC_ROUTE_REDIR, R.HIC_CORE_SLEEP]
      omega
  all_goals have hs := hicExists_lt he
  · have hset : s.enSet core (src / 32) (2 ^ (src % 32)) = s.enabled src true := by
      unfold State.enSet
      rw [wordSources_one h4 he]
      rfl
    obtain ⟨hen, hall⟩ := s.enabled_shown true hs
    exact ⟨_, (show execHicEnSet core (src / 32) (2 ^ (src % 32)) s = _ from
      coreEvent_next hr ((if_pos hc).trans hset) (by rw [hall.rest]) (by rw [hall.rest])), hen,
      hall.keptOutside (List.forall_mem_cons.2 ⟨by simp only [outside, Fld.key, R.HIC_EN_EN]; omega, settleFlds_inside hs⟩)⟩
  · have hset : s.enClr core (src / 32) (2 ^ (src % 32)) = s.enabled src false := by
      unfold State.enClr
      rw [wordSources_one h4 he]
      rfl
    obtain ⟨hen, hall⟩ := s.enabled_shown false hs
    exact ⟨_, (show execHicEnClr core (src / 32) (2 ^ (src % 32)) s = _ from
      coreEvent_next hr ((if_pos hc).trans hset) (by rw [hall.rest]) (by rw [hall.rest])), hen,
      hall.keptOutside (List.forall_mem_cons.2 ⟨by simp only [outside, Fld.key, R.HIC_EN_EN]; omega, settleFlds_inside hs⟩)⟩
  · have hset : s.pendSet core (src / 32) (2 ^ (src % 32)) = s.ring src := by
      unfold State.pendSet
      rw [wordSources_one h4 he]
      rfl
    obtain ⟨hkept, hrest⟩ := s.ring_kept hs
    exact ⟨_, (show execHicPendSet core (src / 32) (2 ^ (src % 32)) s = _ from
      coreEvent_next hr ((if_pos hc).trans hset) (by rw [hrest]) (by rw [hrest])), State.ring_pend he hl, hkept⟩
  · have hset : s.pendClr core (src / 32) (2 ^ (src % 32)) = (s.putPend src false).settle src := by
      unfold State.pendClr
      rw [wordSources_one h4 he]
      exact if_neg (by simp [hl])
    obtain ⟨hpend, hall⟩ := s.cleared_shown hs
    exact ⟨_, (show execHicPendClr core (src / 32) (2 ^ (src % 32)) s = _ from
      coreEvent_next hr ((if_pos hc).trans hset) (by rw [hall.rest]) (by rw [hall.rest])), hpend,
      hall.keptOutside (deliveryFlds_inside hs (by decide))⟩
  · have hset : s.pendSet core (src / 32) (2 ^ (src % 32)) = s := by
      unfold State.pendSet
      rw [wordSources_one h4 he]
      exact if_neg (by simp [hl])
    exact show execHicPendSet core (src / 32) (2 ^ (src % 32)) s = _ from coreEvent_next hr ((if_pos hc).trans hset) rfl rfl
  · have hset : s.pendClr core (src / 32) (2 ^ (src % 32)) = s := by
      unfold State.pendClr
      rw [wordSources_one h4 he]
      exact if_pos hl
    exact show execHicPendClr core (src / 32) (2 ^ (src % 32)) s = _ from coreEvent_next hr ((if_pos hc).trans hset) rfl rfl

end Sys2Proof.Machine

/-! A redirect timer of a source that does not exist (R321, R329). -/

namespace Sys2Proof.Machine

/-- A running state in which source 20,000, that no table lists, is pending and enabled for core 0, which sleeps, and awaits its
redirection to core 1. -/
def farSource : State :=
  let s : State := { State.reset with mode := .idle, hic := { State.reset.hic with redirect := [20000] } }
  (((s.put (R.HIC_PEND_PEND 625) 1).put (R.HIC_EN_EN 625) 1).put (R.HIC_ROUTE_ALT 20000) 1).put (R.HIC_CORE_SLEEP 0) 1

/-- The redirection of that source writes a register outside the interrupt controller. -/
theorem farSource_redirected : (farSource.redirectNow 20000).get (R.HIC_ROUTE_CUR 20000) = 1 ∧ farSource.get (R.HIC_ROUTE_CUR 20000) = 0 := by
  decide +kernel

/-- Refutes O50: the index of a redirect timer is not bounded, and at source 20,000 the words of its route lie outside the interrupt
controller, so that the redirection of that source changes a register there. -/
theorem not_hicEvents : ¬ Obligations.HicEvents := by
  unfold Obligations.HicEvents
  rintro ⟨-, -, hredirect, -⟩
  obtain ⟨hmoved, hheld⟩ := farSource_redirected
  obtain ⟨t, hexec, -, -, -, -, hkept⟩ := hredirect farSource 20000 0 (by decide +kernel) (by decide +kernel) (by decide +kernel)
    (by decide +kernel) (by decide +kernel) (by decide +kernel)
  have hnext : exec (.redirectTimeout 20000) farSource = .next (farSource.framed (farSource.redirectNow 20000)) :=
    show execRedirectTimeout 20000 farSource = _ from coreEvent_framed (by decide +kernel) _
  obtain rfl : t = farSource.framed (farSource.redirectNow 20000) := by
    rw [hnext] at hexec
    exact (Host.Outcome.next.inj hexec).symm
  have hsame := hkept (R.HIC_ROUTE_CUR 20000) (by simp [outside, Fld.key, R.HIC_ROUTE_CUR]) (by simp)
  rw [State.get_framed, hmoved, hheld] at hsame
  exact Nat.one_ne_zero hsame

end Sys2Proof.Machine

/-! The DRAM controller's commands (R338–R347). -/

namespace Sys2Proof.Machine

theorem State.nChans_le (s : State) : s.nChans ≤ 4 := by
  unfold State.nChans
  split <;> omega

/-- A channel that runs is present, its state is RUN, and no alert holds it. -/
theorem State.dramRuns_iff (s : State) (c : Nat) :
    s.dramRuns c = true ↔ c < s.nChans ∧ s.get (R.DRC_CH_STAT_STATE c) = 2 ∧ (s.chan c).low = false := by
  simp [State.dramRuns, and_assoc]

theorem State.dramRuns_lt {s : State} {c : Nat} (h : s.dramRuns c = true) : c < 4 :=
  lt_of_lt_of_le ((s.dramRuns_iff c).1 h).1 s.nChans_le

theorem State.onChan_chan_self (s : State) {c : Nat} (h : c < s.drc.chans.length) (f : DrcChan → DrcChan) :
    (s.onChan c f).chan c = f (s.chan c) := by
  simp [State.chan, State.onChan, modifyNth_eq_modify, List.getD_eq_getElem?_getD, h]

/-- A channel held low is one of the list. -/
theorem State.chan_lt {s : State} {c : Nat} (h : (s.chan c).low = true) : c < s.drc.chans.length := by
  by_contra hc
  rw [State.chan, List.getD_eq_getElem?_getD, List.getElem?_eq_none (Nat.not_lt.1 hc)] at h
  exact Bool.false_ne_true h

theorem State.chan_congr {s t : State} (h : t.drc = s.drc) (c : Nat) : t.chan c = s.chan c := by rw [State.chan, State.chan, h]

/-- A status bit that is raised writes itself and what its event's ring writes. -/
theorem State.raise_writes (s : State) (f : Fld) (src : Nat) : HicWrites (f :: deliveryFlds 0 src) s (s.raise f src) := by
  unfold State.raise
  split
  · exact .refl _ s
  · exact (HicWrites.put s 1 (List.mem_cons_self ..)).trans ((State.ring_writes _ 0 src).mono (List.subset_cons_self ..))

/-! ## Refreshes, calibrations and alerts (R343–R345) -/

/-- A channel whose alert is counted and shown. -/
def State.alerted (s : State) (c : Nat) : State := (s.bump (R.DRC_CH_ALERT_ALERTS c)).raise (R.DRC_CH_STAT_ALERT c) srcDRC

theorem State.alerted_now (s : State) (c : Nat) : (s.alerted c).now = s.now := by
  unfold State.alerted
  rw [State.raise_rest]
  rfl

theorem State.alerted_shown (s : State) {c : Nat} (hc : c < 4) :
    (s.alerted c).get (R.DRC_CH_ALERT_ALERTS c) = min (s.get (R.DRC_CH_ALERT_ALERTS c) + 1) (2 ^ 16 - 1) ∧
      (s.alerted c).flag (R.DRC_CH_STAT_ALERT c) = true ∧
      RegsKeptOutside [R.DRC_CH_ALERT_ALERTS c, R.DRC_CH_STAT_ALERT c] s (s.alerted c) ∧
      s.alerted c = { s with regs := (s.alerted c).regs, hic := (s.alerted c).hic } := by
  have hout : outside (R.DRC_CH_ALERT_ALERTS c).key := by simp only [outside, Fld.key, R.DRC_CH_ALERT_ALERTS]; omega
  refine ⟨?_, State.raise_flag srcDRC (by simp only [outside, Fld.key, R.DRC_CH_STAT_ALERT]; omega) Nat.one_pos,
    ((RegsKeptOutside.refl _ s).bump (by simp) 1).raise (by simp) srcDRC, ?_⟩
  · exact (State.raise_get srcDRC hout (by simp only [Fld.key, R.DRC_CH_ALERT_ALERTS, R.DRC_CH_STAT_ALERT]; omega)).trans (s.get_bump_self _ 1)
  · exact ((s.bump (R.DRC_CH_ALERT_ALERTS c)).raise_writes (R.DRC_CH_STAT_ALERT c) srcDRC).rest

/-- An alert that stops its channel. -/
theorem State.alertFall_held {s : State} {c : Nat}
    (h : (s.chan c).attempt = 0 ∨ (s.chan c).replayT + 64 < s.now ∨ (s.chan c).attempt < 3) :
    s.alertFall c = (s.alerted c).onChan c (fun x => { x with low := true, fallT := s.now, attempt :=
      if 1 ≤ (s.chan c).attempt ∧ s.now ≤ (s.chan c).replayT + 64 then x.attempt + 1 else 1 }) := by
  have hnow := s.alerted_now c
  unfold State.alertFall
  dsimp only
  rw [← State.alerted, hnow]
  refine (if_neg (by simp; omega)).trans ?_
  simp only [decide_eq_true_eq]

/-- The alert of attempt 3's wake parts the channel. -/
theorem State.alertFall_parts {s : State} {c : Nat} (h : 3 ≤ (s.chan c).attempt) (hn : s.now ≤ (s.chan c).replayT + 64) :
    s.alertFall c = ((s.alerted c).raise (R.DRC_CH_STAT_REPLAY_FAIL c) srcDRC).report (32 + c) c 2 := by
  have hnow := s.alerted_now c
  unfold State.alertFall
  dsimp only
  rw [← State.alerted, hnow]
  exact if_pos (by simp; omega)

theorem emits_fold {α : Type} (s : State) (l : List α) (f : α → Emit) :
    l.foldl (fun (s : State) (e : α) => s.emit (f e)) s = { s with out := (l.map f).reverse ++ s.out } := by
  induction l generalizing s with
  | nil => rfl
  | cons x l ih =>
    rw [List.foldl_cons, ih]
    simp [State.emit]

/-- What a channel issues when its alert ends: precharge-all to every rank, then the commands of the window in their order. -/
def State.reissued (s : State) (c : Nat) : State :=
  let again := (s.chan c).cmds.filter (fun (e : Nat × Nat) => decide ((s.chan c).fallT ≤ e.2 + Config.tParAlertOn + 8))
  { s with out := again.map (fun (e : Nat × Nat) => .dram c e.1) ++ List.replicate (max 1 (field s.dramDesc 5 1)) (.dram c 3) ++ s.out }

theorem State.alertRise_eq (s : State) (c : Nat) : s.alertRise c =
    ((s.reissued c).onChan c
      (fun x => { x with low := false, replayT := min s.now (x.fallT + 192) })).bump (R.DRC_CH_ALERT_REPLAYS c) := by
  unfold State.alertRise State.forEach
  dsimp only
  rw [emits_fold s (List.range _) (fun _ => .dram c 3), emits_fold]
  simp [State.reissued, List.map_reverse, List.map_const']

/-! ## Scrubbing and relayout (R341, R347) -/

theorem scrub_clean (s : State) (c ca : Nat) {l : List Nat} (h : ∀ w ∈ l, eccJudge w = .clean) :
    l.foldl (fun (s : State) (w : Nat) => s.scrubWord c ca w) s = s := by
  induction l generalizing s with
  | nil => rfl
  | cons w l ih =>
    have hw : s.scrubWord c ca w = s := by
      unfold State.scrubWord
      rw [h w (by simp)]
    rw [List.foldl_cons, hw]
    exact ih s fun v hv => h v (by simp [hv])

/-- A single error of a scrubbed word: held, counted and shown. -/
def State.corrected (s : State) (c ca i : Nat) (syn : Nat × Nat × Nat × Nat) : State :=
  ((s.holdError c ca i syn).bump (R.DRC_CH_CNT_CE c)).raise (R.DRC_CH_STAT_CE c) srcDRC

theorem State.scrubWord_fixed (s : State) (c ca : Nat) {w i d : Nat} (h : eccJudge w = .fixed i d) :
    s.scrubWord c ca w = s.corrected c ca i (eccSyndrome w) := by
  unfold State.scrubWord
  rw [h]
  rfl

theorem State.holdError_kept (s : State) (c ca i : Nat) (syn : Nat × Nat × Nat × Nat) :
    RegsKept [R.DRC_CH_ERRADDR_CA c, R.DRC_CH_ERRSYN_SYN c, R.DRC_CH_ERRSYN_SYMBOL c] s (s.holdError c ca i syn) ∧
      s.holdError c ca i syn = { s with regs := (s.holdError c ca i syn).regs } := by
  unfold State.holdError
  split
  · exact ⟨.refl _ s, rfl⟩
  · exact ⟨(((RegsKept.refl _ s).put (by simp) _).put (by simp) _).put (by simp) _, rfl⟩

theorem State.holdError_shown {s : State} {c : Nat} (ca i : Nat) (syn : Nat × Nat × Nat × Nat) (h0 : s.flag (R.DRC_CH_STAT_CE c) = false)
    (h1 : s.flag (R.DRC_CH_STAT_UE c) = false) : (s.holdError c ca i syn).get (R.DRC_CH_ERRADDR_CA c) = ca % 2 ^ (R.DRC_CH_ERRADDR_CA c).width := by
  unfold State.holdError
  rw [if_neg (by simp [h0, h1]), State.get_put_ne _ _ (by simp [Fld.key, R.DRC_CH_ERRADDR_CA, R.DRC_CH_ERRSYN_SYMBOL]; omega),
    State.get_put_ne _ _ (by simp [Fld.key, R.DRC_CH_ERRADDR_CA, R.DRC_CH_ERRSYN_SYN]), State.get_put_self]

/-- What a correction shows and leaves alone. -/
theorem State.corrected_shown (s : State) {c : Nat} (ca i : Nat) (syn : Nat × Nat × Nat × Nat) (hc : c < 4) :
    (s.corrected c ca i syn).get (R.DRC_CH_CNT_CE c) = min (s.get (R.DRC_CH_CNT_CE c) + 1) (2 ^ 16 - 1) ∧
      (s.corrected c ca i syn).flag (R.DRC_CH_STAT_CE c) = true ∧
      (s.flag (R.DRC_CH_STAT_CE c) = false → s.flag (R.DRC_CH_STAT_UE c) = false →
        (s.corrected c ca i syn).get (R.DRC_CH_ERRADDR_CA c) = ca % 2 ^ (R.DRC_CH_ERRADDR_CA c).width) ∧
      (s.corrected c ca i syn).get (R.DRC_CH_STAT_STATE c) = s.get (R.DRC_CH_STAT_STATE c) ∧
      (s.corrected c ca i syn).get (R.DRC_CH_SIZE_MB c) = s.get (R.DRC_CH_SIZE_MB c) ∧
      (s.corrected c ca i syn).out = s.out ∧
      s.corrected c ca i syn = { s with regs := (s.corrected c ca i syn).regs, hic := (s.corrected c ca i syn).hic } := by
  obtain ⟨hkept, hrest⟩ := s.holdError_kept c ca i syn
  have hshown := s.holdError_shown (c := c) ca i syn
  unfold State.corrected
  generalize s.holdError c ca i syn = u at hkept hrest hshown
  have through {f : Fld} (hf : outside f.key) (hce : f.key ≠ (R.DRC_CH_STAT_CE c).key) (hcnt : f.key ≠ (R.DRC_CH_CNT_CE c).key) :
      ((u.bump (R.DRC_CH_CNT_CE c)).raise (R.DRC_CH_STAT_CE c) srcDRC).get f = u.get f :=
    (State.raise_get srcDRC hf hce).trans (u.get_bump_ne 1 hcnt)
  have hraise := ((u.bump (R.DRC_CH_CNT_CE c)).raise_writes (R.DRC_CH_STAT_CE c) srcDRC).rest
  refine ⟨?_, State.raise_flag srcDRC (by simp only [outside, Fld.key, R.DRC_CH_STAT_CE]; omega) Nat.one_pos, fun h0 h1 => ?_, ?_, ?_, ?_, ?_⟩
  · refine (State.raise_get srcDRC (by simp only [outside, Fld.key, R.DRC_CH_CNT_CE]; omega) ?_).trans ((u.get_bump_self _ 1).trans ?_)
    · simp [Fld.key, R.DRC_CH_CNT_CE, R.DRC_CH_STAT_CE]; omega
    · rw [hkept.get (by simp [Fld.key, R.DRC_CH_CNT_CE, R.DRC_CH_ERRADDR_CA, R.DRC_CH_ERRSYN_SYN, R.DRC_CH_ERRSYN_SYMBOL]; omega)]
      rfl
  · refine (through (by simp only [outside, Fld.key, R.DRC_CH_ERRADDR_CA]; omega) ?_ ?_).trans (hshown h0 h1) <;>
      (simp only [Fld.key, R.DRC_CH_CNT_CE, R.DRC_CH_STAT_CE, R.DRC_CH_ERRADDR_CA]; omega)
  · refine (through (by simp only [outside, Fld.key, R.DRC_CH_STAT_STATE]; omega) ?_ ?_).trans (hkept.get ?_) <;>
      simp only [List.mem_cons, List.not_mem_nil, or_false, forall_eq_or_imp, forall_eq, Fld.key, R.DRC_CH_CNT_CE, R.DRC_CH_STAT_CE,
        R.DRC_CH_STAT_STATE, R.DRC_CH_ERRADDR_CA, R.DRC_CH_ERRSYN_SYN, R.DRC_CH_ERRSYN_SYMBOL] <;>
      omega
  · refine (through (by simp only [outside, Fld.key, R.DRC_CH_SIZE_MB]; omega) ?_ ?_).trans (hkept.get ?_) <;>
      simp [Fld.key, R.DRC_CH_CNT_CE, R.DRC_CH_STAT_CE, R.DRC_CH_SIZE_MB, R.DRC_CH_ERRADDR_CA, R.DRC_CH_ERRSYN_SYN, R.DRC_CH_ERRSYN_SYMBOL] <;>
      omega
  · rw [State.raise_out]
    show u.out = s.out
    rw [hrest]
  · rw [hraise]
    show { u with regs := _, hic := _ } = _
    rw [hrest]

theorem State.dramIssue_out (s : State) (c kind : Nat) : (s.dramIssue c kind).out = .dram c kind :: s.out ∧
    s.dramIssue c kind = { s with drc := (s.dramIssue c kind).drc, out := (s.dramIssue c kind).out } := ⟨rfl, rfl⟩

theorem State.dramIssue_get (s : State) (c kind : Nat) (f : Fld) : (s.dramIssue c kind).get f = s.get f := rfl

theorem State.dramIssue_chan_low (s : State) (c d kind : Nat) : ((s.dramIssue c kind).chan d).low = (s.chan d).low := by
  have hmod (l : List DrcChan) : ((modifyNth l c (fun x => { x with cmds := ((kind, s.now) :: x.cmds).take 64 })).getD d {}).low
      = (l.getD d {}).low := by
    by_cases h : c = d
    · subst h
      by_cases hc : c < l.length <;> simp [modifyNth_eq_modify, List.getD_eq_getElem?_getD, hc]
    · exact congrArg DrcChan.low (getD_modifyNth_ne _ h _ _)
  exact hmod s.drc.chans

/-- A unit of a channel that the scrubber may read. -/
def State.scrubbable (s : State) (c ca : Nat) : Bool :=
  s.flag R.DRC_CTRL_SCRUB_EN && s.dramRuns c && s.drc.layout.contains c && decide (ca < s.get (R.DRC_CH_SIZE_MB c) * 2 ^ 20)

/-- A unit's words as the scrubber takes them, and its write-back. -/
def State.scrubbed (s : State) (c ca : Nat) (words : List Nat) : State :=
  let s := (words.take 4).foldl (fun (s : State) (w : Nat) => s.scrubWord c ca w) (s.dramIssue c 4)
  if (words.take 4).any (fun (w : Nat) => match eccJudge w with | .fixed _ _ => true | _ => false) && s.dramRuns c then s.dramIssue c 5 else s

theorem State.scrubbable_of {s : State} {c ca : Nat} (hen : s.flag R.DRC_CTRL_SCRUB_EN = true) (hc : s.dramRuns c = true)
    (hlay : s.drc.layout.contains c = true) (hin : ca < s.get (R.DRC_CH_SIZE_MB c) * 2 ^ 20) : s.scrubbable c ca = true := by
  unfold State.scrubbable
  rw [hen, hc, hlay, decide_eq_true hin]
  rfl

theorem exec_dramScrub {s : State} {c addr : Nat} {words : List Nat} (hr : s.running = true) (h : s.scrubbable c (addr / 64 * 64) = true)
    (hend : addr / 64 * 64 + 64 ≠ (s.scrubbed c (addr / 64 * 64) words).get (R.DRC_CH_SIZE_MB c) * 2 ^ 20) :
    exec (.dramScrub c addr words) s = .next (s.framed (s.scrubbed c (addr / 64 * 64) words)) :=
  show execDramScrub c addr words s = _ from coreEvent_eq hr ((if_pos h).trans (if_neg hend))

theorem State.scrubbed_clean {s : State} {words : List Nat} (c ca : Nat) (h : ∀ w ∈ words.take 4, eccJudge w = .clean) :
    s.scrubbed c ca words = s.dramIssue c 4 := by
  unfold State.scrubbed
  dsimp only
  rw [scrub_clean _ c ca h]
  refine if_neg ?_
  rw [List.any_eq_false.2 fun w hw => by rw [h w hw]; exact Bool.false_ne_true]
  exact Bool.false_ne_true

theorem State.scrubbed_fixed {s : State} {w i d : Nat} (c ca : Nat) (h : eccJudge w = .fixed i d)
    (hruns : ((s.dramIssue c 4).corrected c ca i (eccSyndrome w)).dramRuns c = true) :
    s.scrubbed c ca [w] = ((s.dramIssue c 4).corrected c ca i (eccSyndrome w)).dramIssue c 5 := by
  unfold State.scrubbed
  dsimp only [List.take, List.foldl]
  rw [State.scrubWord_fixed _ c ca h]
  exact if_pos (by simp [h, hruns])

theorem State.showStore_rest (s : State) : RegsKept [R.DRC_STORE_MB_MB, R.BLT_STORE_STAT_FULL] s s.showStore ∧
    s.showStore = { s with regs := s.showStore.regs } := by
  unfold State.showStore State.showFull
  exact ⟨((RegsKept.refl _ s).put (by simp) _).put (by simp) _, rfl⟩

/-- A relayout before the size of the store is formed again. -/
def State.relaid (s : State) : State :=
  let l := (List.range s.nChans).filter (fun (c : Nat) => s.get (R.DRC_CH_STAT_STATE c) == 2 && !s.bitIn R.DRC_STAT_PARTED c)
  let s := { s with
    drc := { s.drc with layout := l, grain := min 8 (s.get R.DRC_CTRL_GRAIN), maskMax := max 1 (min 64 (s.get R.DRC_LAYOUT_MASK_MAX)) }
    store := { s.store with billets := s.store.billets.filter (fun (b : Billet) => !b.consumed) }
    cam := { s.cam with masks := [] } }
  let s := (s.put R.DRC_STAT_INUSE (l.foldl setBit 0)).put R.DRC_STAT_ACC_SINGLE (b2n (l.length == 1))
  s.put R.DRC_STAT_RELAYOUT_DUE 0

theorem State.relayoutNow_eq (s : State) : s.relayoutNow = s.relaid.showStore := rfl

theorem State.relayoutNow_rest (s : State) : s.relayoutNow.aon = s.aon ∧ s.relayoutNow.pending = s.pending := by
  rw [State.relayoutNow_eq, (s.relaid.showStore_rest).2]
  exact ⟨rfl, rfl⟩

/-- A relayout takes the channels that run, the granule that is set, and drops what has been consumed. -/
theorem State.relayoutNow_shown (s : State) : s.relayoutNow.flag R.DRC_STAT_RELAYOUT_DUE = false ∧
    s.relayoutNow.drc.layout = (List.range s.nChans).filter (fun (c : Nat) => s.get (R.DRC_CH_STAT_STATE c) == 2 && !s.bitIn R.DRC_STAT_PARTED c) ∧
    s.relayoutNow.drc.grain = min 8 (s.get R.DRC_CTRL_GRAIN) ∧ ∀ b ∈ s.relayoutNow.store.billets, b.consumed = false := by
  obtain ⟨hkept, hrest⟩ := s.relaid.showStore_rest
  rw [State.relayoutNow_eq]
  refine ⟨?_, ?_, ?_, ?_⟩
  · rw [hkept.flag (by decide)]
    exact State.flag_put_self _ rfl 0
  · rw [hrest]; rfl
  · rw [hrest]; rfl
  · rw [hrest]
    intro b hb
    have hmem : b ∈ s.store.billets.filter (fun (b : Billet) => !b.consumed) := hb
    simpa using (List.mem_filter.1 hmem).2

/-- Settles O51: refreshes and calibrations, alerts and their end, scrubbing and relayout. -/
theorem dramCommands : Obligations.DramCommands := by
  unfold Obligations.DramCommands
  refine ⟨fun s c rank hc => ⟨?_, ?_, ?_⟩, fun s c rank hr hc => ⟨?_, fun hrank => ?_⟩, fun s c hr hc hlen => ⟨fun h => ?_, fun h hn => ?_⟩,
    fun s c hr => ⟨fun hlow => ?_, fun hlow => ?_⟩, fun s c addr words hr hen hc hlay hin => ⟨fun hclean => ?_, fun w i d hw hfix => ?_⟩,
    fun s hr => ⟨fun h => ?_, fun h => ?_⟩⟩
  · exact coreEvent_of_noop fun _ => congrArg s.framed (if_neg (by simp [hc]))
  · exact coreEvent_of_noop fun _ => congrArg s.framed (if_neg (by simp [hc]))
  · exact coreEvent_of_noop fun _ => congrArg s.framed (if_neg (by simp [hc]))
  · obtain ⟨hout, hrest⟩ := s.dramIssue_out c 1
    exact ⟨_, (show execRefresh c s = _ from coreEvent_next hr (if_pos hc) rfl rfl), hout, hrest⟩
  · obtain ⟨hout, hrest⟩ := s.dramIssue_out c 2
    exact ⟨_, (show execZqcs c rank s = _ from coreEvent_next hr (if_pos (by simp [hc, hrank])) rfl rfl), hout, hrest⟩
  · obtain ⟨hcount, hshown, hkept, hrest⟩ := s.alerted_shown (State.dramRuns_lt hc)
    have hfall := State.alertFall_held h
    have hdrc : (s.alerted c).drc = s.drc := by rw [hrest]
    have haon : (s.alerted c).aon = s.aon := by rw [hrest]
    have hpending : (s.alerted c).pending = s.pending := by rw [hrest]
    generalize s.alerted c = u at hcount hshown hkept hfall hdrc haon hpending
    have hchan := u.onChan_chan_self (c := c) (by rw [hdrc]; exact hlen) (fun x => { x with low := true, fallT := s.now, attempt :=
      if 1 ≤ (s.chan c).attempt ∧ s.now ≤ (s.chan c).replayT + 64 then x.attempt + 1 else 1 })
    rw [State.chan_congr hdrc] at hchan
    refine ⟨_, (show execAlertFall c s = _ from coreEvent_next hr ((if_pos hc).trans hfall) haon hpending), hcount, hshown, ?_, ?_, ?_,
      hkept.trans (.of_regs rfl)⟩ <;> rw [hchan]
  · exact show execAlertFall c s = _ from coreEvent_eq hr ((if_pos hc).trans (State.alertFall_parts h hn))
  · exact coreEvent_of_noop fun _ => congrArg s.framed (if_neg (by simp [hlow]))
  · have hchan := (s.reissued c).onChan_chan_self (c := c) (State.chan_lt hlow)
      (fun x => { x with low := false, replayT := min s.now (x.fallT + 192) })
    have hrise := s.alertRise_eq c
    have hback : (s.reissued c).chan c = s.chan c := rfl
    rw [hback] at hchan
    refine ⟨_, (show execAlertRise c s = _ from coreEvent_next hr ((if_pos hlow).trans hrise) rfl rfl), ?_, ?_,
      State.get_bump_self _ _ 1, rfl, (RegsKept.of_regs (t := (s.reissued c).onChan c _) rfl).bump (by simp) 1⟩
    · have hlow' := congrArg DrcChan.low hchan
      exact hlow'
    · have hattempt := congrArg DrcChan.attempt hchan
      exact hattempt
  · have hsize : s.get (R.DRC_CH_SIZE_MB c) = (s.scrubbed c (addr / 64 * 64) words).get (R.DRC_CH_SIZE_MB c) := by
      rw [State.scrubbed_clean c _ hclean]; rfl
    have hexec := exec_dramScrub (c := c) (addr := addr) (words := words) hr (State.scrubbable_of hen hc hlay (by omega)) (by omega)
    rw [State.scrubbed_clean c _ hclean] at hexec
    obtain ⟨hout, hrest⟩ := s.dramIssue_out c 4
    exact ⟨_, hexec, hout, hrest⟩
  · subst hw
    obtain ⟨hin', hstate, hlow⟩ := (s.dramRuns_iff c).1 hc
    obtain ⟨hce, hshown, haddr, hst, hsize, hout, hrest⟩ :=
      (s.dramIssue c 4).corrected_shown (addr / 64 * 64) i (eccSyndrome w) (State.dramRuns_lt hc)
    have hruns : ((s.dramIssue c 4).corrected c (addr / 64 * 64) i (eccSyndrome w)).dramRuns c = true := by
      refine (State.dramRuns_iff _ c).2 ⟨?_, hst.trans hstate, ?_⟩
      · rw [hrest]; exact hin'
      · have hdrc : ((s.dramIssue c 4).corrected c (addr / 64 * 64) i (eccSyndrome w)).drc = (s.dramIssue c 4).drc := by rw [hrest]
        rw [State.chan_congr hdrc]
        exact (s.dramIssue_chan_low c c 4).trans hlow
    have hfixed := State.scrubbed_fixed c (addr / 64 * 64) hfix hruns
    have hexec := exec_dramScrub (c := c) (addr := addr) (words := [w]) hr (State.scrubbable_of hen hc hlay (by omega)) (by
      rw [hfixed, State.dramIssue_get, hsize, State.dramIssue_get]
      omega)
    rw [hfixed] at hexec
    generalize (s.dramIssue c 4).corrected c (addr / 64 * 64) i (eccSyndrome w) = u at hce hshown haddr hout hexec
    exact ⟨_, hexec, congrArg (Emit.dram c 5 :: ·) hout, hce, hshown, haddr⟩
  · exact coreEvent_of_noop fun _ => congrArg s.framed (if_neg (by simp [h]))
  · obtain ⟨haon, hpending⟩ := s.relayoutNow_rest
    have hexec : exec .relayout s = .next s.relayoutNow := show execRelayout s = _ from coreEvent_next hr (if_pos h) haon hpending
    obtain ⟨hdue, hlayout, hgrain, hbillets⟩ := s.relayoutNow_shown
    exact ⟨_, hexec, hdue, hlayout, hgrain, hbillets⟩

end Sys2Proof.Machine

/-! Network time (R349–R356). -/

namespace Sys2Proof.Machine

/-! ## What the parts of the servo leave alone -/

theorem State.ptpRelay_rest (s : State) (kind : Nat) : s.ptpRelay kind = { s with out := (s.ptpRelay kind).out } := by
  have step (u : State) (n : Nat) : (if u.tmb.ports.getD n 0 = 2 then u.emit (.ptp n kind) else u) =
      { u with out := (if u.tmb.ports.getD n 0 = 2 then u.emit (.ptp n kind) else u).out } := by
    split <;> rfl
  have first := step s 0
  unfold State.ptpRelay State.forEach
  simp only [List.foldl]
  generalize (if s.tmb.ports.getD 0 0 = 2 then s.emit (.ptp 0 kind) else s) = u at first ⊢
  have second := step u 1
  generalize (if u.tmb.ports.getD 1 0 = 2 then u.emit (.ptp 1 kind) else u) = v at second ⊢
  rw [second, first]

theorem State.ptpRelay_get (s : State) (kind : Nat) (f : Fld) : (s.ptpRelay kind).get f = s.get f := by rw [s.ptpRelay_rest]; rfl

theorem State.ptpPorts_kept (s : State) (l : List Nat) : (s.ptpPorts l).time40 = s.time40 ∧ (s.ptpPorts l).tmb.large = s.tmb.large :=
  ⟨rfl, rfl⟩

theorem State.bmca_kept (s : State) : s.bmca.time40 = s.time40 ∧ s.bmca.tmb.large = s.tmb.large := by
  let same (t : State) := t.time40 = s.time40 ∧ t.tmb.large = s.tmb.large
  unfold State.bmca
  split
  · exact s.ptpPorts_kept _
  · next n a _ =>
    extract_lets st other o u v w
    have hu : same u := s.ptpPorts_kept _
    clear_value u
    have hv : same v := hu
    clear_value v
    have hw : same w := State.ite_both same hv hv
    exact State.ite_both same hv hw

theorem State.servo_kept (s : State) (o : Int) : (s.servo o).time40 = s.time40 ∧ (s.servo o).tmb.large = s.tmb.large := by
  unfold State.servo
  dsimp only
  split <;> exact ⟨rfl, rfl⟩

/-- An offset of a clock in lock that counts as large, or does not: what `offsetIn` notes before its servo. -/
def State.offsetNoted (s : State) (o : Int) : State :=
  let s := s.put R.TMB_OFFSET_O (unsigned 32 (sat32 (roundDiv o 65536)))
  let large := if 1000000 * 65536 < o.natAbs then s.tmb.large + 1 else 0
  let inLock := if o.natAbs ≤ max 1 (s.get R.TMB_CFG_LOCK_NS) * 65536 then s.tmb.inLock + 1 else 0
  let s := { s with tmb := { s.tmb with large := large, inLock := inLock } }
  if 4 ≤ large then s.raise R.TMB_STAT_OFFSET_LARGE srcTMB else s

theorem State.offsetNoted_kept (s : State) (o : Int) : (s.offsetNoted o).time40 = s.time40 ∧
    (s.offsetNoted o).tmb.large = if 1000000 * 65536 < o.natAbs then s.tmb.large + 1 else 0 := by
  unfold State.offsetNoted
  extract_lets u large inLock v
  refine State.ite_both (fun t => t.time40 = s.time40 ∧ t.tmb.large = large) ?_ ⟨rfl, rfl⟩
  rw [State.raise_rest]
  exact ⟨rfl, rfl⟩

theorem State.offsetIn_locked {s : State} (o m : Int) (hst : s.get R.TMB_STAT_STATE = 2) : s.offsetIn o m =
    if 8 ≤ (if o.natAbs ≤ max 1 ((s.put R.TMB_OFFSET_O (unsigned 32 (sat32 (roundDiv o 65536)))).get R.TMB_CFG_LOCK_NS) * 65536
      then s.tmb.inLock + 1 else 0)
    then (((s.offsetNoted o).servo o).put R.TMB_STAT_STATE tmbLOCKED).bmca else (s.offsetNoted o).servo o := by
  have hst' : (s.put R.TMB_OFFSET_O (unsigned 32 (sat32 (roundDiv o 65536)))).get R.TMB_STAT_STATE = 2 :=
    (State.get_put_ne _ _ (by decide)).trans hst
  unfold State.offsetIn
  dsimp only
  rw [hst', if_neg (by simp [tmbACQUIRING])]
  simp only [tmbLOCKED, true_or, true_and]
  rfl

/-- In lock an offset moves the time not at all, and the count of large offsets by its size. -/
theorem State.offsetIn_kept {s : State} (o m : Int) (hst : s.get R.TMB_STAT_STATE = 2) : (s.offsetIn o m).time40 = s.time40 ∧
    (s.offsetIn o m).tmb.large = if 1000000 * 65536 < o.natAbs then s.tmb.large + 1 else 0 := by
  obtain ⟨htime, hlarge⟩ := s.offsetNoted_kept o
  obtain ⟨htime', hlarge'⟩ := (s.offsetNoted o).servo_kept o
  rw [State.offsetIn_locked o m hst]
  generalize (s.offsetNoted o).servo o = u at htime' hlarge'
  obtain ⟨htime'', hlarge''⟩ := (u.put R.TMB_STAT_STATE tmbLOCKED).bmca_kept
  refine State.ite_both (fun t => t.time40 = s.time40 ∧ t.tmb.large = _) ⟨?_, ?_⟩ ⟨htime'.trans htime, hlarge'.trans hlarge⟩
  · exact htime''.trans (htime'.trans htime)
  · exact hlarge''.trans (hlarge'.trans hlarge)

/-! ## Acquisition (R353–R355) -/

/-- The configuration of network time as a write of TMB_CFG leaves it. -/
def State.tmbCfgPut (s : State) (v : Nat) : State :=
  ((((((s.put R.TMB_CFG_P0EN v).put R.TMB_CFG_P1EN (v / 2)).put R.TMB_CFG_BOUNDARY (v / 4)).put R.TMB_CFG_TWO_STEP (v / 8)).put
    R.TMB_CFG_PROFILE (v / 16)).put R.TMB_CFG_DOMAIN (v / 256)).put R.TMB_CFG_LOCK_NS (v / 65536)

theorem State.tmbCfgPut_shown (s : State) (v : Nat) : (s.tmbCfgPut v).get R.TMB_CFG_P0EN = v % 2 ∧
    (s.tmbCfgPut v).get R.TMB_CFG_P1EN = v / 2 % 2 ∧ (s.tmbCfgPut v).get R.TMB_CFG_BOUNDARY = v / 4 % 2 ∧
    (s.tmbCfgPut v).get R.TMB_CFG_TWO_STEP = v / 8 % 2 ∧
    (s.tmbCfgPut v).get R.TMB_CFG_PROFILE = v / 16 % 2 ^ R.TMB_CFG_PROFILE.width ∧
    (s.tmbCfgPut v).get R.TMB_CFG_DOMAIN = v / 256 % 2 ^ 8 ∧ (s.tmbCfgPut v).get R.TMB_CFG_LOCK_NS = v / 65536 % 2 ^ 8 := by
  unfold State.tmbCfgPut
  refine ⟨?_, ?_, ?_, ?_, ?_, ?_, ?_⟩ <;>
    simp [State.get_put, Fld.key, R.TMB_CFG_P0EN, R.TMB_CFG_P1EN, R.TMB_CFG_BOUNDARY, R.TMB_CFG_TWO_STEP, R.TMB_CFG_PROFILE,
      R.TMB_CFG_DOMAIN, R.TMB_CFG_LOCK_NS]

theorem State.tmbCfg_changed {s : State} {v : Nat} (h : s.get R.TMB_CFG_P0EN ≠ v % 2) : s.tmbCfg v = (s.tmbCfgPut v).acquire true := by
  refine if_neg fun hsame => h ?_
  obtain ⟨hp0, -⟩ := s.tmbCfgPut_shown v
  exact (List.head_eq_of_cons_eq hsame).trans hp0

/-- The ports as a fresh acquisition finds them: nothing heard, nothing measured. -/
def State.listening (s : State) : State :=
  ({ s with tmb := { s.tmb with offs := [], meanDone := false, inLock := 0, large := 0, heard := [none, none], delay := [none, none] } } :
    State).ptpPorts [0, 0]

theorem State.acquire_true (s : State) : s.acquire true =
    s.listening.put R.TMB_STAT_STATE (if s.listening.ptpEnabled 0 || s.listening.ptpEnabled 1 then tmbACQUIRING else tmbFREE) := rfl

/-- Acquisition from the beginning: the ports listen, and the state is that of the ports that take part. -/
theorem State.acquire_fresh (s : State) : (s.acquire true).tmb.ports = [0, 0] ∧
    RegsKept [R.TMB_STAT_SLAVE, R.TMB_STAT_STATE] s (s.acquire true) ∧
    (s.acquire true).get R.TMB_STAT_STATE = (if s.ptpEnabled 0 || s.ptpEnabled 1 then 1 else 0) ∧
    (s.acquire true).aon = s.aon ∧ (s.acquire true).pending = s.pending := by
  have hen (u : State) (h : u.regs = (s.put R.TMB_STAT_SLAVE 0).regs) (n : Nat) : u.ptpEnabled n = s.ptpEnabled n := by
    have flag {f : Fld} (hf : f.key ≠ R.TMB_STAT_SLAVE.key) : u.flag f = s.flag f :=
      congrArg (· == 1) ((State.get_congr h f).trans (State.get_put_ne _ _ hf))
    rw [State.ptpEnabled, State.ptpEnabled, flag (by decide), flag (by decide)]
  have hregs : s.listening.regs = (s.put R.TMB_STAT_SLAVE 0).regs := rfl
  rw [State.acquire_true, hen _ hregs 0, hen _ hregs 1]
  refine ⟨rfl, (((RegsKept.refl _ s).put (by simp) 0).trans (.of_regs (t := s.listening) hregs)).put (by simp) _, ?_, rfl, rfl⟩
  rw [State.get_put_self]
  split <;> rfl

theorem State.acquire_again (s : State) (h : s.ptpEnabled 0 = true ∨ s.ptpEnabled 1 = true) : s.acquire false =
    ({ s with tmb := { s.tmb with offs := [], meanDone := false, inLock := 0, large := 0 } } : State).put R.TMB_STAT_STATE 1 := by
  have hany : (s.ptpEnabled 0 || s.ptpEnabled 1) = true := by simpa using h
  unfold State.acquire
  dsimp only
  rw [if_neg Bool.false_ne_true]
  exact congrArg (State.put _ _) (if_pos hany)

/-! ## The end of the last master (R355) -/

/-- HOLDOVER: the ports listen, and the rate holds its mean. -/
def State.heldOver (s : State) : State :=
  let s := (s.ptpPorts [0, 0]).put R.TMB_STAT_STATE tmbHOLDOVER
  let n : Int := s.tmb.rates.length
  let s := if n = 0 then s else s.put R.TMB_RATE_R (unsigned 32 (roundDiv (s.tmb.rates.foldl (· + ·) 0) n))
  { s with tmb := { s.tmb with inLock := 0, large := 0 } }

theorem State.heldOver_shown (s : State) : s.heldOver.get R.TMB_STAT_STATE = 3 ∧ s.heldOver.get R.TMB_STAT_SLAVE = 0 ∧
    s.heldOver.tmb.ports = [0, 0] ∧ RegsKept [R.TMB_STAT_STATE, R.TMB_STAT_SLAVE, R.TMB_RATE_R] s s.heldOver ∧
    s.heldOver.aon = s.aon ∧ s.heldOver.pending = s.pending := by
  unfold State.heldOver
  extract_lets u n v
  have hu : u.get R.TMB_STAT_STATE = 3 ∧ u.get R.TMB_STAT_SLAVE = 0 ∧ u.tmb.ports = [0, 0] ∧
      RegsKept [R.TMB_STAT_STATE, R.TMB_STAT_SLAVE, R.TMB_RATE_R] s u ∧ u.aon = s.aon ∧ u.pending = s.pending := by
    refine ⟨State.get_put_self .., (State.get_put_ne _ _ (by decide)).trans (State.get_put_self ..), rfl, ?_, rfl, rfl⟩
    exact ((RegsKept.of_regs (t := { s with tmb := { s.tmb with ports := [0, 0] } }) rfl).put (by simp) _).put (by simp) _
  clear_value u
  obtain ⟨hstate, hslave, hports, hkept, haon, hpending⟩ := hu
  have hv : v.get R.TMB_STAT_STATE = 3 ∧ v.get R.TMB_STAT_SLAVE = 0 ∧ v.tmb.ports = [0, 0] ∧
      RegsKept [R.TMB_STAT_STATE, R.TMB_STAT_SLAVE, R.TMB_RATE_R] s v ∧ v.aon = s.aon ∧ v.pending = s.pending := by
    refine State.ite_both (fun t => t.get R.TMB_STAT_STATE = 3 ∧ t.get R.TMB_STAT_SLAVE = 0 ∧ t.tmb.ports = [0, 0] ∧
      RegsKept [R.TMB_STAT_STATE, R.TMB_STAT_SLAVE, R.TMB_RATE_R] s t ∧ t.aon = s.aon ∧ t.pending = s.pending)
      ⟨hstate, hslave, hports, hkept, haon, hpending⟩ ?_
    exact ⟨(State.get_put_ne _ _ (by decide)).trans hstate, (State.get_put_ne _ _ (by decide)).trans hslave, hports,
      hkept.put (by simp) _, haon, hpending⟩
  clear_value v
  obtain ⟨hstate', hslave', hports', hkept', haon', hpending'⟩ := hv
  exact ⟨hstate', hslave', hports', hkept'.trans (.of_regs rfl), haon', hpending'⟩

/-! ## The commands -/

theorem exec_announceTimeout {s : State} {p : Nat} (hr : s.running = true) (hen : s.ptpEnabled p = true)
    (hsome : (s.tmb.heard.getD p none).isSome = true) (u : State)
    (hu : u = { s with tmb := { s.tmb with heard := modifyNth s.tmb.heard p (fun _ => none) } }) :
    (u.bestPort ≠ none → exec (.announceTimeout p) s = .next (s.framed u.bmca)) ∧
      (u.bestPort = none → exec (.announceTimeout p) s = .next (s.framed (u.heldOver.raise R.TMB_STAT_LOST_GM srcTMB))) := by
  have hnone : (s.tmb.heard.getD p none).isNone = false := by
    rw [← Option.not_isSome, hsome]; rfl
  subst hu
  refine ⟨fun h => ?_, fun h => ?_⟩
  · show execAnnounceTimeout p s = _
    refine coreEvent_eq hr ((if_neg (by rw [hen, hnone]; exact Bool.false_ne_true)).trans ?_)
    obtain ⟨x, hx⟩ := Option.ne_none_iff_exists'.1 h
    dsimp only
    rw [hx]
  · show execAnnounceTimeout p s = _
    refine coreEvent_eq hr ((if_neg (by rw [hen, hnone]; exact Bool.false_ne_true)).trans ?_)
    dsimp only
    rw [h]
    rfl

/-- The corrections of both ports' paths and the two flags that PTP_CONFIG writes before the rest of TMB_CFG. -/
def State.ptpConfigured (s : State) (p : List Nat) : State :=
  let s := s.forEach [0, 1] (fun s n =>
    (s.put (R.TMB_ASYM_IN_ASYM n) (field p (4 + 8 * n) 4)).put (R.TMB_ASYM_EG_ASYM n) (field p (8 + 8 * n) 4))
  (s.put R.TMB_CFG_BOUNDARY (field p 0 1 / 4)).put R.TMB_CFG_TWO_STEP (field p 0 1 / 8)

theorem State.ptpConfigured_lock (s : State) (p : List Nat) : (s.ptpConfigured p).get R.TMB_CFG_LOCK_NS = s.get R.TMB_CFG_LOCK_NS := by
  simp only [State.ptpConfigured, State.forEach, List.foldl]
  iterate 6 rw [State.get_put_ne _ _ (by decide)]

/-- Settles O52: the messages of network time, its acquisition and its end. -/
theorem networkTime : Obligations.NetworkTime := by
  unfold Obligations.NetworkTime
  refine ⟨fun s p a d y hr => ⟨fun hen => ⟨?_, ?_, ?_, ?_⟩, fun hen => ⟨fun h => ?_, fun h => ?_, fun h => ?_⟩⟩, fun s p a hr hen h => ?_,
    fun s p hr hen hsome => ⟨fun h => (exec_announceTimeout hr hen hsome _ rfl).1 h, fun h => ?_⟩, fun s p d hr hen h hp => ?_,
    fun s p y delay hr hen h => ⟨fun hp => ?_, fun hp hd => ?_⟩, fun s o m hst _ => ?_, fun s hr => ⟨fun h0 h1 => ?_, fun h => ?_⟩,
    fun s v hr h => ?_, fun s c hw h0 h1 => ⟨fun h => ?_, fun h => ?_⟩⟩
  · exact show execAnnounceMessage p a s = _ from coreEvent_next hr (if_pos (by rw [hen]; rfl)) rfl rfl
  · exact show execDelayMessage p d s = _ from coreEvent_next hr (if_pos (by rw [hen]; rfl)) rfl rfl
  · exact show execSyncMessage p y s = _ from coreEvent_next hr (if_pos (by rw [hen]; rfl)) rfl rfl
  · exact show execAnnounceTimeout p s = _ from coreEvent_next hr (if_pos (by rw [hen]; rfl)) rfl rfl
  · exact show execAnnounceMessage p a s = _ from coreEvent_next hr ((if_neg (by simp [hen])).trans (if_pos h)) rfl rfl
  · exact show execDelayMessage p d s = _ from coreEvent_next hr ((if_neg (by simp [hen])).trans (if_pos h)) rfl rfl
  · exact show execSyncMessage p y s = _ from coreEvent_next hr ((if_neg (by simp [hen])).trans (if_pos h)) rfl rfl
  · exact show execAnnounceMessage p a s = _ from coreEvent_eq hr ((if_neg (by simp [hen])).trans (if_neg (by simp [h])))
  · have hexec := (exec_announceTimeout hr hen hsome _ rfl).2 h
    obtain ⟨hstate, hslave, hports, hkept, haon, hpending⟩ :=
      State.heldOver_shown { s with tmb := { s.tmb with heard := modifyNth s.tmb.heard p (fun _ => none) } }
    have hbase : RegsKept [R.TMB_STAT_STATE, R.TMB_STAT_SLAVE, R.TMB_RATE_R] s
        (State.heldOver { s with tmb := { s.tmb with heard := modifyNth s.tmb.heard p (fun _ => none) } }) :=
      (RegsKept.of_regs rfl).trans hkept
    generalize State.heldOver { s with tmb := { s.tmb with heard := modifyNth s.tmb.heard p (fun _ => none) } } = u at *
    refine ⟨_, hexec, (State.raise_get srcTMB (outside_of rfl) (by decide)).trans hstate,
      (State.raise_get srcTMB (outside_of rfl) (by decide)).trans hslave, State.raise_flag srcTMB (outside_of rfl) (by decide), ?_,
      (((hbase.mono (by simp)).outside).raise (by simp) srcTMB).framed⟩
    rw [State.framed, State.raise_rest]
    exact hports
  · refine ⟨_, (show execDelayMessage p d s = _ from coreEvent_next (u := State.put { s with tmb := { s.tmb with
      delay := modifyNth s.tmb.delay p (fun _ => some (s.pathDelay p d)) } } R.TMB_PATHDLY_D (unsigned 32 (s.pathDelay p d))) hr
      ((if_neg (by simp [hen])).trans ((if_neg (by simp [h])).trans ((if_neg fun h2 => absurd (hp.symm.trans h2.1) (by decide)).trans ((if_pos (.inl hp)).trans (if_pos hp)))))
      rfl rfl), State.get_put_self .., rfl, ?_⟩
    exact (RegsKept.of_regs (t := { s with tmb := { s.tmb with delay := modifyNth s.tmb.delay p (fun _ => some (s.pathDelay p d)) } })
      rfl).put (by simp) _
  · exact show execSyncMessage p y s = _ from
      coreEvent_next hr ((if_neg (by simp [hen])).trans ((if_neg (by simp [h])).trans (if_pos hp))) rfl rfl
  · have hoff : (s.ptpRelay 0).syncOffset p y delay = s.syncOffset p y delay := by
      unfold State.syncOffset
      rw [State.ptpRelay_get]
    have hd' : (s.ptpRelay 0).tmb.delay.getD p none = some delay := by rw [s.ptpRelay_rest]; exact hd
    show execSyncMessage p y s = _
    refine coreEvent_eq hr ((if_neg (by simp [hen])).trans ((if_neg (by simp [h])).trans ((if_neg (not_not.2 hp)).trans ?_)))
    dsimp only
    rw [hd', ← hoff]
  · obtain ⟨htime, hlarge⟩ := s.offsetIn_kept o m hst
    exact ⟨htime, fun hbig _ => hlarge.trans (if_pos hbig), fun hsmall => hlarge.trans (if_neg (Nat.not_lt.2 hsmall))⟩
  · have hidle : s.tmbCtrl 1 = s := if_neg (by simp [h0, h1])
    exact show execTmbReacq s = _ from coreEvent_next hr hidle rfl rfl
  · have hctrl : s.tmbCtrl 1 = s.acquire false := if_pos (by simpa [bit] using h)
    refine ⟨_, (show execTmbReacq s = _ from coreEvent_next hr (hctrl.trans (s.acquire_again h)) rfl rfl), State.get_put_self .., rfl, rfl, ?_⟩
    exact (RegsKept.of_regs (t := { s with tmb := { s.tmb with offs := [], meanDone := false, inLock := 0, large := 0 } }) rfl).put (by simp) _
  · obtain ⟨h0, h1, h2, h3, h4, h5, h6⟩ := s.tmbCfgPut_shown v
    have hchanged := State.tmbCfg_changed h
    have haon : (s.tmbCfgPut v).aon = s.aon := rfl
    have hpending : (s.tmbCfgPut v).pending = s.pending := rfl
    generalize s.tmbCfgPut v = u at *
    obtain ⟨hports, hkept, hstate, haon', hpending'⟩ := u.acquire_fresh
    refine ⟨_, (show execTmbCfgWrite v s = _ from coreEvent_next hr hchanged (haon'.trans haon) (hpending'.trans hpending)),
      (hkept.get (by decide)).trans h0, (hkept.get (by decide)).trans h1, (hkept.get (by decide)).trans h2, (hkept.get (by decide)).trans h3,
      (hkept.get (by decide)).trans h4, (hkept.get (by decide)).trans h5, (hkept.get (by decide)).trans h6, hports, hstate.trans ?_⟩
    have hp0 : u.ptpEnabled 0 = (v % 2 == 1) := by simp [State.ptpEnabled, State.flag_eq, h0]
    have hp1 : u.ptpEnabled 1 = (v / 2 % 2 == 1) := by simp [State.ptpEnabled, State.flag_eq, h1]
    rw [hp0, hp1]
    by_cases hz : v % 4 = 0
    · rw [if_pos hz, if_neg (by simp; omega)]
    · rw [if_neg hz, if_pos (by simp; omega)]
  · have hbad : s.cmdPtpConfig c = s.finish c stPROFILE := (if_neg (by simp [h1]; omega)).trans (if_pos h)
    exact withCmd_finish (k := State.cmdPtpConfig) hw hbad
  · refine withCmd_finish (k := State.cmdPtpConfig) hw ((if_neg (by simp [h1]; omega)).trans ((if_neg (Nat.not_le.2 h)).trans ?_))
    exact congrArg (fun n => ((s.ptpConfigured (s.payloadOf c)).tmbCfg (field (s.payloadOf c) 0 1 + field (s.payloadOf c) 1 1 * 2 ^ 4
      + field (s.payloadOf c) 2 1 * 2 ^ 8 + n * 2 ^ 16)).finish c stOK) (s.ptpConfigured_lock (s.payloadOf c))

end Sys2Proof.Machine

/-! The profile of an axis and the start of logged moves (R405, R416). -/

namespace Sys2Proof.Machine

/-! ## One tick toward a goal -/

/-- The speed of a tick toward the goal, given its braking. -/
def Axis.tickSpeed (a : Axis) (brake : Bool) : Rat :=
  let d := a.held.getD a.dec
  let sp := absR a.vel
  if brake then max 0 (sp - d * tickDt)
  else if sp < a.speed then min a.speed (sp + a.acc * tickDt) else max a.speed (sp - d * tickDt)

theorem absR_nonneg (r : Rat) : 0 ≤ absR r := by
  unfold absR
  split <;> grind

theorem Axis.tickSpeed_nonneg (a : Axis) (brake : Bool) (hs : 0 ≤ a.speed) (ha : 0 ≤ a.acc) : 0 ≤ a.tickSpeed brake := by
  have hv := absR_nonneg a.vel
  have hdt : (0 : Rat) ≤ tickDt := by decide +kernel
  unfold Axis.tickSpeed
  dsimp only
  split_ifs
  · exact le_max_left ..
  · exact le_min hs (add_nonneg hv (mul_nonneg ha hdt))
  · exact le_max_of_le_left hs

/-- A tick toward a goal that lies ahead either reaches it, at rest, or advances by less than the distance. -/
theorem Axis.seek_ahead (a : Axis) (decMax : Rat) (ho : a.overrun = false) (hv : a.vel = 0 ∨ sgn a.vel = sgn ((a.goal : Rat) - a.pos)) :
    ((a.seek decMax).1.pos = a.goal ∧ (a.seek decMax).1.vel = 0) ∨ ((a.seek decMax).2 = false ∧ ∃ brake,
      (a.seek decMax).1.pos = a.pos + sgn ((a.goal : Rat) - a.pos) * a.tickSpeed brake * tickDt ∧
        a.tickSpeed brake * tickDt < absR ((a.goal : Rat) - a.pos)) := by
  unfold Axis.seek
  extract_lets dist b d rem sp brake v
  by_cases h0 : dist = 0 ∧ a.vel = 0
  · rw [if_pos h0]
    exact .inl ⟨by have := h0.1; show a.pos = a.goal; grind, h0.2⟩
  · rw [if_neg h0, if_neg (by rw [ho]; rintro (h | ⟨h, hne⟩); exacts [Bool.false_ne_true h, hne (hv.resolve_left h)])]
    by_cases hrem : rem ≤ v * tickDt
    · rw [if_pos hrem]
      exact .inl ⟨rfl, rfl⟩
    · rw [if_neg hrem]
      exact .inr ⟨rfl, brake, rfl, lt_of_not_ge hrem⟩

/-- A step toward a point that is shorter than the way to it stays between where it began and that point. -/
theorem step_between {x g w : Rat} (hw : 0 ≤ w) (hlt : w < absR (g - x)) :
    (x ≤ g → x ≤ x + sgn (g - x) * w ∧ x + sgn (g - x) * w ≤ g) ∧ (g ≤ x → g ≤ x + sgn (g - x) * w ∧ x + sgn (g - x) * w ≤ x) := by
  unfold absR at hlt
  unfold sgn
  refine ⟨fun h => ?_, fun h => ?_⟩
  · split_ifs at hlt ⊢ <;> constructor <;> linarith
  · split_ifs at hlt ⊢ <;> constructor <;> linarith

/-! ## Logged moves -/

theorem exec_moveStart {s : State} {ax : Nat} (hr : s.running = true) (h : ax < 8) :
    exec (.moveStart ax) s = .next (s.framed (s.axDue ax)) := show execMoveStart ax s = _ from coreEvent_eq hr (if_pos h)

theorem State.axDue_none {s : State} {ax : Nat} (h : (s.axis ax).wait = []) : s.axDue ax = s := by
  unfold State.axDue
  rw [h]

/-- Axes at rest take no tick. -/
theorem State.axTick_rest {s : State} {n : Nat} (h : (s.axis n).run = .rest) : s.axTick n = s := by
  unfold State.axTick
  dsimp only
  rw [h]

theorem State.forEach_fixed {s : State} {l : List Nat} {f : State → Nat → State} (h : ∀ n ∈ l, f s n = s) : s.forEach l f = s := by
  induction l with
  | nil => rfl
  | cons n l ih =>
    show State.forEach (f s n) l f = s
    rw [h n (by simp)]
    exact ih fun m hm => h m (by simp [hm])

/-- Settles O53: a profile tick and the start of a logged move. -/
theorem axisProfile : Obligations.AxisProfile := by
  unfold Obligations.AxisProfile
  refine ⟨fun s hr => ⟨(show execProfileTick s = _ from coreEvent_framed hr _), fun hrest => ?_⟩, fun a d hs ha ho hv => ?_, fun s ax t req rest hr hax hw => ⟨fun hd => ?_, fun hd => ?_⟩,
    fun s ax hw => ?_⟩
  · have hsame : s.forEach (List.range 8) State.axTick = s :=
      State.forEach_fixed fun n hn => State.axTick_rest (hrest n (List.mem_range.1 hn))
    exact show execProfileTick s = _ from coreEvent_next hr hsame rfl rfl
  · rcases a.seek_ahead d ho hv with ⟨hpos, hvel⟩ | ⟨hflag, brake, hpos, hlt⟩
    · rw [hpos]
      exact ⟨fun h => ⟨h, le_refl _⟩, fun h => ⟨le_refl _, h⟩, fun _ => ⟨rfl, hvel⟩⟩
    · have hw : 0 ≤ a.tickSpeed brake * tickDt := mul_nonneg (a.tickSpeed_nonneg brake hs ha) (by decide +kernel)
      obtain ⟨hup, hdown⟩ := step_between hw hlt
      rw [hpos, mul_assoc]
      exact ⟨hup, hdown, fun h => absurd (hflag.symm.trans h) Bool.false_ne_true⟩
  · have hdue : s.axDue ax = (s.onAxis ax (fun a => { a with wait := rest })).axDo ax req := by
      unfold State.axDue
      rw [hw]
      exact if_pos hd
    rw [exec_moveStart hr hax, hdue]
  · have hdue : s.axDue ax = s := by
      unfold State.axDue
      rw [hw]
      exact if_neg (by simp [hd])
    rw [exec_moveStart hr hax, hdue]
    rfl
  · refine coreEvent_of_noop fun _ => ?_
    by_cases h : ax < 8
    · rw [if_pos h, State.axDue_none hw]
      rfl
    · rw [if_neg h]
      rfl

end Sys2Proof.Machine

/-! Events at an axis (R409–R412). -/

namespace Sys2Proof.Machine

/-! ## The registers of one axis -/

@[simp] theorem key_STALL (n : Nat) : (R.MOT_AX_STAT_STALL n).key = axBase n + (0x40 * 32 + 9) := by
  simp only [Fld.key, R.MOT_AX_STAT_STALL, axBase]; omega
@[simp] theorem key_STATE (n : Nat) : (R.MOT_AX_STAT_STATE n).key = axBase n + 0x40 * 32 := by
  simp only [Fld.key, R.MOT_AX_STAT_STATE, axBase]; omega
@[simp] theorem key_FAULT (n : Nat) : (R.MOT_AX_STAT_FAULT n).key = axBase n + (0x40 * 32 + 8) := by
  simp only [Fld.key, R.MOT_AX_STAT_FAULT, axBase]; omega
@[simp] theorem key_DRV_ON (n : Nat) : (R.MOT_AX_STAT_DRV_ON n).key = axBase n + (0x40 * 32 + 12) := by
  simp only [Fld.key, R.MOT_AX_STAT_DRV_ON, axBase]; omega
@[simp] theorem key_VEL (n : Nat) : (R.MOT_AX_VEL_VEL n).key = axBase n + 0x4C * 32 := by
  simp only [Fld.key, R.MOT_AX_VEL_VEL, axBase]; omega
@[simp] theorem key_DRV_EN (n : Nat) : (R.MOT_AX_CMD_DRV_EN n).key = axBase n + 0x58 * 32 := by
  simp only [Fld.key, R.MOT_AX_CMD_DRV_EN, axBase]; omega
@[simp] theorem key_RETAIN (n : Nat) : (R.MOT_AX_W0_RETAIN n).key = axBase n + 1 := by
  simp only [Fld.key, R.MOT_AX_W0_RETAIN, axBase]
@[simp] theorem key_DEC_DEF (n : Nat) : (R.MOT_AX_W3_DEC_DEF n).key = axBase n + 0xC * 32 := by
  simp only [Fld.key, R.MOT_AX_W3_DEC_DEF, axBase]; omega
@[simp] theorem key_HOME_POS (n : Nat) : (R.MOT_AX_W8_HOME_POS n).key = axBase n + 0x20 * 32 := by
  simp only [Fld.key, R.MOT_AX_W8_HOME_POS, axBase]; omega
@[simp] theorem key_STALL_BLANK (n : Nat) : (R.MOT_AX_W10_STALL_BLANK n).key = axBase n + (0x28 * 32 + 24) := by
  simp only [Fld.key, R.MOT_AX_W10_STALL_BLANK, axBase]; omega

/-! ## An axis whose doing changes -/

/-- An axis that does anything is one of the list. -/
theorem State.lt_of_run {s : State} {n : Nat} (h : (s.axis n).run ≠ .rest) : n < s.axes.length := by
  by_contra hge
  have hnone : s.axis n = {} := List.getD_eq_default _ _ (Nat.le_of_not_lt hge)
  rw [hnone] at h
  exact h rfl

theorem State.axShow_kept (s : State) (n : Nat) : RegsKept [R.MOT_AX_STAT_STATE n, R.MOT_AX_VEL_VEL n] s (s.axShow n) ∧
    s.axShow n = { s with regs := (s.axShow n).regs } :=
  ⟨((RegsKept.refl _ s).put (by simp) _).put (by simp) _, rfl⟩

theorem State.axRun_kept (s : State) (n : Nat) (f : Axis → Axis) :
    RegsKept [R.MOT_AX_STAT_STATE n, R.MOT_AX_VEL_VEL n] s (s.axRun n f) ∧
      s.axRun n f = { s with regs := (s.axRun n f).regs, axes := (s.onAxis n f).axes } :=
  ⟨(RegsKept.of_regs (t := s.onAxis n f) rfl).trans ((s.onAxis n f).axShow_kept n).1, rfl⟩

theorem State.axRun_get (s : State) {n : Nat} (f : Axis → Axis) {g : Fld} (h0 : g.key ≠ (R.MOT_AX_STAT_STATE n).key)
    (h1 : g.key ≠ (R.MOT_AX_VEL_VEL n).key) : (s.axRun n f).get g = s.get g :=
  (s.axRun_kept n f).1.get (List.forall_mem_cons.2 ⟨h0, List.forall_mem_singleton.2 h1⟩)

theorem State.axRun_axis (s : State) {n : Nat} (f : Axis → Axis) (h : n < s.axes.length) : (s.axRun n f).axis n = f (s.axis n) :=
  s.onAxis_axis_self f h

theorem State.axRun_vel (s : State) (n : Nat) (f : Axis → Axis) (h : ((s.onAxis n f).axis n).vel = 0) :
    (s.axRun n f).get (R.MOT_AX_VEL_VEL n) = 0 := by
  have hzero : unsigned 32 (if (0 : Rat) ≤ 0 then (0 : Rat).floor else -((-0 : Rat).floor)) % 2 ^ 32 = 0 := by decide +kernel
  refine (State.get_put_self ..).trans ?_
  rw [h]
  exact hzero

/-- What one axis does is nothing to another. -/
theorem State.axRun_other (s : State) {m n : Nat} (h : m ≠ n) (f : Axis → Axis) : AxKept n s (s.axRun m f) :=
  (AxKept.onAxis s f h).trans ((AxKept.putOther h _ _ (by simp)).trans (AxKept.putOther h _ _ (by simp)))

theorem State.axRest_run (s : State) (n : Nat) : ((s.axRest n).axis n).run = .rest := by
  by_cases h : n < s.axes.length
  · exact congrArg Axis.run (s.axRun_axis _ h)
  · have hlen : ¬ n < (s.axRest n).axes.length := by
      have : (s.axRest n).axes.length = s.axes.length := modifyNth_length _ _ _
      omega
    exact congrArg Axis.run (List.getD_eq_default _ _ (Nat.le_of_not_lt hlen))

theorem State.axRest_get (s : State) {n : Nat} {g : Fld} (h0 : g.key ≠ (R.MOT_AX_STAT_STATE n).key) (h1 : g.key ≠ (R.MOT_AX_VEL_VEL n).key) :
    (s.axRest n).get g = s.get g := s.axRun_get _ h0 h1

/-- A group that breaks up leaves the axis that broke it as it is. -/
theorem State.axBreak_kept (s : State) (n : Nat) : AxKept n s (s.axBreak n) :=
  State.forEach_kept (fun u m h => u.axRun_other h _) (by simp [List.mem_filter]) s

theorem State.axFreeze_shown (s : State) (n : Nat) : ((s.axFreeze n).axis n).run = .rest ∧
    (s.axFreeze n).get (R.MOT_AX_POS_POS n) = s.get (R.MOT_AX_POS_POS n) := by
  have hbreak : AxKept n s (if (s.axis n).grp || (match (s.axis n).run with | .follow _ => true | _ => false) then s.axBreak n else s) :=
    .ite (s.axBreak_kept n) (.refl n s)
  exact ⟨State.axRest_run _ n, (State.axRest_get _ (by simp) (by simp)).trans (hbreak.get _ (by simp))⟩

/-! ## Stalls and homing (R409) -/

/-- A homing that has found its stall: the position is HOME_POS, and the axis waits for its back-off. -/
def State.homed (s : State) (n : Nat) : State :=
  let s := s.put (R.MOT_AX_STAT_STALL n) 1
  let p := s.get (R.MOT_AX_W8_HOME_POS n)
  ((s.put (R.MOT_AX_POS_POS n) p).axFound n).axRun n (fun a => { a with run := .homeWait, pos := (signed 32 p : Rat), vel := 0 })

theorem State.axStall_home {s : State} {n : Nat} {up : Bool} (hrun : (s.axis n).run = .home up) (hc : s.stallCounts n = true) :
    s.axStall n = (s.homed n).axLog n := by
  have hcounts : (s.put (R.MOT_AX_STAT_STALL n) 1).stallCounts n = true := by
    unfold State.stallCounts
    rw [State.get_put_ne _ _ (by simp)]
    exact hc
  have hrun' : ((s.put (R.MOT_AX_STAT_STALL n) 1).axis n).run = .home up := hrun
  unfold State.axStall
  dsimp only
  rw [hrun']
  exact if_pos hcounts

theorem State.homed_shown {s : State} {n : Nat} (h : n < s.axes.length) : ((s.homed n).axis n).run = .homeWait ∧
    (s.homed n).get (R.MOT_AX_POS_POS n) = s.get (R.MOT_AX_W8_HOME_POS n) ∧ (s.homed n).get (R.MOT_AX_STAT_LOST n) = 0 ∧
    (s.homed n).get (R.MOT_AX_STAT_STALL n) = 1 ∧ (s.homed n).get (R.MOT_AX_VEL_VEL n) = 0 ∧
    RegsKept [R.MOT_AX_POS_POS n, R.MOT_AX_STAT_LOST n, R.MOT_AX_STAT_UNCERTAIN n, R.MOT_AX_UNCERT_E n, R.MOT_AX_STAT_STALL n,
      R.MOT_AX_STAT_STATE n, R.MOT_AX_VEL_VEL n] s (s.homed n) := by
  unfold State.homed
  extract_lets u p
  have hp : p = s.get (R.MOT_AX_W8_HOME_POS n) := State.get_put_ne _ _ (by simp)
  have hlt : p < 2 ^ 32 := hp ▸ s.get_lt _
  have hlen : n < ((u.put (R.MOT_AX_POS_POS n) p).axFound n).axes.length := h
  refine ⟨congrArg Axis.run (State.axRun_axis _ _ hlen), ?_, ?_, ?_, State.axRun_vel _ n _ (congrArg Axis.vel (State.onAxis_axis_self _ _ hlen)), ?_⟩
  · rw [State.axRun_get _ _ (by simp) (by simp), State.axFound_get _ (by simp) (by simp) (by simp), State.get_put_self, ← hp]
    exact Nat.mod_eq_of_lt hlt
  · rw [State.axRun_get _ _ (by simp) (by simp), State.axFound, State.get_put_ne _ _ (by simp), State.get_put_ne _ _ (by simp)]
    exact State.get_put_self ..
  · rw [State.axRun_get _ _ (by simp) (by simp), State.axFound_get _ (by simp) (by simp) (by simp), State.get_put_ne _ _ (by simp)]
    exact State.get_put_self ..
  · have hput : RegsKept [R.MOT_AX_POS_POS n, R.MOT_AX_STAT_LOST n, R.MOT_AX_STAT_UNCERTAIN n, R.MOT_AX_UNCERT_E n, R.MOT_AX_STAT_STALL n,
        R.MOT_AX_STAT_STATE n, R.MOT_AX_VEL_VEL n] s ((u.put (R.MOT_AX_POS_POS n) p).axFound n) :=
      (((((RegsKept.refl _ s).put (by simp) 1).put (by simp) p).put (by simp) 0).put (by simp) 0).put (by simp) 0
    exact hput.trans ((State.axRun_kept _ n _).1.mono (by simp))

/-- A back-off that begins: the axis goes to its goal by the homing's own speed. -/
def State.backingOff (s : State) (n : Nat) : State :=
  let a := s.axis n
  (s.axStart n (s.axPos n + (if a.homeUp then -(a.backoff : Int) else (a.backoff : Int))) a.speed a.acc a.dec).axRun n
    (fun a => { a with run := .back })

theorem State.axBackoff_wait {s : State} {n : Nat} (h : (s.axis n).run = .homeWait) :
    s.axBackoff n = if (s.axis n).backoff = 0 then (s.backingOff n).axArrived n else s.backingOff n := by
  unfold State.axBackoff
  dsimp only
  rw [h]
  rfl

theorem State.backingOff_shown {s : State} {n : Nat} (h : n < s.axes.length) : ((s.backingOff n).axis n).run = .back ∧
    ((s.backingOff n).axis n).goal = s.axPos n + (if (s.axis n).homeUp then -((s.axis n).backoff : Int) else ((s.axis n).backoff : Int)) ∧
    RegsKept [R.MOT_AX_STAT_STALL n, R.MOT_AX_STAT_STATE n, R.MOT_AX_VEL_VEL n] s (s.backingOff n) := by
  unfold State.backingOff
  extract_lets a
  have hstart (g : Int) (v ac d : Rat) : n < (s.axStart n g v ac d).axes.length ∧ ((s.axStart n g v ac d).axis n).goal = g ∧
      RegsKept [R.MOT_AX_STAT_STALL n, R.MOT_AX_STAT_STATE n, R.MOT_AX_VEL_VEL n] s (s.axStart n g v ac d) := by
    refine ⟨?_, congrArg Axis.goal (State.axRun_axis _ _ h), ((RegsKept.refl _ s).put (by simp) 0).trans ((State.axRun_kept _ n _).1.mono (by simp))⟩
    exact lt_of_lt_of_eq h (modifyNth_length _ _ _).symm
  obtain ⟨hlen, hgoal, hkept⟩ := hstart (s.axPos n + (if a.homeUp then -(a.backoff : Int) else (a.backoff : Int))) a.speed a.acc a.dec
  generalize s.axStart n (s.axPos n + (if a.homeUp then -(a.backoff : Int) else (a.backoff : Int))) a.speed a.acc a.dec = u at hlen hgoal hkept
  exact ⟨congrArg Axis.run (u.axRun_axis _ hlen), (congrArg Axis.goal (u.axRun_axis _ hlen)).trans hgoal,
    hkept.trans ((u.axRun_kept n _).1.mono (by simp))⟩

theorem State.axArrived_back {s : State} {n : Nat} (h : (s.axis n).run = .back) :
    s.axArrived n = ((s.axRest n).put (R.MOT_AX_STAT_HOMED n) 1).axEvent n 2 := by
  unfold State.axArrived
  dsimp only
  rw [h]

/-! ## Driver faults and the driver's enable (R410, R411) -/

/-- A driver fault before its record: the axis is frozen, and FAULT and LOST are shown. -/
def State.faulted (s : State) (n : Nat) : State :=
  let s := ((s.axFreeze n).axRaise (R.MOT_AX_STAT_FAULT n)).axEvent n 4
  if s.flag (R.MOT_AX_STAT_LOST n) then s.axEvent n 5 else s.axLost n

theorem State.axFault_eq (s : State) (n : Nat) : s.axFault n = (s.faulted n).axLog n := rfl

theorem State.axis_of_notice {s t : State} (h : Notice s t) (n : Nat) : t.axis n = s.axis n := by rw [State.axis, State.axis, h.same_axes]

theorem State.axLost_axis (s : State) (n : Nat) : (s.axLost n).axis n = s.axis n := by
  unfold State.axLost
  split
  · rfl
  · exact State.axis_of_notice (State.postEvent_notice _ _ _ _) n

theorem State.axRaise_axis (s : State) (f : Fld) (n : Nat) : (s.axRaise f).axis n = s.axis n := by
  unfold State.axRaise State.axis
  rw [State.raise_rest]

theorem State.faulted_shown (s : State) (n : Nat) : ((s.faulted n).axis n).run = .rest ∧ (s.faulted n).flag (R.MOT_AX_STAT_FAULT n) = true ∧
    (s.faulted n).flag (R.MOT_AX_STAT_LOST n) = true ∧ (s.faulted n).get (R.MOT_AX_POS_POS n) = s.get (R.MOT_AX_POS_POS n) := by
  obtain ⟨hrun, hpos⟩ := s.axFreeze_shown n
  have hfkey : axKey n (R.MOT_AX_STAT_FAULT n).key := by simp
  unfold State.faulted
  generalize s.axFreeze n = u at hrun hpos
  extract_lets v
  have hevent : AxKept n (u.axRaise (R.MOT_AX_STAT_FAULT n)) v := State.axEvent_kept _ n n 4
  have hrun' : (v.axis n).run = .rest := by rw [hevent.axis, State.axRaise_axis]; exact hrun
  have hfault : v.flag (R.MOT_AX_STAT_FAULT n) = true :=
    (hevent.flag hfkey).trans (State.raise_flag srcMOT (axKey_outside hfkey) Nat.one_pos)
  have hpos' : v.get (R.MOT_AX_POS_POS n) = s.get (R.MOT_AX_POS_POS n) :=
    (hevent.get _ (by simp)).trans ((State.raise_get srcMOT (axKey_outside (n := n) (by simp)) (by simp)).trans hpos)
  clear_value v
  by_cases hlost : v.flag (R.MOT_AX_STAT_LOST n) = true
  · rw [if_pos hlost]
    have hfive := v.axEvent_kept n n 5
    exact ⟨by rw [hfive.axis]; exact hrun', (hfive.flag hfkey).trans hfault, (hfive.flag (by simp)).trans hlost,
      (hfive.get _ (by simp)).trans hpos'⟩
  · rw [if_neg hlost]
    exact ⟨by rw [v.axLost_axis]; exact hrun', (congrArg (· == 1) (v.axLost_get hfkey (by simp) (by simp))).trans hfault, v.axLost_flag n,
      (v.axLost_get (by simp) (by simp) (by simp)).trans hpos'⟩

/-- A driver that goes off: its state, its pin, and the position it loses without RETAIN. -/
theorem State.drvFall_shown (s : State) (n : Nat) : (s.drvFall n).flag (R.MOT_AX_STAT_DRV_ON n) = false ∧
    (s.flag (R.MOT_AX_W0_RETAIN n) = false → (s.drvFall n).flag (R.MOT_AX_STAT_LOST n) = true) ∧
    (s.flag (R.MOT_AX_W0_RETAIN n) = true → (s.drvFall n).get (R.MOT_AX_STAT_LOST n) = s.get (R.MOT_AX_STAT_LOST n)) ∧
    (∀ f : Fld, axKey n f.key → f.key ≠ (R.MOT_AX_STAT_DRV_ON n).key → f.key ≠ (R.MOT_AX_STAT_LOST n).key →
      f.key ≠ (R.MOT_AX_STAT_HOMED n).key → (s.drvFall n).get f = s.get f) := by
  unfold State.drvFall
  extract_lets u v
  have hregs : v.regs = (s.put (R.MOT_AX_STAT_DRV_ON n) 0).regs := by
    show (if u.drives then u.emit (.pin .drvEn n 0) else u).regs = _
    split <;> rfl
  clear_value v u
  have hv {f : Fld} (hf : f.key ≠ (R.MOT_AX_STAT_DRV_ON n).key) : v.get f = s.get f := (State.get_congr hregs f).trans (State.get_put_ne _ _ hf)
  have hon : v.flag (R.MOT_AX_STAT_DRV_ON n) = false := (congrArg (· == 1) (State.get_congr hregs _)).trans (State.flag_put_self _ rfl 0)
  have hretain : v.flag (R.MOT_AX_W0_RETAIN n) = s.flag (R.MOT_AX_W0_RETAIN n) := congrArg (· == 1) (hv (by simp))
  rw [hretain]
  cases s.flag (R.MOT_AX_W0_RETAIN n)
  · rw [if_neg Bool.false_ne_true]
    exact ⟨(congrArg (· == 1) (v.axLost_get (by simp) (by simp) (by simp))).trans hon, fun _ => v.axLost_flag n, fun h => absurd h Bool.false_ne_true,
      fun f hf h0 h1 h2 => (v.axLost_get hf h1 h2).trans (hv h0)⟩
  · rw [if_pos rfl]
    exact ⟨hon, fun h => absurd h.symm Bool.false_ne_true, fun _ => hv (by simp), fun f _ h0 _ _ => hv h0⟩

theorem State.axStop_move {s : State} {n : Nat} (h : (s.axis n).run = .move) (d : Rat) : s.axStop n (some d) =
    s.axRun n (fun a => { a with run := .stop d, next := none, overrun := false, held := none, braking := false }) := by
  have hlead : s.axLead n = n := by
    unfold State.axLead
    rw [h]
  unfold State.axStop
  dsimp only
  rw [hlead, h]
  rfl

/-- The end of a back-off: at rest where it is, homed. -/
theorem State.backDone_shown {s u : State} {n : Nat} (h : (s.axis n).run = .back) (hu : u = s.axArrived n) : (u.axis n).run = .rest ∧
    u.flag (R.MOT_AX_STAT_HOMED n) = true ∧ u.get (R.MOT_AX_POS_POS n) = s.get (R.MOT_AX_POS_POS n) := by
  rw [hu, State.axArrived_back h]
  have hevent := ((s.axRest n).put (R.MOT_AX_STAT_HOMED n) 1).axEvent_kept n n 2
  refine ⟨(congrArg Axis.run hevent.axis).trans (s.axRest_run n), (hevent.flag (by simp)).trans (State.flag_put_self _ rfl 1), ?_⟩
  rw [hevent.get _ (by simp), State.get_put_ne _ _ (by simp), State.axRest_get _ (by simp) (by simp)]

theorem State.axInputs_of {s : State} {n : Nat} (h : n < 8) (hm : s.mode ≠ .shadow) : (n < 8 && s.axInputs) = true := by
  simp [h, State.axInputs, hm]

theorem exec_stallAccept {s : State} {n : Nat} (hr : s.running = true) (h : n < 8) (hm : s.mode ≠ .shadow) :
    exec (.stallAccept n) s = .next (s.framed (s.axStall n)) :=
  show execStallAccept n s = _ from coreEvent_eq hr (if_pos (State.axInputs_of h hm))

theorem exec_homeBackoff {s : State} {n : Nat} (hr : s.running = true) (h : n < 8) :
    exec (.homeBackoff n) s = .next (s.framed (s.axBackoff n)) := show execHomeBackoff n s = _ from coreEvent_eq hr (if_pos h)

theorem exec_dfaultAccept {s : State} {n : Nat} (hr : s.running = true) (h : n < 8) (hm : s.mode ≠ .shadow) :
    exec (.dfaultAccept n) s = .next (s.framed (s.axFault n)) :=
  show execDfaultAccept n s = _ from coreEvent_eq hr (if_pos (State.axInputs_of h hm))

theorem exec_drvEnWrite {s : State} {n : Nat} (hr : s.running = true) (h : n < 8) (hm : s.mode ≠ .shadow) (v : Nat) :
    exec (.drvEnWrite n v) s = .next (s.framed (s.drvWrite n v)) :=
  show execDrvEnWrite n v s = _ from coreEvent_eq hr (if_pos (State.axInputs_of h hm))

/-- FAULT ends with its input. -/
theorem exec_dfaultInactive {s : State} {n : Nat} (hr : s.running = true) (h : n < 8) (hm : s.mode ≠ .shadow) :
    exec (.dfaultInactive n) s = .next (s.framed
      (if s.flag (R.MOT_AX_STAT_FAULT n) then (s.put (R.MOT_AX_STAT_FAULT n) 0).axLog n else s)) := by
  refine show execDfaultInactive n s = _ from coreEvent_eq hr ?_
  rw [State.axInputs_of h hm, Bool.true_and]

/-! ### The driver's enable -/

theorem State.drvWrite_on {s : State} {n v : Nat} (hv : v % 2 = 1) : (s.drvWrite n v).flag (R.MOT_AX_CMD_DRV_EN n) = true ∧
    (s.drvWrite n v).flag (R.MOT_AX_STAT_DRV_ON n) = true ∧
    RegsKept [R.MOT_AX_CMD_DRV_EN n, R.MOT_AX_STAT_DRV_ON n] s (s.drvWrite n v) := by
  have hregs : (s.drvWrite n v).regs = ((s.put (R.MOT_AX_CMD_DRV_EN n) v).put (R.MOT_AX_STAT_DRV_ON n) 1).regs := by
    unfold State.drvWrite
    dsimp only
    rw [if_pos (show bit v 0 = true by simp [bit, hv])]
    split <;> rfl
  refine ⟨?_, ?_, (((RegsKept.refl _ s).put (by simp) v).put (by simp) 1).trans (.of_regs hregs)⟩
  · rw [State.flag, State.get_congr hregs, State.get_put_ne _ _ (by simp)]
    exact (State.flag_put_self s rfl v).trans (by rw [hv]; rfl)
  · rw [State.flag, State.get_congr hregs]
    exact State.flag_put_self _ rfl 1

theorem State.drvWrite_off {s : State} {n v : Nat} (hv : v % 2 = 0) : s.drvWrite n v =
    (let u := s.put (R.MOT_AX_CMD_DRV_EN n) v
     if s.flag (R.MOT_AX_CMD_DRV_EN n) = false then u
     else if (s.axis n).run = .rest then u.drvFall n
     else (u.axStop n (some (s.get (R.MOT_AX_W3_DEC_DEF n) : Rat))).onAxis n (fun a => { a with drvOff := true })) := by
  have hdec : (s.put (R.MOT_AX_CMD_DRV_EN n) v).get (R.MOT_AX_W3_DEC_DEF n) = s.get (R.MOT_AX_W3_DEC_DEF n) :=
    State.get_put_ne _ _ (by simp)
  unfold State.drvWrite
  dsimp only
  rw [if_neg (show ¬ bit v 0 = true by simp [bit, hv]), hdec]
  cases s.flag (R.MOT_AX_CMD_DRV_EN n) <;> rfl

/-- A driver switched off while its axis moves goes off once the axis has stopped. -/
theorem State.drvStopping_shown {s u : State} {n v : Nat} (hrun : (s.axis n).run = .move) (d : Rat)
    (hu : u = ((s.put (R.MOT_AX_CMD_DRV_EN n) v).axStop n (some d)).onAxis n (fun a => { a with drvOff := true })) :
    (u.axis n).run = .stop d ∧ (u.axis n).drvOff = true ∧ u.get (R.MOT_AX_STAT_DRV_ON n) = s.get (R.MOT_AX_STAT_DRV_ON n) := by
  have hlen : n < s.axes.length := State.lt_of_run (by rw [hrun]; simp)
  have hrun' : ((s.put (R.MOT_AX_CMD_DRV_EN n) v).axis n).run = .move := hrun
  rw [State.axStop_move hrun'] at hu
  have hlen' := lt_of_lt_of_eq hlen (modifyNth_length s.axes n (fun a => { a with
    run := .stop d, next := none, overrun := false, held := none, braking := false })).symm
  rw [hu, State.onAxis_axis_self _ _ hlen']
  refine ⟨congrArg Axis.run (State.axRun_axis _ _ hlen), rfl, ?_⟩
  exact (State.axRun_get _ _ (by simp) (by simp)).trans (State.get_put_ne _ _ (by simp))

/-! ### Sensor frames (R412) -/

theorem State.ssiData_axes (s : State) {k : Nat} (raw : Nat) (hk : k < 4) :
    (List.range 8).filter (fun (n : Nat) => (s.ssiData k raw).get (R.MOT_AX_W0_SSI n) == k) =
      (List.range 8).filter (fun (n : Nat) => s.get (R.MOT_AX_W0_SSI n) == k) := by
  refine List.filter_congr fun n hn => ?_
  rw [(s.ssiData_kept raw hk (List.mem_range.1 hn)).get _ (by simp)]

/-- A good frame goes to the axes that name its sensor, as they name it before the frame. -/
theorem exec_ssiFrame_axes {s : State} {k raw v : Nat} (hr : s.running = true) (hk : k < 4) (hen : s.flag (R.MOT_SSI_CFG_EN k) = true)
    (hv : v = s.ssiValue k raw) : exec (.ssiFrame k raw true) s = .next (s.framed ((s.put (R.MOT_SSI_DATA_VALUE k) v).forEach
      ((List.range 8).filter (fun (n : Nat) => s.get (R.MOT_AX_W0_SSI n) == k)) (fun s n => s.axSsi n v))) := by
  rw [exec_ssiFrame raw hr hk hen, s.ssiData_axes raw hk, hv]
  rfl

/-- Settles O54: what the events at an axis do. -/
theorem axisEvents : Obligations.AxisEvents := by
  unfold Obligations.AxisEvents
  refine ⟨fun s ax up hr hax hm hrun hc => ?_, fun s ax hr hax hrun => ⟨fun h0 => ?_, fun h0 => ?_⟩, fun s ax hr hax hm => ⟨?_, fun hf => ?_, fun hf => ?_⟩,
    fun s k raw hr hk => ⟨fun hen ok => ?_, fun hen => ⟨?_, fun v hv => ⟨fun hnone => ?_, exec_ssiFrame_axes hr hk hen hv⟩⟩⟩,
    fun s ax v hr hax hm => ⟨fun hv => ?_, fun hv hen => ?_, fun hv hen hrun => ?_, fun hv hen hrun => ?_⟩,
    fun s ax hr hax => ⟨fun hoff hrun => ?_, fun h => ?_⟩⟩
  · obtain ⟨hwait, hpos, hlost, hstall, hvel, hkept⟩ := State.homed_shown (State.lt_of_run (s := s) (n := ax) (by rw [hrun]; simp))
    have hax' : AxKept ax (s.homed ax) (s.framed (s.axStall ax)) := by
      rw [State.axStall_home hrun hc]
      exact (State.axLog_kept _ ax ax).trans (.framed ax s _)
    refine ⟨_, exec_stallAccept hr hax hm, (congrArg Axis.run hax'.axis).trans hwait, (hax'.get _ (by simp)).trans hpos,
      (hax'.get _ (by simp)).trans hlost, (hax'.get _ (by simp)).trans hstall, (hax'.get _ (by simp)).trans hvel, ?_⟩
    rw [State.axStall_home hrun hc]
    have hkept' := hkept.mono (List.subset_append_left _ [R.TSL_LOG_TX_OFF])
    exact (hkept'.logged (by simp) (State.logOne_logged ..)).trans (.of_regs rfl)
  · obtain ⟨hback, -, hkept⟩ := State.backingOff_shown (State.lt_of_run (s := s) (n := ax) (by rw [hrun]; simp))
    obtain ⟨hrest, hhomed, hpos⟩ := State.backDone_shown hback (u := s.axBackoff ax) ((State.axBackoff_wait hrun).trans (if_pos h0))
    exact ⟨_, exec_homeBackoff hr hax, hrest, hhomed, hpos.trans (hkept.get (by simp))⟩
  · obtain ⟨hback, hgoal, hkept⟩ := State.backingOff_shown (State.lt_of_run (s := s) (n := ax) (by rw [hrun]; simp))
    refine ⟨_, exec_homeBackoff hr hax, ?_⟩
    rw [(State.axBackoff_wait hrun).trans (if_neg h0)]
    exact ⟨hback, hgoal, hkept.trans (.of_regs rfl)⟩
  · obtain ⟨hrest, hfault, hlost, hpos⟩ := s.faulted_shown ax
    have hkept : AxKept ax (s.faulted ax) (s.axFault ax) := State.axLog_kept _ ax ax
    have hframed := hkept.trans (.framed ax s _)
    exact ⟨_, exec_dfaultAccept hr hax hm, (congrArg Axis.run hframed.axis).trans hrest, (hframed.flag (by simp)).trans hfault,
      (hframed.flag (by simp)).trans hlost, (hframed.get _ (by simp)).trans hpos⟩
  · refine ⟨_, exec_dfaultInactive hr hax hm, ?_⟩
    rw [if_pos hf]
    exact ⟨((State.axLog_kept _ ax ax).flag (by simp)).trans (State.flag_put_self s rfl 0),
      (((RegsKept.refl _ s).put (by simp) 0).logged (by simp) (State.logOne_logged ..)).trans (.of_regs rfl)⟩
  · rw [exec_dfaultInactive hr hax hm, hf]
    rfl
  · exact show execSsiFrame k raw ok s = _ from coreEvent_next hr (if_pos (.inr hen)) rfl rfl
  · refine ⟨_, (show execSsiFrame k raw false s = _ from
      coreEvent_next hr ((if_neg (by simp [hen, hk])).trans (if_pos rfl)) rfl rfl), s.get_bump_self _ 1, (RegsKept.refl _ s).bump (by simp) 1, rfl⟩
  · have hnil : (List.range 8).filter (fun (n : Nat) => s.get (R.MOT_AX_W0_SSI n) == k) = [] :=
      List.filter_eq_nil_iff.2 fun n hn => by simpa using hnone n (List.mem_range.1 hn)
    refine ⟨_, (exec_ssiFrame_axes hr hk hen hv), ?_⟩
    rw [hnil]
    exact ⟨State.get_put_self .., (RegsKept.refl _ s).put (by simp) v, rfl⟩
  · obtain ⟨hen, hon, hkept⟩ := State.drvWrite_on (s := s) (n := ax) hv
    exact ⟨_, exec_drvEnWrite hr hax hm v, hen, hon, hkept.trans (.of_regs rfl)⟩
  · refine ⟨_, exec_drvEnWrite hr hax hm v, ?_⟩
    rw [State.drvWrite_off hv, hen]
    exact ⟨(RegsKept.refl _ s).put (by simp) v, rfl⟩
  · obtain ⟨hon, hlost, hretained, hother⟩ := (s.put (R.MOT_AX_CMD_DRV_EN ax) v).drvFall_shown ax
    refine ⟨_, exec_drvEnWrite hr hax hm v, ?_⟩
    rw [State.drvWrite_off hv]
    dsimp only
    rw [hen, if_neg (by simp), if_pos hrun]
    have hretain : (s.put (R.MOT_AX_CMD_DRV_EN ax) v).flag (R.MOT_AX_W0_RETAIN ax) = s.flag (R.MOT_AX_W0_RETAIN ax) := s.flag_put_ne v (by simp)
    have hlost0 : (s.put (R.MOT_AX_CMD_DRV_EN ax) v).get (R.MOT_AX_STAT_LOST ax) = s.get (R.MOT_AX_STAT_LOST ax) := State.get_put_ne _ _ (by simp)
    rw [hretain] at hlost hretained
    rw [hlost0] at hretained
    refine ⟨?_, hon, hlost, hretained⟩
    exact (congrArg (· == 1) (hother _ (by simp) (by simp) (by simp) (by simp))).trans ((State.flag_put_self s rfl v).trans (by rw [hv]; rfl))
  · refine ⟨_, exec_drvEnWrite hr hax hm v, ?_⟩
    rw [State.drvWrite_off hv]
    dsimp only
    rw [hen, if_neg (by simp), if_neg (by rw [hrun]; simp)]
    obtain ⟨hstop, hoff, hon⟩ := State.drvStopping_shown (v := v) hrun (s.get (R.MOT_AX_W3_DEC_DEF ax) : Rat) rfl
    exact ⟨hstop, hoff, hon⟩
  · exact ⟨show execDrvenFall ax s = _ from coreEvent_eq hr (if_pos ⟨hax, hoff, hrun⟩), (s.drvFall_shown ax).1⟩
  · refine show execDrvenFall ax s = _ from coreEvent_next hr (if_neg ?_) rfl rfl
    rintro ⟨-, hoff, hrun⟩
    exact h.elim (fun h => by rw [h] at hoff; exact Bool.false_ne_true hoff) (· hrun)

end Sys2Proof.Machine

/-! The Motion commands (R285, R406–R409). -/

namespace Sys2Proof.Machine

theorem bit_b2n (b : Bool) : bit (b2n b) 0 = b := by cases b <;> rfl

theorem b2n_lt_two (b : Bool) : b2n b < 2 := by cases b <;> decide

/-! ## MOVE and HOME -/

/-- What a MOVE with clean parameters does. -/
theorem State.cmdMove_eq {s : State} {c : Cmd} {n : Nat} {rel : Bool} (hn : s.arg c 0 1 = n) (hlt : n < 8) (hrel : s.arg c 1 1 = b2n rel)
    (hzero : s.arg c 2 2 = 0) : s.cmdMove c =
    if s.axRefuse n rel (s.axTarget n rel (s.argS c 4)) ≠ 0 then s.finish c (s.axRefuse n rel (s.axTarget n rel (s.argS c 4)))
    else if (s.axTaken n || s.axBusy n) = true then s.finish c 0x0143
    else (s.axIssue n (.move (s.axTarget n rel (s.argS c 4)) (s.axSpeed n (s.arg c 8 4)) (s.axAcc n (s.arg c 12 4))
      (s.axDec n (s.arg c 16 4)))).finish c stOK := by
  have hfl := b2n_lt_two rel
  unfold State.cmdMove
  dsimp only
  rw [hn, hrel, bit_b2n, if_neg (by omega)]

theorem State.cmdHome_eq {s : State} {c : Cmd} {n : Nat} (hn : s.arg c 0 1 = n) (hlt : n < 8) (hfl : s.arg c 1 1 < 2)
    (hzero : s.arg c 2 2 = 0) : s.cmdHome c =
    if s.flag (R.MOT_AX_STAT_FAULT n) = true then s.finish c 0x0141
    else if (s.axTaken n || (s.axis n).run != .rest) = true then s.finish c 0x0143
    else (s.axIssue n (.home (!bit (s.arg c 1 1) 0) (s.axSpeed n (s.arg c 4 4)) (s.arg c 8 4))).finish c stOK := by
  unfold State.cmdHome
  dsimp only
  rw [hn, if_neg (by omega)]

/-! ## AXIS_STOP: the arguments are read again at each axis, and stand unchanged -/

/-- A key in the slots, or beyond the mailbox block. -/
theorem State.postSoft_look (s : State) {e : List Nat} (he : e.length = 32) (b : Bool) {k : Nat} (hk : k < 0x40104000 * 32 ∨ 0x40120000 * 32 ≤ k) :
    Cells.look dfltReg (s.postSoft e b).regs k = Cells.look dfltReg s.regs k := by
  have htail : k ≠ R.MBX_CQ_TAIL_TAIL.key := by simp only [Fld.key, R.MBX_CQ_TAIL_TAIL]; omega
  have hdrop : k ≠ R.MBX_CQ_DROP_COUNT.key := by simp only [Fld.key, R.MBX_CQ_DROP_COUNT]; omega
  have hlost : k ≠ R.MBX_STAT_CQ_LOST.key := by simp only [Fld.key, R.MBX_STAT_CQ_LOST]; omega
  have hpost : Cells.look dfltReg s.postLost.regs k = Cells.look dfltReg s.regs k := s.postLost_look htail (by omega) (by omega)
  have hwrite := (s.postLost.writeEntry_look e he (k := k) ⟨htail, by omega⟩).trans hpost
  unfold State.postSoft
  split
  · rfl
  · dsimp only
    split
    · exact State.ite_both (fun t => Cells.look dfltReg t.regs k = Cells.look dfltReg s.regs k)
        ((State.sendIrq_look _ _ (by omega)).trans hwrite) hwrite
    · simp [State.bump, Cells.look_store, hdrop, hlost, hpost]

theorem State.postEvent_look (s : State) (code detail data : Nat) {k : Nat} (hk : k < 0x40104000 * 32 ∨ 0x40120000 * 32 ≤ k) :
    Cells.look dfltReg (s.postEvent code detail data).regs k = Cells.look dfltReg s.regs k := by
  unfold State.postEvent
  dsimp only
  rw [State.postSoft_look _ (s.entry_length ..) true hk]
  split <;> rfl

/-- The first word of a command's payload. -/
def argWord (r : SlotRef) : Fld := wordFld (slotBase r + 0x10)

theorem argWord_key {r : SlotRef} (h : r.slot < 64) : ((argWord r).key < 0x40104000 * 32 ∨ 0x40120000 * 32 ≤ (argWord r).key) ∧
    (argWord r).key ≠ R.TSL_LOG_TX_OFF.key ∧ (∀ n, (argWord r).key ≠ (R.MOT_AX_STAT_STATE n).key) ∧
    ∀ n, (argWord r).key ≠ (R.MOT_AX_VEL_VEL n).key := by
  obtain ⟨tr, m⟩ := r
  cases tr <;> refine ⟨?_, ?_, fun n => ?_, fun n => ?_⟩ <;>
    simp only [argWord, slotBase, wordFld, Fld.key, R.TSL_LOG_TX_OFF, R.MOT_AX_STAT_STATE, R.MOT_AX_VEL_VEL] at h ⊢ <;> omega

/-- The second byte of a payload stands in its first word. -/
theorem State.arg_one_congr {s t : State} {c : Cmd} (h : t.get (argWord c.ref) = s.get (argWord c.ref)) : t.arg c 1 1 = s.arg c 1 1 := by
  have hword (u : State) : u.arg c 1 1 = field (u.bytesAt (slotBase c.ref + 0x10) 4) 1 1 := by
    rw [u.bytesAt_take _ (show 4 ≤ 240 by decide), State.arg, field, field, List.drop_take, List.take_take]
    rfl
  rw [hword, hword, State.bytesAt_congr (s := s) (t := t) (n := 4) fun i hi => ?_]
  have hi0 : i = 0 := by
    unfold ceilDiv at hi
    omega
  rw [hi0]
  exact h

theorem State.axIssue_stop_word (s : State) {r : SlotRef} (hr : r.slot < 64) (n : Nat) (hard : Bool) :
    (s.axIssue n (.stop hard)).get (argWord r) = s.get (argWord r) := by
  obtain ⟨hbox, hlog, hstate, hvel⟩ := argWord_key hr
  unfold State.axIssue
  split
  · exact congrArg (· % 2 ^ (argWord r).width) ((State.logAdd_logged _ _ _ _ _).regs _ hlog)
  · unfold State.axDo State.axHalt State.axStop
    dsimp only
    split
    · rfl
    · exact (congrArg (· % 2 ^ (argWord r).width) (State.postEvent_look _ _ _ _ hbox)).trans (State.axRest_get _ (hstate _) (hvel _))
    · exact State.axRun_get _ _ (hstate _) (hvel _)

/-- Steps that agree while something holds that they keep agree over a list. -/
theorem State.forEach_congr {P : State → Prop} {f g : State → Nat → State} (hf : ∀ u n, P u → f u n = g u n ∧ P (f u n)) {s : State} (hs : P s)
    (l : List Nat) : s.forEach l f = s.forEach l g := by
  induction l generalizing s with
  | nil => rfl
  | cons n l ih =>
    obtain ⟨heq, hp⟩ := hf s n hs
    exact (ih hp).trans (congrArg (fun u => State.forEach u l g) heq)

theorem State.cmdAxisStop_eq {s : State} {c : Cmd} (hslot : c.ref.slot < 64) (hfl : s.arg c 1 1 < 2) (hzero : s.arg c 2 2 = 0) : s.cmdAxisStop c =
    (s.forEach (members 8 (s.arg c 0 1)) (fun s n => s.axIssue n (.stop (bit (s.arg c 1 1) 0)))).finish c stOK := by
  have hsame : s.forEach (members 8 (s.arg c 0 1)) (fun u n => u.axIssue n (.stop (bit (s.arg c 1 1) 0))) =
      s.forEach (members 8 (s.arg c 0 1)) (fun s n => s.axIssue n (.stop (bit (s.arg c 1 1) 0))) := by
    refine State.forEach_congr (P := fun u => u.get (argWord c.ref) = s.get (argWord c.ref)) (fun u n hu => ⟨?_, ?_⟩) rfl _
    · rw [State.arg_one_congr hu]
    · exact (u.axIssue_stop_word hslot n _).trans hu
  unfold State.cmdAxisStop
  dsimp only
  rw [if_neg (by omega), hsame]

/-- Outside a pair a stop of an axis at rest has nothing to do. -/
theorem State.axIssue_stop_rest {s : State} {n : Nat} {hard : Bool} (hl : s.logOpen = false) (hrun : (s.axis n).run = .rest) :
    s.axIssue n (.stop hard) = s := by
  have hlead : s.axLead n = n := by
    unfold State.axLead
    rw [hrun]
  unfold State.axIssue
  rw [if_neg (by rw [hl]; exact Bool.false_ne_true)]
  unfold State.axDo State.axHalt State.axStop
  dsimp only
  rw [hlead, hrun]

/-! ## MOVE_GROUP -/

/-- The first refusal of a list, 0 without one. -/
theorem foldl_first_refusal {r : Nat → Nat} (l : List Nat) :
    l.foldl (fun (b : Nat) (i : Nat) => if b = 0 then r i else b) 0 = ((l.find? (fun i => r i != 0)).map r).getD 0 := by
  have hkeep (b : Nat) (hb : b ≠ 0) (l : List Nat) : l.foldl (fun (b : Nat) (i : Nat) => if b = 0 then r i else b) b = b := by
    induction l with
    | nil => rfl
    | cons i l ih => rw [List.foldl_cons, if_neg hb, ih]
  induction l with
  | nil => rfl
  | cons i l ih =>
    rw [List.foldl_cons, if_pos rfl]
    by_cases h : r i = 0
    · rw [h, ih, List.find?_cons_of_neg (by simp [h])]
    · rw [hkeep _ h, List.find?_cons_of_pos (by simpa using h)]
      rfl

/-- Of an ascending list the fold keeps the first of the greatest values. -/
theorem foldl_leftmost_max {f : Nat → Nat} {lead : Nat} {l : List Nat} {b : Nat} (hasc : l.Pairwise (· < ·))
    (hb : b = lead ∨ f b < f lead ∧ lead ∈ l) (hmax : ∀ i ∈ l, f i ≤ f lead) (hleft : ∀ i ∈ l, i < lead → f i < f lead) :
    l.foldl (fun (b : Nat) (i : Nat) => if f b < f i then i else b) b = lead := by
  induction l generalizing b with
  | nil => exact hb.elim id fun h => absurd h.2 (by simp)
  | cons i l ih =>
    obtain ⟨hi, hl⟩ := List.pairwise_cons.1 hasc
    obtain ⟨hmaxi, hmaxl⟩ := List.forall_mem_cons.1 hmax
    obtain ⟨hlefti, hleftl⟩ := List.forall_mem_cons.1 hleft
    refine ih hl ?_ hmaxl hleftl
    rcases hb with rfl | ⟨hlt, hmem⟩
    · exact .inl (if_neg (Nat.not_lt.2 hmaxi))
    · rcases List.mem_cons.1 hmem with rfl | hmem
      · exact .inl (if_pos hlt)
      · refine .inr ⟨?_, hmem⟩
        dsimp only
        split
        · exact hlefti (hi lead hmem)
        · exact hlt

theorem members_ascend (n mask : Nat) : (members n mask).Pairwise (· < ·) := List.pairwise_lt_range.filter _

/-- The leader of a group: the first of the axes with the farthest way. -/
theorem groupLead_eq {f : Nat → Nat} {mask lead : Nat} (hmem : lead ∈ members 8 mask)
    (hmax : ∀ i ∈ members 8 mask, f i ≤ f lead ∧ (i < lead → f i < f lead)) :
    (members 8 mask).foldl (fun (b : Nat) (i : Nat) => if f b < f i then i else b) ((members 8 mask).headD 0) = lead := by
  refine foldl_leftmost_max (members_ascend 8 mask) ?_ (fun i hi => (hmax i hi).1) fun i hi => (hmax i hi).2
  have hasc := members_ascend 8 mask
  revert hmem hmax hasc
  generalize members 8 mask = l
  intro hmem hmax hasc
  cases l with
  | nil => cases hmem
  | cons i l =>
    rcases List.mem_cons.1 hmem with rfl | hl
    · exact .inl rfl
    · exact .inr ⟨(hmax i (by simp)).2 (List.rel_of_pairwise_cons hasc hl), hmem⟩

/-- The target of axis `i` in a MOVE_GROUP: an axis outside the mask stays where it is. -/
def State.groupTarget (s : State) (c : Cmd) (rel : Bool) (i : Nat) : Int :=
  if bit (s.arg c 0 1) i then s.axTarget i rel (s.argS c (16 + 4 * i)) else s.axPos i

/-- What a MOVE_GROUP with clean parameters does. -/
theorem State.cmdMoveGroup_eq {s : State} {c : Cmd} {rel : Bool} (hmask : s.arg c 0 1 ≠ 0) (hrel : s.arg c 1 1 = b2n rel)
    (hzero : s.arg c 2 2 = 0) (hraw : ∀ i, i < 8 → bit (s.arg c 0 1) i = false → s.argS c (16 + 4 * i) = 0) : s.cmdMoveGroup c =
    (let m := members 8 (s.arg c 0 1)
     let g := s.groupTarget c rel
     let bad := m.foldl (fun (b : Nat) (i : Nat) => if b = 0 then s.axRefuse i rel (g i) else b) 0
     let lead := m.foldl (fun (b : Nat) (i : Nat) => if (g b - s.axPos b).natAbs < (g i - s.axPos i).natAbs then i else b) (m.headD 0)
     if bad ≠ 0 then s.finish c bad
     else if (m.any (fun (i : Nat) => s.axTaken i || (s.axis i).run != .rest)) = true then s.finish c 0x0143
     else (s.axIssue lead (.group (s.arg c 0 1) ((List.range 8).map g) (s.axSpeed lead (s.arg c 4 4)) (s.axAcc lead (s.arg c 8 4))
        (s.axDec lead (s.arg c 12 4)))).finish c stOK) := by
  have hfl := b2n_lt_two rel
  have hbad : ¬ (s.arg c 0 1 = 0 ∨ 2 ≤ s.arg c 1 1 ∨ s.arg c 2 2 ≠ 0 ∨
      (List.range 8).any (fun (i : Nat) => !bit (s.arg c 0 1) i && s.argS c (16 + 4 * i) != 0) = true) := by
    rw [hrel]
    rintro (h | h | h | h)
    · exact hmask h
    · omega
    · exact h hzero
    · obtain ⟨i, hi, hne⟩ := List.any_eq_true.1 h
      simp only [Bool.and_eq_true, Bool.not_eq_true', bne_iff_ne] at hne
      exact hne.2 (hraw i (List.mem_range.1 hi) hne.1)
  unfold State.cmdMoveGroup
  dsimp only
  rw [if_neg hbad, hrel, bit_b2n]
  rfl

/-- Settles O56: the Motion commands. -/
theorem axisCommands : Obligations.AxisCommands := by
  unfold Obligations.AxisCommands
  refine ⟨fun s c n rel hw hn hlt hrel hzero => ?_, fun s c n hw hn hlt hfl hzero => ?_, fun s c hw hfl hzero => ?_,
    fun s n hard hl hrun => State.axIssue_stop_rest hl hrun, fun s c rel hw hmask hrel hzero hraw => ?_⟩
  · have heq := State.cmdMove_eq hn hlt hrel hzero
    refine ⟨fun hlost habs => ?_, fun hlost hfault => ?_, fun hlim => ?_, fun hok hbusy => ?_, fun hok htaken hbusy => ?_⟩
    · have hbad : s.axRefuse n rel (s.axTarget n rel (s.argS c 4)) = 0x0140 := if_pos (by rw [hlost, habs]; rfl)
      exact withCmd_finish (k := State.cmdMove) hw (heq.trans (by rw [hbad]; rfl))
    · have hbad : s.axRefuse n rel (s.axTarget n rel (s.argS c 4)) = 0x0141 :=
        (if_neg (by rw [hlost]; exact Bool.false_ne_true)).trans (if_pos hfault)
      exact withCmd_finish (k := State.cmdMove) hw (heq.trans (by rw [hbad]; rfl))
    · exact withCmd_finish (k := State.cmdMove) hw (heq.trans (by rw [hlim]; rfl))
    · exact withCmd_finish (k := State.cmdMove) hw (heq.trans ((if_neg (not_not.2 hok)).trans (if_pos (Bool.or_eq_true_iff.2 hbusy))))
    · exact withCmd_finish (k := State.cmdMove) hw
        (heq.trans ((if_neg (not_not.2 hok)).trans (if_neg (by rw [htaken, hbusy]; exact Bool.false_ne_true))))
  · have heq := State.cmdHome_eq hn hlt hfl hzero
    refine ⟨fun hfault => ?_, fun hfault hrun => ?_, fun hfault htaken hrun => ?_⟩
    · exact withCmd_finish (k := State.cmdHome) hw (heq.trans (if_pos hfault))
    · exact withCmd_finish (k := State.cmdHome) hw
        (heq.trans ((if_neg (by rw [hfault]; exact Bool.false_ne_true)).trans (if_pos (by simp [hrun]))))
    · exact withCmd_finish (k := State.cmdHome) hw
        (heq.trans ((if_neg (by rw [hfault]; exact Bool.false_ne_true)).trans (if_neg (by simp [htaken, hrun]))))
  · exact withCmd_finish (k := State.cmdAxisStop) hw (State.cmdAxisStop_eq hw.slot hfl hzero)
  · have heq := State.cmdMoveGroup_eq hmask hrel hzero hraw
    dsimp only at heq
    rw [foldl_first_refusal] at heq
    refine ⟨fun i hi => ?_, fun hok hbusy => ?_, fun hok hfree lead hlead hmax => ?_⟩
    · have hne : s.axRefuse i rel (s.groupTarget c rel i) ≠ 0 :=
        bne_iff_ne.1 (List.find?_some (p := fun i => s.axRefuse i rel (s.groupTarget c rel i) != 0) hi)
      have hfind : (members 8 (s.arg c 0 1)).find? (fun i => s.axRefuse i rel (s.groupTarget c rel i) != 0) = some i := hi
      rw [hfind, Option.map_some, Option.getD_some, if_pos hne] at heq
      show ∃ t, _ ∧ Completed s t c (s.axRefuse i rel (s.groupTarget c rel i)) 0 []
      exact withCmd_finish (k := State.cmdMoveGroup) hw heq
    · have hfind : (members 8 (s.arg c 0 1)).find? (fun i => s.axRefuse i rel (s.groupTarget c rel i) != 0) = none :=
        List.find?_eq_none.2 fun i hi h => bne_iff_ne.1 h (hok i hi)
      have hany : (members 8 (s.arg c 0 1)).any (fun (i : Nat) => s.axTaken i || (s.axis i).run != .rest) = true := by simpa using hbusy
      rw [hfind, Option.map_none, Option.getD_none, if_neg (not_not.2 rfl), if_pos hany] at heq
      exact withCmd_finish (k := State.cmdMoveGroup) hw heq
    · have hfind : (members 8 (s.arg c 0 1)).find? (fun i => s.axRefuse i rel (s.groupTarget c rel i) != 0) = none :=
        List.find?_eq_none.2 fun i hi h => bne_iff_ne.1 h (hok i hi)
      have hany : ¬ (members 8 (s.arg c 0 1)).any (fun (i : Nat) => s.axTaken i || (s.axis i).run != .rest) = true := by simpa using hfree
      rw [hfind, Option.map_none, Option.getD_none, if_neg (not_not.2 rfl), if_neg hany,
        groupLead_eq (f := fun i => (s.groupTarget c rel i - s.axPos i).natAbs) hlead hmax] at heq
      exact withCmd_finish (k := State.cmdMoveGroup) hw heq

end Sys2Proof.Machine

/-! Snapshots and drains of the counters (R372–R375). -/

namespace Sys2Proof.Machine

theorem State.snapWrite_idle {s : State} {v : Nat} (h : bit v 0 = false) : s.snapWrite v = s.put R.CNT_SNAP_NEXT (v / 2) :=
  if_neg (by rw [h]; exact Bool.false_ne_true)

/-- A request with none pending: with NEXT as it was just written. -/
theorem State.snapWrite_request {s : State} {v : Nat} (h : bit v 0 = true) (hp : s.flag R.CNT_SNAP_PENDING = false) : s.snapWrite v =
    (let u := s.put R.CNT_SNAP_NEXT (v / 2)
     if s.path.armed = false then (if bit v 1 = true then u.freeze false else u)
     else ({ u with acct := { u.acct with
      snapAt := some (if bit v 1 || reached40 (s.get R.CNT_SNAP_AT_LINE) s.encLine then none else some (s.get R.CNT_SNAP_AT_LINE)) } }).put
        R.CNT_SNAP_PENDING 1) := by
  have hnext : (s.put R.CNT_SNAP_NEXT (v / 2)).flag R.CNT_SNAP_NEXT = bit v 1 := State.flag_put_self s rfl (v / 2)
  have hpend : (s.put R.CNT_SNAP_NEXT (v / 2)).flag R.CNT_SNAP_PENDING = false := (s.flag_put_ne _ (by decide)).trans hp
  have hline : (s.put R.CNT_SNAP_NEXT (v / 2)).get R.CNT_SNAP_AT_LINE = s.get R.CNT_SNAP_AT_LINE := State.get_put_ne _ _ (by decide)
  have henc : (s.put R.CNT_SNAP_NEXT (v / 2)).encLine = s.encLine := State.get_put_ne _ _ (by decide)
  unfold State.snapWrite
  dsimp only
  rw [if_pos h, hnext, hline]
  unfold State.snapRequest
  rw [hpend, henc, if_neg Bool.false_ne_true]
  cases hb : s.path.armed
  · exact if_pos (show (!s.path.armed) = true by rw [hb]; rfl)
  · exact if_neg (show ¬ (!s.path.armed) = true by rw [hb]; exact Bool.false_ne_true)

/-- What freezing shows. -/
theorem State.freeze_shown (s : State) : (s.freeze false).flag R.CNT_SNAP_BUSY = true ∧ (s.freeze false).flag R.CNT_SNAP_PENDING = true ∧
    (s.freeze false).acct.busy = some s.snapBank ∧ (s.freeze false).acct.snapGen = (s.acct.snapGen + 1) % 2 ^ 16 ∧
    RegsKept [R.CNT_SNAP_PENDING, R.CNT_SNAP_BUSY] s (s.freeze false) := by
  unfold State.freeze
  extract_lets gen b k acct u
  have hkept : RegsKept [R.CNT_SNAP_PENDING, R.CNT_SNAP_BUSY] s u := .of_regs rfl
  exact ⟨(State.flag_put_ne _ 1 (by decide)).trans (State.flag_put_self u rfl 1), State.flag_put_self _ rfl 1, rfl, rfl,
    (hkept.put (by simp) 1).put (by simp) 1⟩

/-- The copy that is whole before its event: shown in BANK and GEN. -/
def State.snapWhole (s : State) (k : Nat) : State :=
  let b := if k = 0 then s.acct.bank0 else s.acct.bank1
  let b' := { b with complete := true, drainFlag := b.drainFlag || s.flag R.CNT_DRAIN_BUSY }
  let s := { s with acct := { s.acct with
    busy := none,
    bank0 := (if k = 0 then b' else s.acct.bank0), bank1 := (if k = 1 then b' else s.acct.bank1) } }
  (((s.put R.CNT_SNAP_BUSY 0).put R.CNT_SNAP_PENDING (b2n s.acct.snapAt.isSome)).put R.CNT_SNAP_BANK k).put R.CNT_SNAP_GEN b.gen

theorem State.snapWhole_shown (s : State) {k : Nat} (hk : k < 2) : (s.snapWhole k).acct.busy = none ∧
    (s.snapWhole k).get R.CNT_SNAP_BANK = k ∧ (s.snapWhole k).flag R.CNT_SNAP_BUSY = false ∧
    (s.snapWhole k).get R.CNT_SNAP_GEN = (if k = 0 then s.acct.bank0.gen else s.acct.bank1.gen) % 2 ^ 16 ∧
    (if k = 0 then (s.snapWhole k).acct.bank0.complete = true else (s.snapWhole k).acct.bank1.complete = true) ∧
    RegsKept [R.CNT_SNAP_BUSY, R.CNT_SNAP_PENDING, R.CNT_SNAP_BANK, R.CNT_SNAP_GEN] s (s.snapWhole k) := by
  unfold State.snapWhole
  extract_lets b b' acct u
  refine ⟨rfl, ?_, ?_, ?_, ?_, ?_⟩
  · rw [State.get_put_ne _ _ (by decide), State.get_put_self]
    exact Nat.mod_eq_of_lt hk
  · rw [State.flag_put_ne _ _ (by decide), State.flag_put_ne _ _ (by decide), State.flag_put_ne _ _ (by decide)]
    exact State.flag_put_self u rfl 0
  · refine (State.get_put_self ..).trans (congrArg (· % 2 ^ 16) ?_)
    exact apply_ite Bank.gen ..
  · by_cases h0 : k = 0
    · rw [if_pos h0]
      exact congrArg Bank.complete (if_pos h0)
    · rw [if_neg h0]
      exact congrArg Bank.complete (if_pos (by omega))
  · have hkept : RegsKept [R.CNT_SNAP_BUSY, R.CNT_SNAP_PENDING, R.CNT_SNAP_BANK, R.CNT_SNAP_GEN] s u := .of_regs rfl
    exact (((hkept.put (by simp) 0).put (by simp) _).put (by simp) k).put (by simp) b.gen

/-- The bank a copy goes to. -/
def State.snapCopy (s : State) (k : Nat) : Bank := if k = 0 then s.acct.bank0 else s.acct.bank1

theorem exec_snapshotComplete {s : State} {k : Nat} (hr : s.running = true) (hb : s.acct.busy = some k) :
    exec .snapshotComplete s = .next (s.framed ((s.snapWhole k).postEvent 0x8004 (k + (s.snapCopy k).gen * 2 ^ 16) (s.snapCopy k).line)) := by
  refine show execSnapshotComplete s = _ from coreEvent_eq hr ?_
  rw [hb]
  rfl

theorem State.drainStart_begun {s : State} (h : s.flag R.CNT_DRAIN_BUSY = false) : (s.drainStart 1).flag R.CNT_DRAIN_BUSY = true ∧
    RegsKept [R.CNT_DRAIN_BUSY] s (s.drainStart 1) ∧ (s.drainStart 1).acct.accum = s.acct.accum ∧ (s.drainStart 1).acct.drops = s.acct.drops := by
  unfold State.drainStart
  rw [if_pos (by rw [h]; rfl)]
  have hkept : RegsKept [R.CNT_DRAIN_BUSY] s (s.put R.CNT_DRAIN_BUSY 1) := (RegsKept.refl _ s).put (by simp) 1
  have hbusy : (s.put R.CNT_DRAIN_BUSY 1).flag R.CNT_DRAIN_BUSY = true := State.flag_put_self s rfl 1
  exact ⟨hbusy, hkept.trans (.of_regs rfl), rfl, rfl⟩

/-- Settles O47: snapshots and drains of the counters. -/
theorem snapshotsAndDrains : Obligations.SnapshotsAndDrains := by
  unfold Obligations.SnapshotsAndDrains
  refine ⟨fun s v hr => ⟨fun h0 => ?_, fun h0 hp ha => ?_, fun h0 h1 hp ha => ?_⟩, fun s k hr hb hk => ?_, fun s hr => ⟨fun hd => ?_, fun hd => ?_, fun hd => ?_⟩⟩
  · exact ⟨_, show execCntSnapReq v s = _ from coreEvent_next hr (State.snapWrite_idle h0) rfl rfl, State.get_put_self ..,
      (RegsKept.refl _ s).put (by simp) _, rfl⟩
  · have heq := (State.snapWrite_request h0 hp).trans (if_neg (by rw [ha]; exact Bool.noConfusion))
    refine ⟨_, show execCntSnapReq v s = _ from coreEvent_next hr heq rfl rfl, State.flag_put_self _ rfl 1, Option.some_ne_none _, fun h1 => ?_, ?_⟩
    · exact congrArg some (if_pos (by rw [h1]; rfl))
    · exact (((RegsKept.refl _ s).put (by simp) (v / 2)).trans (.of_regs rfl)).put (by simp) 1
  · have heq := (State.snapWrite_request h0 hp).trans ((if_pos ha).trans (if_pos h1))
    obtain ⟨hbusy, hpend, hbank, hgen, hkept⟩ := (s.put R.CNT_SNAP_NEXT (v / 2)).freeze_shown
    have hsnap : (s.put R.CNT_SNAP_NEXT (v / 2)).snapBank = s.snapBank := by
      unfold State.snapBank
      rw [State.get_put_ne _ _ (by decide)]
      rfl
    refine ⟨_, show execCntSnapReq v s = _ from coreEvent_next hr heq rfl rfl, hbusy, hpend, hbank.trans (congrArg some hsnap), hgen, ?_⟩
    exact ((RegsKept.refl _ s).put (by simp) (v / 2)).trans (hkept.mono (by simp))
  · have hexec := exec_snapshotComplete hr hb
    obtain ⟨hnone, hbank, hbusy, hgen, hwhole, hkept⟩ := s.snapWhole_shown hk
    generalize (s.snapCopy k).line = data at hexec
    generalize k + (s.snapCopy k).gen * 2 ^ 16 = detail at hexec
    have hnotice := (s.snapWhole k).postEvent_notice 0x8004 detail data
    have hacct : ((s.snapWhole k).postEvent 0x8004 detail data).acct = (s.snapWhole k).acct := by rw [hnotice.rest]
    refine ⟨_, hexec, (congrArg Acct.busy hacct).trans hnone, (hnotice.get (outside_of rfl)).trans hbank,
      (congrArg (· == 1) (hnotice.get (outside_of rfl))).trans hbusy, (hnotice.get (outside_of rfl)).trans hgen, ?_,
      (hkept.outside.notice hnotice).framed⟩
    show if k = 0 then ((s.snapWhole k).postEvent 0x8004 detail data).acct.bank0.complete = true
      else ((s.snapWhole k).postEvent 0x8004 detail data).acct.bank1.complete = true
    rw [hacct]
    exact hwhole
  · exact show execDrainReq s = _ from coreEvent_next hr (if_neg (by rw [hd]; exact Bool.false_ne_true)) rfl rfl
  · obtain ⟨hbusy, hkept, haccum, hdrops⟩ := State.drainStart_begun hd
    refine ⟨_, show execDrainReq s = _ from coreEvent_eq hr rfl, hbusy, hkept.framed, ?_⟩
    show dropTotals (s.drainStart 1).acct.accum (s.drainStart 1).acct.drops = _
    rw [haccum, hdrops]
  · refine ⟨_, show execDrainDone s = _ from coreEvent_next hr (if_pos hd) rfl rfl, ?_, rfl, rfl, ?_, State.get_put_self .., ?_⟩
    · rw [State.flag_put_ne _ _ (by decide), State.bump, State.flag_put_ne _ _ (by decide)]
      exact State.flag_put_self _ rfl 0
    · rw [State.get_put_ne _ _ (by decide), State.get_bump_self, State.get_put_ne _ _ (by decide)]
      rfl
    · have hkept : RegsKept [R.CNT_DRAIN_BUSY, R.CNT_DRAINS_COUNT, R.CNT_DRAIN_T_T] s
          { s with acct := { s.acct with accum := dropTotals s.acct.accum s.acct.drops, drops := [] } } := .of_regs rfl
      exact ((hkept.put (by simp) 0).bump (by simp) 1).put (by simp) _

end Sys2Proof.Machine

/-! The Job, geometry and skew commands (R274–R278). -/

namespace Sys2Proof.Machine

/-- A command whose turn has come and that no mode holds up by itself: JOB_STOP and JOB_ABORT judge the mode themselves (R276). -/
theorem withCmd_turn {s u : State} {c : Cmd} {op st d : Nat} {r : List Nat} {k : State → Cmd → State} (h : Turn s c op)
    (hop : op = opJOB_STOP ∨ op = opJOB_ABORT) (hk : k s c = u.finish c st d r) :
    ∃ t, withCmd s c.ref op k = .next t ∧ Completed u t c st d r := by
  have hrun : s.runCmd c.ref op k = k s c := by
    unfold State.runCmd
    rw [h.found]
    dsimp only
    rw [if_neg (by rw [h.turn]; exact Bool.false_ne_true), if_neg (by rw [h.cores]; exact Bool.false_ne_true), if_neg]
    rintro ⟨-, h1, h2⟩
    exact hop.elim h1 h2
  exact ⟨_, show coreEvent s _ = _ from coreEvent_eq h.running (hrun.trans hk), (u.finish_completed h.slot st d r).framed s.aon s.pending⟩

/-- Whatever the mode, a completed change shows it. -/
theorem State.setMode_mode (s : State) (m : Mode) (c : Nat) : (s.setMode m c).mode = m := by
  have h (u : State) : (({ u with mode := m, prev := s.mode, trans := false, modeT := u.time40, safeCause := if m = Mode.safe then u.safeCause else 0xFF } : State)
      |>.ring srcMODE |>.hvApply |>.modeEvent c).mode = m :=
    (((Steady.of_notice (State.ring_notice _ _)).trans (State.hvApply_steady _)).trans (State.modeEvent_steady _ _)).mode
  exact h (if m = Mode.idle then s.grainFlush else s)

theorem State.logWindow_logged (s : State) (op : Nat) (p : List Nat) (n : Nat) : Logged s (s.logWindow op p n) := s.logAdd_logged ..

theorem State.logWindow_store (s : State) (op : Nat) (p : List Nat) (n : Nat) : (s.logWindow op p n).store = s.store := by
  rw [(s.logWindow_logged op p n).rest]

/-! ## JOB_DEFINE and JOB_START -/

theorem State.cmdJobDefine_eq {s : State} {c : Cmd} (hgood : jobBad (s.payloadOf c) = false) : s.cmdJobDefine c =
    (let p := s.payloadOf c
     let next := bit (field p 1 1) 1
     if s.mode = .print ∧ (next = false ∨ (jobDefOf p).num = s.curJob) then s.finish c stJOB_ACTIVE
     else if gapListBad (jobDefOf p) = true then s.finish c stGAP_LIST
     else if (next && (match s.store.next with | some j => j.accepted | none => false)) = true then s.finish c stNEXT_HAS_BILLETS
     else ((s.logWindow opJOB_DEFINE p (16 + 8 * field p 2 1)).defineJob (jobDefOf p) next).finish c stOK) :=
  if_neg (by rw [hgood]; exact Bool.false_ne_true)

theorem State.cmdJobStart_eq {s : State} {c : Cmd} (hn : field (s.payloadOf c) 0 1 ≠ 0) (hres : resv (s.payloadOf c) [(1, 3)] = false) :
    s.cmdJobStart c = (let n := field (s.payloadOf c) 0 1
     let b := field (s.payloadOf c) 4 4
     match s.jobNamed n with
     | none => s.finish c stNO_JOB
     | some j =>
       if (!j.d.continuous && decide (j.d.lastBand < b)) = true then s.finish c stBAD_PARAM
       else if s.tmin (s.get R.FIR_CTRL_CLASS_SEL) = 0 then s.finish c stNO_WAVEFORM
       else ((((s.startJob n b).logAdd 0x07 none 0 ([1, n] ++ List.replicate 6 0 ++ toBytes 8 b)).setMode .print mcCOMMAND).kick).finish c stOK) := by
  unfold State.cmdJobStart
  exact if_neg (by rw [hres]; rintro (h | h); exacts [hn h, Bool.false_ne_true h])

/-! ## JOB_STOP, JOB_ABORT, JOB_PURGE and GEOMETRY_SET -/

theorem State.cmdJobStop_eq {s : State} {c : Cmd} (hlt : field (s.payloadOf c) 0 1 < 2) (hres : resv (s.payloadOf c) [(1, 2)] = false)
    (hline : field (s.payloadOf c) 0 1 = 0 → field (s.payloadOf c) 3 5 = 0) : s.cmdJobStop c =
    if s.mode ≠ .print then
      if s.path.aborted = true then s.finish c stOK 0 (toBytes 5 (2 ^ 40 - 1) ++ [0, 0, 0]) else s.finish c stWRONG_MODE
    else (let u := s.stopRequest (field (s.payloadOf c) 3 5) mcCOMMAND
      (u.logAdd 0x07 none 0 ([2, u.curJob] ++ List.replicate 6 0 ++ toBytes 8 (u.path.stop.getD 0))).finish c stOK 0
        (toBytes 5 (u.path.stop.getD 0) ++ [0, 0, 0])) := by
  have hat : bit (field (s.payloadOf c) 0 1) 0 = false → field (s.payloadOf c) 0 1 = 0 := by
    unfold bit
    simp only [pow_zero, Nat.div_one, beq_eq_false_iff_ne]
    omega
  unfold State.cmdJobStop
  exact if_neg (by
    rw [hres]
    rintro (h | h | ⟨h0, h⟩)
    · omega
    · exact Bool.false_ne_true h
    · exact h (hline (hat h0)))

theorem State.cmdJobAbort_print {s : State} {c : Cmd} (hm : s.mode = .print) : s.cmdJobAbort c =
    (let u := s.abortWork
     let v := u.linkCmd ((List.range u.nPorts).filter u.linkUp) 1 3 []
     ((v.logAdd 0x07 none 0 ([3, v.curJob] ++ List.replicate 14 0)).setMode .idle mcCOMMAND).finish c stOK 0 s.abortResult) :=
  if_neg (not_not.2 hm)

theorem State.cmdJobAbort_else {s : State} {c : Cmd} (hm : s.mode ≠ .print) : s.cmdJobAbort c =
    if s.path.aborted = true then s.finish c stOK 0 s.abortResult else s.finish c stWRONG_MODE := if_pos hm

theorem State.cmdJobPurge_eq {s : State} {c : Cmd} (hn : field (s.payloadOf c) 0 1 ≠ 0) (hres : resv (s.payloadOf c) [(1, 3)] = false) :
    s.cmdJobPurge c = (((s.logWindow opJOB_PURGE (s.payloadOf c) 4).purgeJob (field (s.payloadOf c) 0 1)).1).finish c stOK 0
      (toBytes 4 (s.store.billets.filter (fun (b : Billet) => b.job == field (s.payloadOf c) 0 1)).length) := by
  unfold State.cmdJobPurge
  dsimp only
  rw [if_neg (by rw [hres]; rintro (h | h); exacts [hn h, Bool.false_ne_true h])]
  unfold State.purgeJob
  dsimp only
  rw [s.logWindow_store]

theorem State.cmdGeometrySet_eq {s : State} {c : Cmd} (h0 : field (s.payloadOf c) 0 1 ≠ 0) (h8 : field (s.payloadOf c) 0 1 ≤ 8)
    (hres : resv (s.payloadOf c) [(1, 3)] = false) : s.cmdGeometrySet c =
    (let p := s.payloadOf c
     let on := ((p.drop 4).take 24).zipIdx.filter (fun (e : Nat × Nat) => e.1 != 0xFF)
     if on.any (fun (e : Nat × Nat) => decide (field p 0 1 ≤ e.1)) = true then s.finish c stPLANE_RANGE
     else if on.any (fun (e : Nat × Nat) => decide (s.nPorts ≤ e.2)) = true then s.finish c stABSENT
     else ((s.logWindow opGEOMETRY_SET p 28).putGeometry (field p 0 1) ((p.drop 4).take 24)).finish c stOK) := by
  unfold State.cmdGeometrySet
  exact if_neg (by rw [hres]; rintro (h | h | h); exacts [h0 h, Nat.not_lt.2 h8 h, Bool.false_ne_true h])

/-- The planes given and the ports they are given to. -/
theorem any_planes {l : List Nat} (P : Nat × Nat → Bool) : (l.zipIdx.filter (fun (e : Nat × Nat) => e.1 != 0xFF)).any P = true ↔
    ∃ i e, l[i]? = some e ∧ e ≠ 0xFF ∧ P (e, i) = true := by
  simp only [List.any_eq_true, List.mem_filter, bne_iff_ne, Prod.exists]
  constructor
  · rintro ⟨e, i, ⟨hmem, hne⟩, hp⟩
    exact ⟨i, e, List.mem_zipIdx_iff_getElem?.1 hmem, hne, hp⟩
  · rintro ⟨i, e, hget, hne, hp⟩
    exact ⟨e, i, ⟨List.mem_zipIdx_iff_getElem?.2 hget, hne⟩, hp⟩

/-! ## SKEW_SET -/

theorem State.cmdSkewSet_idle {s : State} {c : Cmd} (hm : s.mode = .idle) (hp : field (s.payloadOf c) 0 1 < s.nPorts)
    (h1 : field (s.payloadOf c) 1 1 = 0) (hsub : field (s.payloadOf c) 6 1 < 64) (hres : resv (s.payloadOf c) [(2, 2), (7, 1), (13, 3)] = false)
    (hline : field (s.payloadOf c) 8 5 = 0) : s.cmdSkewSet c =
    (let q := s.payloadOf c
     let v := field q 4 2 + field q 6 1 * 2 ^ 16
     if 16384 ≤ field q 4 2 then s.finish c stREFUSED 1
     else ((s.skewPut (field q 0 1) v).logAdd 0x01 none 2 (regwBody [(0x40301000 + 4 * field q 0 1, v)])).finish c stOK 0 (List.replicate 8 0)) := by
  have hports := s.nPorts_le
  unfold State.cmdSkewSet
  dsimp only
  rw [h1, hline, hres, if_neg, if_neg (Nat.not_le.2 hp), if_pos (decide_eq_true hm)]
  rintro (h | h | h | h | ⟨-, h | h⟩ | ⟨-, h⟩)
  · omega
  · omega
  · omega
  · exact Bool.false_ne_true h
  · exact Bool.false_ne_true h
  · exact h rfl
  · exact h rfl

theorem State.cmdSkewSet_print {s : State} {c : Cmd} {asap : Bool} (hm : s.mode = .print) (hp : field (s.payloadOf c) 0 1 < s.nPorts)
    (h1 : field (s.payloadOf c) 1 1 = b2n asap) (hsub : field (s.payloadOf c) 6 1 < 64)
    (hres : resv (s.payloadOf c) [(2, 2), (7, 1), (13, 3)] = false) (hline : asap = true → field (s.payloadOf c) 8 5 = 0) : s.cmdSkewSet c =
    (let q := s.payloadOf c
     let p := field q 0 1
     let off := field q 4 2
     let u := ((s.put (R.BLT_SKEW_PEND_OFFSET p) off).put (R.BLT_SKEW_AT_LINE p) (field q 8 5)).skewArm p off (if asap then 0 else field q 8 5)
     if field q 6 1 ≠ s.get (R.BLT_SKEW_SUBLINE p) then s.finish c stSUBLINE_PRINT
     else if s.flag (R.BLT_SKEW_PEND_ARM p) = true then s.finish c stSKEW_PENDING
     else if s.skewRefusal p off ≠ 0 then u.finish c stREFUSED (s.skewRefusal p off)
     else u.finish c stOK 0 (toBytes 5 (u.get (R.BLT_SKEW_AT_LINE p)) ++ [0, 0, 0])) := by
  have hports := s.nPorts_le
  have hidle : decide (s.mode = .idle) = false := by rw [hm]; rfl
  have hflag := b2n_lt_two asap
  unfold State.cmdSkewSet
  dsimp only
  rw [h1, hres, hidle, bit_b2n, if_neg, if_neg (Nat.not_le.2 hp), if_neg Bool.false_ne_true]
  rintro (h | h | h | h | ⟨h, -⟩ | ⟨h, hne⟩)
  · omega
  · omega
  · omega
  · exact Bool.false_ne_true h
  · exact Bool.false_ne_true h
  · exact hne (hline h)

/-- Settles O57: the Job, geometry and skew commands. -/
theorem jobCommands : Obligations.JobCommands := by
  unfold Obligations.JobCommands
  refine ⟨fun s c hw => ?_, fun s c hw => ?_, fun s c ht => ?_, fun s c ht => ?_, fun s c hw => ?_, fun s c hw => ?_, fun s c hw hm => ?_,
    fun s c asap hw hm => ?_⟩
  case refine_1 =>
    intro p d next hgood
    have heq : s.cmdJobDefine c = _ := State.cmdJobDefine_eq hgood
    dsimp only at heq
    have hd : jobDefOf (s.payloadOf c) = d := rfl
    have hnext : bit (field (s.payloadOf c) 1 1) 1 = next := rfl
    have hp : s.payloadOf c = p := rfl
    rw [hd, hnext, hp] at heq
    clear_value d next p
    refine ⟨fun hm h0 => ?_, fun hm hgap => ?_, fun hm hgap h0 => ?_, fun hnum hgap h1 hacc => ?_⟩
    · exact withCmd_finish (k := State.cmdJobDefine) hw (heq.trans (if_pos ⟨hm, .inl h0⟩))
    · exact withCmd_finish (k := State.cmdJobDefine) hw (heq.trans ((if_neg fun h => hm h.1).trans (if_pos hgap)))
    · rw [if_neg fun h => hm h.1, hgap, h0, if_neg Bool.false_ne_true, Bool.false_and, if_neg Bool.false_ne_true] at heq
      exact withCmd_finish (k := State.cmdJobDefine) hw heq
    · have hfree : (match s.store.next with | some j => j.accepted | none => false) = false := by
        cases hj : s.store.next with
        | none => rfl
        | some j => exact hacc j hj
      rw [h1, if_neg (by rintro ⟨-, h | h⟩; exacts [Bool.noConfusion h, hnum h]), hgap, if_neg Bool.false_ne_true, hfree, Bool.and_false,
        if_neg Bool.false_ne_true] at heq
      obtain ⟨t, hexec, hdone⟩ := withCmd_finish (k := State.cmdJobDefine) hw heq
      refine ⟨t, hexec, ?_, hdone⟩
      rw [hdone.rest]
      exact congrArg (fun (x : Store) => { x with next := some ⟨d, 0, false, false⟩ }) (s.logWindow_store ..)
  case refine_2 =>
    intro p n b hn hres
    have heq : s.cmdJobStart c = _ := State.cmdJobStart_eq hn hres
    dsimp only at heq
    have hn' : field (s.payloadOf c) 0 1 = n := rfl
    have hb : field (s.payloadOf c) 4 4 = b := rfl
    rw [hn', hb] at heq
    clear_value n b p
    refine ⟨fun hnone => ?_, fun j hj => ?_⟩
    · rw [hnone] at heq
      exact withCmd_finish (k := State.cmdJobStart) hw heq
    · rw [hj] at heq
      dsimp only at heq
      have hin (h : j.d.continuous = true ∨ b ≤ j.d.lastBand) : ¬ (!j.d.continuous && decide (j.d.lastBand < b)) = true := by
        simp only [Bool.and_eq_true, Bool.not_eq_true', decide_eq_true_eq]
        rintro ⟨hc, hlt⟩
        exact h.elim (fun h => by rw [hc] at h; exact Bool.false_ne_true h) (Nat.not_le.2 hlt)
      refine ⟨fun hc hlt => ?_, fun h ht => ?_, fun h ht => ?_⟩
      · exact withCmd_finish (k := State.cmdJobStart) hw (heq.trans (if_pos (by simp [hc, hlt])))
      · exact withCmd_finish (k := State.cmdJobStart) hw (heq.trans ((if_neg (hin h)).trans (if_pos ht)))
      · exact withCmd_finish (k := State.cmdJobStart) hw (heq.trans ((if_neg (hin h)).trans (if_neg ht)))
  case refine_3 =>
    intro p hlt hres hline
    have heq : s.cmdJobStop c = _ := State.cmdJobStop_eq hlt hres hline
    dsimp only at heq
    refine ⟨fun hm ha => ?_, fun hm => ?_⟩
    · exact withCmd_turn (k := State.cmdJobStop) ht (.inl rfl) (heq.trans ((if_pos hm).trans (if_neg (by rw [ha]; exact Bool.false_ne_true))))
    · exact withCmd_turn (k := State.cmdJobStop) ht (.inl rfl) (heq.trans (if_neg (not_not.2 hm)))
  case refine_4 =>
    refine ⟨fun hm ha => ?_, fun hm ha => ?_, fun hm => ?_⟩
    · exact withCmd_turn (k := State.cmdJobAbort) ht (.inr rfl) ((State.cmdJobAbort_else hm).trans (if_pos ha))
    · exact withCmd_turn (k := State.cmdJobAbort) ht (.inr rfl)
        ((State.cmdJobAbort_else hm).trans (if_neg (by rw [ha]; exact Bool.false_ne_true)))
    · obtain ⟨t, hexec, hdone⟩ := withCmd_turn (k := State.cmdJobAbort) ht (.inr rfl) (State.cmdJobAbort_print hm)
      refine ⟨t, hexec, ?_, hdone⟩
      rw [hdone.rest]
      exact State.setMode_mode ..
  case refine_5 =>
    intro p hres hn
    exact withCmd_finish (k := State.cmdJobPurge) hw (State.cmdJobPurge_eq hn hres)
  case refine_6 =>
    intro p planeOf h0 h8 hres
    have heq : s.cmdGeometrySet c = _ := State.cmdGeometrySet_eq h0 h8 hres
    dsimp only at heq
    have hp : s.payloadOf c = p := rfl
    rw [hp] at heq
    have hl : (p.drop 4).take 24 = planeOf := rfl
    rw [hl] at heq
    have hlen : planeOf.length ≤ 24 := (List.length_take ..).trans_le (min_le_left ..)
    clear_value planeOf p
    refine ⟨fun ⟨e, he, hne, hle⟩ => ?_, fun hplanes hports => ?_⟩
    · obtain ⟨i, hi⟩ := List.mem_iff_getElem?.1 he
      exact withCmd_finish (k := State.cmdGeometrySet) hw (heq.trans (if_pos ((any_planes _).2 ⟨i, e, hi, hne, by simpa using hle⟩)))
    · refine withCmd_finish (k := State.cmdGeometrySet) hw (heq.trans ((if_neg ?_).trans (if_neg ?_)))
      · rw [any_planes]
        rintro ⟨i, e, hi, hne, hle⟩
        exact absurd ((hplanes e (List.mem_of_getElem? hi)).resolve_left hne) (by simpa using hle)
      · rw [any_planes]
        rintro ⟨i, e, hi, hne, hle⟩
        obtain ⟨hlt, -⟩ := List.getElem?_eq_some_iff.1 hi
        exact hne (by simpa [List.getD_eq_getElem?_getD, hi] using hports i (by simpa using hle) (by omega))
  case refine_7 =>
    intro q hp h1 hsub hres hline v
    have heq : s.cmdSkewSet c = _ := State.cmdSkewSet_idle hm hp h1 hsub hres hline
    dsimp only at heq
    refine ⟨fun hoff => ?_, fun hoff => ?_⟩
    · exact withCmd_finish (k := State.cmdSkewSet) hw (heq.trans (if_pos hoff))
    · exact withCmd_finish (k := State.cmdSkewSet) hw (heq.trans (if_neg (Nat.not_le.2 hoff)))
  case refine_8 =>
    intro q p off hp h1 hsub hres hline
    have heq : s.cmdSkewSet c = _ := State.cmdSkewSet_print hm hp h1 hsub hres hline
    dsimp only at heq
    refine ⟨fun hne => ?_, fun heqs harm => ?_, fun heqs harm => ?_⟩
    · exact withCmd_finish (k := State.cmdSkewSet) hw (heq.trans (if_pos hne))
    · exact withCmd_finish (k := State.cmdSkewSet) hw (heq.trans ((if_neg (not_not.2 heqs)).trans (if_pos harm)))
    · have heq' := heq.trans ((if_neg (not_not.2 heqs)).trans (if_neg (by rw [harm]; exact Bool.false_ne_true)))
      intro u
      refine ⟨fun hr => ?_, fun hr => ?_⟩
      · exact withCmd_finish (k := State.cmdSkewSet) hw (heq'.trans (if_pos hr))
      · exact withCmd_finish (k := State.cmdSkewSet) hw (heq'.trans (if_neg (not_not.2 hr)))

end Sys2Proof.Machine

/-! Class-table, head-memory, inspection and grain-map commands (R279, R280, R286, R287, R291). -/

namespace Sys2Proof.Machine

/-! ## What the frames to a head leave alone -/

/-- The registers of a port's credits alone move, and the mailbox does not. -/
def CreditsOnly (p : Nat) (s t : State) : Prop := RegsKept [R.HLK_CRED_SENT p, R.HLK_CRED_AVAIL p] s t ∧ t.mbx = s.mbx

theorem CreditsOnly.trans {p : Nat} {s t u : State} (h : CreditsOnly p s t) (g : CreditsOnly p t u) : CreditsOnly p s u :=
  ⟨h.1.trans g.1, g.2.trans h.2⟩

theorem State.sendCredit_credits (s : State) (p ftype : Nat) (f : Link → Link) (body : List Nat) :
    CreditsOnly p s ((s.onLink p f).sendCredit p ftype body) :=
  ⟨((RegsKept.of_regs (t := (s.onLink p f).emit (.down p ftype body)) rfl).put (by simp) _).put (by simp) _, rfl⟩

/-- Frames that wait for credits move the credits of their port, its link's queue, and the output. -/
theorem State.linkPumpN_credits (n : Nat) (s : State) (p : Nat) : CreditsOnly p s (State.linkPumpN n s p) := by
  induction n generalizing s with
  | zero => exact ⟨.refl _ s, rfl⟩
  | succ n ih =>
    unfold State.linkPumpN
    dsimp only
    split
    · exact ⟨.refl _ s, rfl⟩
    · split
      · exact (s.sendCredit_credits ..).trans (ih _)
      · split
        · exact ⟨.refl _ s, rfl⟩
        · exact (s.sendCredit_credits ..).trans (ih _)

/-- A command for one head: beside the credits it moves the pair log. -/
theorem State.linkCmd_kept (s : State) (p op owner : Nat) (args : List Nat) :
    RegsKept [R.HLK_CRED_SENT p, R.HLK_CRED_AVAIL p, R.TSL_LOG_TX_OFF] s (s.linkCmd [p] op owner args).logClose ∧
      (s.linkCmd [p] op owner args).logClose.mbx = s.mbx := by
  have hlog : Logged s (s.logHcmd ([p].foldl setBit 0) (cmdBody op args)) := s.logAdd_logged ..
  have hclose := (s.linkCmd [p] op owner args).logClose_logged
  generalize (s.linkCmd [p] op owner args).logClose = v at hclose ⊢
  have heq : s.linkCmd [p] op owner args =
      State.linkPump (State.linkPut (s.logHcmd ([p].foldl setBit 0) (cmdBody op args)) p 4 op owner (cmdBody op args)) p := rfl
  generalize s.logHcmd ([p].foldl setBit 0) (cmdBody op args) = u at hlog heq
  rw [heq] at hclose
  obtain ⟨hkept, hmbx⟩ := State.linkPumpN_credits 64 (u.linkPut p 4 op owner (cmdBody op args)) p
  have hu : RegsKept [R.HLK_CRED_SENT p, R.HLK_CRED_AVAIL p, R.TSL_LOG_TX_OFF] s (u.linkPut p 4 op owner (cmdBody op args)) :=
    (RegsKept.of_logged hlog rfl (by simp)).trans (.of_regs rfl)
  refine ⟨(hu.trans (hkept.mono (by simp))).logged (by simp) hclose, ?_⟩
  have hm : u.mbx = s.mbx := by rw [hlog.rest]
  have hv : v.mbx = (State.linkPumpN 64 (u.linkPut p 4 op owner (cmdBody op args)) p).mbx := by rw [hclose.rest]; rfl
  exact hv.trans (hmbx.trans hm)

/-! ## The commands, case by case -/

theorem State.cmdWaveLoad_busy {s : State} {c : Cmd} (hlt : field (s.payloadOf c) 0 1 < 2) (hres : resv (s.payloadOf c) [(1, 3)] = false)
    (hload : s.load ≠ none) : s.cmdWaveLoad c = s.finish c stBUSY := by
  unfold State.cmdWaveLoad
  dsimp only
  rw [if_neg (by rw [hres]; rintro (h | h); exacts [Nat.not_lt.2 (Nat.le_of_lt_succ hlt) h, Bool.false_ne_true h]),
    if_pos (Option.isSome_iff_ne_none.2 hload)]

theorem State.cmdWaveLoad_free {s : State} {c : Cmd} (hlt : field (s.payloadOf c) 0 1 < 2) (hres : resv (s.payloadOf c) [(1, 3)] = false)
    (hload : s.load = none) (hpend : s.flag R.FIR_CTRL_PEND = false) : s.cmdWaveLoad c = (let cls := field (s.payloadOf c) 0 1
      if (s.staged cls).ok cls = false then (s.raise R.FIR_STAT_TABLE_BAD srcFIR).finish c stTABLE_BAD
      else ({ (s.startLong c) with load := some (⟨cls, s.staged cls, false, 0, 0, 0, 0⟩ : WaveLoad) } : State).loadKick) := by
  unfold State.cmdWaveLoad
  dsimp only
  rw [if_neg (by rw [hres]; rintro (h | h); exacts [Nat.not_lt.2 (Nat.le_of_lt_succ hlt) h, Bool.false_ne_true h]),
    if_neg (by rw [hload]; exact Bool.false_ne_true), hpend]
  refine (if_neg ?_).trans ?_
  · split <;> exact Bool.false_ne_true
  · simp only [Bool.not_eq_true']

/-- The command that waits for a head's answer is marked with the sequence number of its frame (R291). -/
def State.marked (s : State) (c : Cmd) (mark : Nat) : State :=
  { s with mbx := { s.mbx with cmds := s.mbx.cmds.map (fun (d : Cmd) => if d.ref == c.ref then { d with progress := mark } else d) } }

theorem State.marked_get (s : State) (c : Cmd) (mark : Nat) (f : Fld) : (s.marked c mark).get f = s.get f := rfl

theorem State.cmdHeadMemRead_eq {s : State} {c : Cmd} (hfirst : c.progress = 0) (h0 : field (s.payloadOf c) 4 2 ≠ 0)
    (h240 : field (s.payloadOf c) 4 2 ≤ 240) (hres : resv (s.payloadOf c) [(1, 1), (6, 2)] = false) (hport : field (s.payloadOf c) 0 1 < s.nPorts) :
    s.cmdHeadMemRead c = (let p := s.payloadOf c
      if s.mode = .shadow then
        if field p 2 2 + field p 4 2 ≤ 128 then s.finish c stOK 0
          ((((List.range 32).flatMap (fun (w : Nat) => toBytes 4 (s.get (R.HLK_HMEM_DATA (field p 0 1) w)))).drop (field p 2 2)).take (field p 4 2))
        else s.finish c stSTANDBY
      else if s.linkUp (field p 0 1) = false then s.finish c stHEAD_DOWN
      else (s.linkCmd [field p 0 1] 2 4 (toBytes 2 (field p 2 2) ++ toBytes 2 (field p 4 2))).logClose.marked c (1 + (s.link (field p 0 1)).cseq)) := by
  have hports := s.nPorts_le
  unfold State.cmdHeadMemRead
  dsimp only
  rw [if_neg (not_not.2 hfirst), if_neg, if_neg (Nat.not_le.2 hport)]
  · simp only [Bool.not_eq_true']
    rfl
  · rw [hres]
    rintro (h | h | h | h)
    · exact h0 h
    · omega
    · exact Bool.false_ne_true h
    · omega

theorem State.cmdCapture_eq {s : State} {c : Cmd} (hn : field (s.payloadOf c) 0 1 < 4) (h1 : field (s.payloadOf c) 1 1 < 2)
    (hres : resv (s.payloadOf c) [(2, 2)] = false) (hsize : field (s.payloadOf c) 4 4 % 64 = 0) (haddr : field (s.payloadOf c) 8 8 % 64 = 0) :
    s.cmdCapture c = (let p := s.payloadOf c
      let n := field p 0 1
      if s.nCams ≤ n then s.finish c stABSENT
      else if (s.flag (R.CAM_CAP_BUSY n) || !s.flag R.BLT_ENG_CFG_CAP_ENABLE) = true then s.finish c stCAPTURE_REFUSED
      else if s.flag (R.CAM_CFG_EN n) = false then s.finish c stPORT_OFF
      else (((s.put (R.CAM_CAPADDR_ADDR n) (field p 8 8)).put (R.CAM_CAPSIZE_SIZE n) (field p 4 4)).capWrite n (1 + 2 * field p 1 1)).finish c stOK) := by
  unfold State.cmdCapture
  dsimp only
  rw [if_neg]
  · simp only [Bool.not_eq_true']
  · rw [hres]
    rintro (h | h | h | h | h)
    · omega
    · omega
    · exact Bool.false_ne_true h
    · exact h hsize
    · exact h haddr

/-- The statistics ring set up at its beginning (R286). -/
def State.statsSetUp (s : State) (p : List Nat) : State :=
  let s := s.put R.CAM_SRING_CFG_EN 0
  let s := (s.put R.CAM_SRING_LO_ADDR_LO (field p 0 4)).put R.CAM_SRING_HI_ADDR_HI (field p 4 4)
  let s := ((s.put R.CAM_SRING_CFG_SIZE (field p 8 1)).put R.CAM_SRING_HEAD_HEAD 0).put R.CAM_SRING_DONE_DONE 0
  let s := { s with cam := { s.cam with phase := true } }
  s.put R.CAM_SRING_CFG_EN (field p 9 1)

theorem State.cmdStatsRing_eq {s : State} {c : Cmd} (hsize : field (s.payloadOf c) 8 1 < 5) (hen : field (s.payloadOf c) 9 1 < 2)
    (hres : resv (s.payloadOf c) [(10, 2)] = false) (haddr : field (s.payloadOf c) 0 8 % 1024 = 0) :
    s.cmdStatsRing c = (s.statsSetUp (s.payloadOf c)).finish c stOK := by
  unfold State.cmdStatsRing
  exact if_neg (by
    rw [hres]
    rintro (h | h | h | h)
    · omega
    · omega
    · exact Bool.false_ne_true h
    · exact h haddr)

theorem field_lt (p : List Nat) (off n : Nat) : field p off n < 256 ^ n :=
  lt_of_lt_of_le ofBytes_lt (Nat.pow_le_pow_right (by decide) (List.length_take_le ..))

theorem State.statsSetUp_shown (s : State) {p : List Nat} (hsize : field p 8 1 < 5) (hen : field p 9 1 < 2) :
    (s.statsSetUp p).get R.CAM_SRING_LO_ADDR_LO = field p 0 4 ∧ (s.statsSetUp p).get R.CAM_SRING_HI_ADDR_HI = field p 4 4 ∧
      (s.statsSetUp p).get R.CAM_SRING_CFG_SIZE = field p 8 1 ∧ (s.statsSetUp p).get R.CAM_SRING_CFG_EN = field p 9 1 ∧
      (s.statsSetUp p).get R.CAM_SRING_HEAD_HEAD = 0 ∧ (s.statsSetUp p).get R.CAM_SRING_DONE_DONE = 0 ∧
      (s.statsSetUp p).cam = { s.cam with phase := true } ∧ (s.statsSetUp p).flash = s.flash := by
  have hlo := field_lt p 0 4
  have hhi := field_lt p 4 4
  unfold State.statsSetUp
  extract_lets u v w cam x
  have hx {f : Fld} (h : f.key ≠ R.CAM_SRING_CFG_EN.key) : (x.put R.CAM_SRING_CFG_EN (field p 9 1)).get f = w.get f := State.get_put_ne x _ h
  refine ⟨?_, ?_, ?_, (State.get_put_self ..).trans (Nat.mod_eq_of_lt hen), ?_, (hx (by decide)).trans (State.get_put_self ..), rfl, rfl⟩
  · rw [hx (by decide), State.get_put_ne _ _ (by decide), State.get_put_ne _ _ (by decide), State.get_put_ne _ _ (by decide), State.get_put_ne _ _ (by decide)]
    exact (State.get_put_self ..).trans (Nat.mod_eq_of_lt hlo)
  · rw [hx (by decide), State.get_put_ne _ _ (by decide), State.get_put_ne _ _ (by decide), State.get_put_ne _ _ (by decide)]
    exact (State.get_put_self ..).trans (Nat.mod_eq_of_lt hhi)
  · rw [hx (by decide), State.get_put_ne _ _ (by decide), State.get_put_ne _ _ (by decide)]
    exact (State.get_put_self ..).trans (Nat.mod_eq_of_lt (by show _ < 2 ^ 3; omega))
  · rw [hx (by decide), State.get_put_ne _ _ (by decide)]
    exact State.get_put_self ..

/-! ### Grain-map lists -/

/-- A GRAIN_WRITE whose list stands in the payload. -/
theorem State.cmdGrainWrite_inline {s : State} {c : Cmd} (hfl : field (s.payloadOf c) 0 1 < 2) (hres : resv (s.payloadOf c) [(1, 1), (9, 7)] = false)
    (h0 : field (s.payloadOf c) 2 2 ≠ 0) (h14 : field (s.payloadOf c) 2 2 ≤ 14) : s.cmdGrainWrite c = (let p := s.payloadOf c
      if s.flag R.GMP_CSTAT_BUSY = true then s.finish c stCOMMIT_PENDING
      else s.grainList c (field p 2 2) (field p 4 5) (bit (field p 0 1) 0) ((p.drop 16).take (16 * field p 2 2))) := by
  have hdma : bit (field (s.payloadOf c) 0 1) 1 = false := by
    unfold bit
    rw [beq_eq_false_iff_ne]
    omega
  unfold State.cmdGrainWrite
  dsimp only
  rw [hdma, if_neg, if_neg Bool.false_ne_true]
  rw [hres]
  rintro (h | h | h | ⟨-, h⟩ | ⟨h, -⟩)
  · omega
  · exact Bool.false_ne_true h
  · exact h0 h
  · omega
  · exact Bool.false_ne_true h

/-- A GRAIN_WRITE whose list is read by DMA. -/
theorem State.cmdGrainWrite_dma {s : State} {c : Cmd} (hfl : field (s.payloadOf c) 0 1 = 2 ∨ field (s.payloadOf c) 0 1 = 3)
    (hres : resv (s.payloadOf c) [(1, 1), (9, 7)] = false) (h0 : field (s.payloadOf c) 2 2 ≠ 0) (h4096 : field (s.payloadOf c) 2 2 ≤ 4096)
    (haddr : field (s.payloadOf c) 16 8 % 64 = 0) (hbusy : s.flag R.GMP_CSTAT_BUSY = false) : s.cmdGrainWrite c = (let p := s.payloadOf c
      let r := s.dmaIn (field p 16 8) (16 * field p 2 2)
      match r.2 with
      | none => r.1.finish c stDMA_ERROR
      | some b => r.1.grainList c (field p 2 2) (field p 4 5) (bit (field p 0 1) 0) b) := by
  have hdma : bit (field (s.payloadOf c) 0 1) 1 = true := by rcases hfl with h | h <;> rw [h] <;> rfl
  unfold State.cmdGrainWrite
  dsimp only
  rw [hdma, hbusy]
  refine (if_neg ?_).trans ((if_neg Bool.false_ne_true).trans (if_pos rfl))
  rw [hres]
  rintro (h | h | h | ⟨h, -⟩ | ⟨-, h | h⟩)
  · omega
  · exact Bool.false_ne_true h
  · exact h0 h
  · exact Bool.false_ne_true h.symm
  · omega
  · exact h haddr

/-- Settles O58: class-table, head-memory, inspection and grain-map commands. -/
theorem classAndInspectionCommands : Obligations.ClassAndInspectionCommands := by
  unfold Obligations.ClassAndInspectionCommands
  refine ⟨fun s c hw => ⟨fun hbad => ?_, fun hgood => ?_⟩, fun s c hw => ?_, fun s c hw hfirst => ?_, fun s c hw => ?_, fun s c hw => ?_,
    fun s c hw => ?_, fun s c hw => ?_, fun s c count line asap b hslot => ?_⟩
  · exact withCmd_finish (k := State.cmdWaveStage) hw (if_pos hbad)
  · exact withCmd_finish (k := State.cmdWaveStage) hw (if_neg (by rw [hgood]; exact Bool.false_ne_true))
  · intro p hlt hres
    refine ⟨fun hload => withCmd_finish (k := State.cmdWaveLoad) hw (State.cmdWaveLoad_busy hlt hres hload), fun hload hpend => ?_⟩
    have heq : s.cmdWaveLoad c = _ := State.cmdWaveLoad_free hlt hres hload hpend
    dsimp only at heq
    refine ⟨fun hbad => ?_, fun hok => ?_⟩
    · obtain ⟨t, hexec, hdone⟩ := withCmd_finish (k := State.cmdWaveLoad) hw (heq.trans (if_pos hbad))
      refine ⟨t, hexec, ?_, hdone⟩
      exact (congrArg (· == 1) (hdone.kept R.FIR_STAT_TABLE_BAD (outside_of rfl) (by decide) (by decide) (by decide))).trans
        (State.raise_flag srcFIR (outside_of rfl) (by decide))
    · exact withCmd_eq (k := State.cmdWaveLoad) hw (heq.trans (if_neg (by rw [hok]; exact Bool.noConfusion)))
  · intro p len h0 h240 hres hport
    have heq : s.cmdHeadMemRead c = _ := State.cmdHeadMemRead_eq hfirst h0 h240 hres hport
    dsimp only at heq
    refine ⟨fun hm hup => ?_, fun hm hlong => ?_, fun hm hshort => ?_, fun hm hup => ?_⟩
    · exact withCmd_finish (k := State.cmdHeadMemRead) hw (heq.trans ((if_neg hm).trans (if_pos hup)))
    · exact withCmd_finish (k := State.cmdHeadMemRead) hw (heq.trans ((if_pos hm).trans (if_neg (Nat.not_le.2 hlong))))
    · exact withCmd_finish (k := State.cmdHeadMemRead) hw (heq.trans ((if_pos hm).trans (if_pos hshort)))
    · obtain ⟨hkept, hmbx⟩ := s.linkCmd_kept (field p 0 1) 2 4 (toBytes 2 (field p 2 2) ++ toBytes 2 len)
      have hcount : _ = s.get R.CNT_MBX_FINAL_COUNT :=
        hkept.get (List.forall_mem_cons.2 ⟨by simp only [Fld.key, R.CNT_MBX_FINAL_COUNT, R.HLK_CRED_SENT]; omega,
          List.forall_mem_cons.2 ⟨by simp only [Fld.key, R.CNT_MBX_FINAL_COUNT, R.HLK_CRED_AVAIL]; omega, List.forall_mem_singleton.2 (by decide)⟩⟩)
      refine ⟨_, withCmd_eq (k := State.cmdHeadMemRead) hw (heq.trans ((if_neg hm).trans (if_neg (by rw [hup]; exact Bool.noConfusion)))),
        ⟨{ c with progress := 1 + (s.link (field p 0 1)).cseq }, ?_, rfl, rfl⟩, ?_⟩
      · refine List.mem_map.2 ⟨c, ?_, if_pos (by simp)⟩
        rw [hmbx]
        exact hw.mem
      · exact (State.get_framed ..).trans ((State.marked_get ..).trans hcount)
  · intro p n hn h1 hres hsize haddr
    have heq : s.cmdCapture c = _ := State.cmdCapture_eq hn h1 hres hsize haddr
    dsimp only at heq
    refine ⟨fun habs => ?_, fun hcam hbusy => ?_, fun hcam hbusy hcap hoff => ?_, fun hcam hbusy hcap hon => ?_⟩
    · exact withCmd_finish (k := State.cmdCapture) hw (heq.trans (if_pos habs))
    · exact withCmd_finish (k := State.cmdCapture) hw (heq.trans ((if_neg (Nat.not_le.2 hcam)).trans (if_pos (by
        rcases hbusy with h | h
        · rw [show s.flag (R.CAM_CAP_BUSY (field (s.payloadOf c) 0 1)) = true from h]
          rfl
        · rw [h]
          exact Bool.or_true _))))
    all_goals
      have hfree : ¬ (s.flag (R.CAM_CAP_BUSY (field (s.payloadOf c) 0 1)) || !s.flag R.BLT_ENG_CFG_CAP_ENABLE) = true := by
        rw [show s.flag (R.CAM_CAP_BUSY (field (s.payloadOf c) 0 1)) = false from hbusy, hcap]
        exact Bool.false_ne_true
    · exact withCmd_finish (k := State.cmdCapture) hw (heq.trans ((if_neg (Nat.not_le.2 hcam)).trans ((if_neg hfree).trans (if_pos hoff))))
    · exact withCmd_finish (k := State.cmdCapture) hw (heq.trans ((if_neg (Nat.not_le.2 hcam)).trans ((if_neg hfree).trans
        (if_neg fun h => Bool.false_ne_true (h.symm.trans hon)))))
  · intro p hsize hen hres haddr
    obtain ⟨t, hexec, hdone⟩ := withCmd_finish (k := State.cmdStatsRing) hw (State.cmdStatsRing_eq hsize hen hres haddr)
    obtain ⟨hlo, hhi, hcfg, hon, hhead, hring, hcam, hflash⟩ := s.statsSetUp_shown (p := s.payloadOf c) hsize hen
    generalize s.statsSetUp (s.payloadOf c) = u at hdone hlo hhi hcfg hon hhead hring hcam hflash
    have hkept {f : Fld} {v : Nat} (ho : outside f.key) (h1 : f.key < 0x100000000 * 32) (h2 : f.key ≠ R.TSL_LOG_TX_OFF.key)
        (h3 : f.key ≠ R.CNT_MBX_FINAL_COUNT.key) (hv : u.get f = v) : t.get f = v := (hdone.kept f ho h1 h2 h3).trans hv
    refine ⟨t, hexec, hkept (outside_of rfl) (by decide) (by decide) (by decide) hlo, hkept (outside_of rfl) (by decide) (by decide) (by decide) hhi,
      hkept (outside_of rfl) (by decide) (by decide) (by decide) hcfg, hkept (outside_of rfl) (by decide) (by decide) (by decide) hon,
      hkept (outside_of rfl) (by decide) (by decide) (by decide) hhead, hkept (outside_of rfl) (by decide) (by decide) (by decide) hring, ?_, ?_⟩
    · rw [hdone.rest]
      exact hcam
    · rw [hdone.rest]
      exact hflash
  · intro p hfl hres h0 h14
    have heq : s.cmdGrainWrite c = _ := State.cmdGrainWrite_inline hfl hres h0 h14
    dsimp only at heq
    refine ⟨fun hbusy => ?_, fun hbusy => ?_⟩
    · exact withCmd_finish (k := State.cmdGrainWrite) hw (heq.trans (if_pos hbusy))
    · exact withCmd_eq (k := State.cmdGrainWrite) hw (heq.trans (if_neg (by rw [hbusy]; exact Bool.false_ne_true)))
  · intro p r hfl hres h0 h4096 haddr hbusy
    have heq : s.cmdGrainWrite c = _ := State.cmdGrainWrite_dma hfl hres h0 h4096 haddr hbusy
    dsimp only at heq
    have hread : s.dmaIn (field (s.payloadOf c) 16 8) (16 * field (s.payloadOf c) 2 2) = r := rfl
    rw [hread] at heq
    clear_value r
    refine ⟨fun hnone => ?_, fun b hb => ?_⟩
    · rw [hnone] at heq
      exact withCmd_finish (k := State.cmdGrainWrite) hw heq
    · rw [hb] at heq
      exact withCmd_eq (k := State.cmdGrainWrite) hw heq
  · intro u l r
    have heq : s.grainList c count line asap b = (match u.commitRefusal count l with
      | some (cause, i) => r.1.finish c stREFUSED (cause + i * 2 ^ 8)
      | none => r.1.finish c stOK 0 (toBytes 5 r.2 ++ [0, 0, 0])) := rfl
    clear_value r l u
    refine ⟨fun cause i hc => ?_, fun hc => ?_⟩
    · rw [hc] at heq
      rw [heq]
      exact r.1.finish_completed hslot ..
    · rw [hc] at heq
      rw [heq]
      exact r.1.finish_completed hslot ..

end Sys2Proof.Machine

/-! What a calibration, a maintenance sequence and the calibration banks keep while modes change and commands complete. -/

namespace Sys2Proof.Machine

/-- From `s` to `t` the runs of maintenance and calibration, the calibration set in force and its banks stay as they are. -/
structure RunsKept (s t : State) : Prop where
  maint : t.maint = s.maint
  calRun : t.calRun = s.calRun
  cal : t.chuck.cal = s.chuck.cal
  calBank : t.chuck.calBank = s.chuck.calBank
  bank0 : t.flash.bank0 = s.flash.bank0
  bank1 : t.flash.bank1 = s.flash.bank1

namespace RunsKept

variable {s t u : State}

theorem refl (s : State) : RunsKept s s := ⟨rfl, rfl, rfl, rfl, rfl, rfl⟩

theorem trans (h : RunsKept s t) (g : RunsKept t u) : RunsKept s u :=
  ⟨g.maint.trans h.maint, g.calRun.trans h.calRun, g.cal.trans h.cal, g.calBank.trans h.calBank, g.bank0.trans h.bank0, g.bank1.trans h.bank1⟩

theorem put (s : State) (f : Fld) (v : Nat) : RunsKept s (s.put f v) := ⟨rfl, rfl, rfl, rfl, rfl, rfl⟩

theorem emit (s : State) (e : Emit) : RunsKept s (s.emit e) := ⟨rfl, rfl, rfl, rfl, rfl, rfl⟩

theorem ite {c : Prop} [Decidable c] (h : RunsKept s t) (g : RunsKept s u) : RunsKept s (if c then t else u) := by
  split <;> assumption

theorem of_notice (h : Notice s t) : RunsKept s t :=
  ⟨h.same_maint, h.same_calRun, congrArg _ h.same_chuck, congrArg _ h.same_chuck, congrArg _ h.same_flash, congrArg _ h.same_flash⟩

theorem of_logged (h : Logged s t) : RunsKept s t := by
  rw [h.rest]
  exact ⟨rfl, rfl, rfl, rfl, rfl, rfl⟩

theorem fold {α : Type} {l : List α} {f : State → α → State} (h : ∀ s x, RunsKept s (f s x)) (s : State) : RunsKept s (l.foldl f s) := by
  induction l generalizing s with
  | nil => exact refl s
  | cons x t ih => exact (h s x).trans (ih _)

theorem forEach {l : List Nat} {f : State → Nat → State} (h : ∀ s x, RunsKept s (f s x)) (s : State) : RunsKept s (s.forEach l f) :=
  fold h s

end RunsKept

/-! ## Completions -/

theorem State.closed_runs (s : State) (c : Cmd) (r : List Nat) : RunsKept s (s.closed c r) := by
  rw [s.closed_rest c r]
  exact ⟨rfl, rfl, rfl, rfl, rfl, rfl⟩

theorem State.finalEntry_runs (s : State) (c : Cmd) (st d fl cl : Nat) (r : List Nat) : RunsKept s (s.finalEntry c st d fl cl r) := by
  have hform : s.finalEntry c st d fl cl r =
      (let u := s.closed c r
       let e := u.entry c.tag c.op st c.ref.slot fl (r.take 240).length cl 0 d (field (r.take 240) 0 8)
       if c.discard then
         let s := u.bump R.MBX_LOSTCPL_COUNT
         if c.ref.transport = .bar then { s with mbx := { s.mbx with resetPending := s.mbx.resetPending.map (· + 1) } } else s
       else match c.ref.transport with
         | .bar =>
           let s := u.writeEntry e
           if bit c.flags 0 then s.sendIrq c.vec else s
         | .udp =>
           let d := datagram (u.get R.MBX_UDP_SESS_SESSION) 2 c.seq (e ++ r.take 240)
           { (u.emit (.udp 2 d)) with mbx := { u.mbx with
               udpLast := (c.ref.slot, c.seq, some d) :: u.mbx.udpLast.filter (fun x => x.1 != c.ref.slot) } }) := rfl
  rw [hform]
  refine (s.closed_runs c r).trans ?_
  generalize s.closed c r = u
  have he := u.entry_length c.tag c.op st c.ref.slot fl (r.take 240).length cl 0 d (field (r.take 240) 0 8)
  dsimp only
  generalize u.entry c.tag c.op st c.ref.slot fl (r.take 240).length cl 0 d (field (r.take 240) 0 8) = e at he
  split
  · split <;> exact ⟨rfl, rfl, rfl, rfl, rfl, rfl⟩
  · split
    · exact (RunsKept.of_notice (u.writeEntry_notice e he)).trans (.ite (.of_notice (State.sendIrq_notice _ _)) (.refl _))
    · exact ⟨rfl, rfl, rfl, rfl, rfl, rfl⟩

theorem State.finish_runs (s : State) (c : Cmd) (st d : Nat) (r : List Nat) : RunsKept s (s.finish c st d r) := by
  obtain ⟨-, h, -⟩ := s.recorded_spec c st d r
  rw [State.finish_eq]
  refine RunsKept.trans ?_ (State.finalEntry_runs _ _ _ _ _ _ _)
  rw [h]
  exact ⟨rfl, rfl, rfl, rfl, rfl, rfl⟩

theorem State.finishLong_runs (s : State) (op st d : Nat) (r : List Nat) : RunsKept s (s.finishLong op st d r) := by
  unfold State.finishLong
  split
  · exact s.finish_runs ..
  · exact .refl s

theorem State.finishLong_steady (s : State) (op st d : Nat) (r : List Nat) : Steady s (s.finishLong op st d r) := by
  unfold State.finishLong
  split
  · exact s.finish_steady ..
  · exact .refl s

/-! ## Lines, grain changes and the head supplies -/

theorem State.shaveFrom_runs (s : State) (p n : Nat) : RunsKept s (s.shaveFrom p n) := ⟨rfl, rfl, rfl, rfl, rfl, rfl⟩

theorem State.shaveCommitted_runs (s : State) (p : Nat) : RunsKept s (s.shaveCommitted p) := ⟨rfl, rfl, rfl, rfl, rfl, rfl⟩

theorem State.disarm_runs (s : State) : RunsKept s s.disarm := ⟨rfl, rfl, rfl, rfl, rfl, rfl⟩

theorem State.discardAll_runs (s : State) : RunsKept s s.discardAll :=
  (RunsKept.forEach (f := fun s p => (s.shaveAll p).shaveCommitted p)
    (fun u p => (u.shaveFrom_runs p 0).trans (State.shaveCommitted_runs _ p)) s).trans (State.disarm_runs _)

theorem State.hvApply_runs (s : State) : RunsKept s s.hvApply := by
  unfold State.hvApply
  extract_lets t u pg
  have hu : RunsKept s u := .forEach (fun v _ => .ite (.refl v) (.emit v _)) s
  clear_value u
  exact .ite (.refl s) ⟨hu.maint, hu.calRun, hu.cal, hu.calBank, hu.bank0, hu.bank1⟩

theorem State.journal_runs (s : State) (a b c d e : Nat) : RunsKept s (s.journal a b c d e) := by
  unfold State.journal
  split
  · exact .refl s
  · exact ⟨rfl, rfl, rfl, rfl, rfl, rfl⟩

theorem State.linkPumpN_runs (n : Nat) (s : State) (p : Nat) : RunsKept s (State.linkPumpN n s p) := by
  induction n generalizing s with
  | zero => exact .refl s
  | succ n ih =>
    have hsend (f : Link → Link) (ftype : Nat) (body : List Nat) : RunsKept s ((s.onLink p f).sendCredit p ftype body) :=
      ⟨rfl, rfl, rfl, rfl, rfl, rfl⟩
    unfold State.linkPumpN
    dsimp only
    split
    · exact .refl s
    · split
      · exact (hsend ..).trans (ih _)
      · split
        · exact .refl s
        · exact (hsend ..).trans (ih _)

theorem GrainAcc.fold_runs {α : Type} {f : GrainAcc → α → GrainAcc} (h : ∀ a x, RunsKept a.s (f a x).s) (l : List α) (a : GrainAcc) :
    RunsKept a.s (l.foldl f a).s := by
  induction l generalizing a with
  | nil => exact .refl a.s
  | cons x l ih => exact (h a x).trans (ih _)

theorem GrainAcc.write_runs (a : GrainAcc) (g fmask v : Nat) : RunsKept a.s (a.write g fmask v).s := ⟨rfl, rfl, rfl, rfl, rfl, rfl⟩

theorem GrainAcc.commit_runs (a : GrainAcc) (l : List GRec) : RunsKept a.s (a.commit l).s := by
  have h : RunsKept a.s (l.foldl (fun (a : GrainAcc) (r : GRec) => a.write r.nozzle r.fmask r.value) a).s :=
    GrainAcc.fold_runs (fun a r => a.write_runs r.nozzle r.fmask r.value) l a
  unfold GrainAcc.commit
  generalize l.foldl (fun (a : GrainAcc) (r : GRec) => a.write r.nozzle r.fmask r.value) a = b at h
  exact h.trans ⟨rfl, rfl, rfl, rfl, rfl, rfl⟩

theorem GrainAcc.verdict_runs (a : GrainAcc) (g st : Nat) : RunsKept a.s (a.verdict g st).s := by
  unfold GrainAcc.verdict
  split
  · exact a.write_runs g 1 _
  · exact .refl a.s

theorem GrainAcc.done_runs (a : GrainAcc) : RunsKept a.s a.done := by
  unfold GrainAcc.done
  split
  · exact .refl a.s
  · extract_lets u gen v
    have hu : RunsKept a.s u := .put a.s _ _
    have hv : RunsKept a.s v := hu.trans (RunsKept.forEach (f := fun s p => s.onPort p (fun x => { x with mapTag := gen }))
      (fun _ _ => ⟨rfl, rfl, rfl, rfl, rfl, rfl⟩) u)
    clear_value u v
    refine hv.trans (.forEach (fun w p => ?_) v)
    have hput (w : State) (p seq : Nat) (recs : List (Nat × Nat)) : RunsKept w (w.trimPut p seq recs) := ⟨rfl, rfl, rfl, rfl, rfl, rfl⟩
    exact (hput ..).trans (State.linkPumpN_runs 64 _ p)

theorem State.raise_runs (s : State) (f : Fld) (src : Nat) : RunsKept s (s.raise f src) := by
  rw [s.raise_rest f src]
  exact ⟨rfl, rfl, rfl, rfl, rfl, rfl⟩

/-- Grain changes that come into force have nothing to do with the runs. -/
theorem State.grainDue_runs (s : State) (line : Nat) : RunsKept s (s.grainDue line) := by
  unfold State.grainDue
  extract_lets l path u a0 b c d v
  have hcommit (a : GrainAcc) (x : Change) : RunsKept a.s (match x.kind with | .commit r => a.commit r | _ => a).s := by
    split
    · exact a.commit_runs _
    · exact .refl a.s
  have hb : RunsKept s b.s := RunsKept.trans (t := u) ⟨rfl, rfl, rfl, rfl, rfl, rfl⟩ (GrainAcc.fold_runs hcommit l a0)
  have hc : RunsKept s c.s := hb.trans (GrainAcc.fold_runs (fun (a : GrainAcc) (x : Nat × Nat) => a.verdict_runs x.1 x.2) _ b)
  have hd : RunsKept s d.s := hc.trans (GrainAcc.fold_runs (fun (a : GrainAcc) (x : Nat × Nat) => a.verdict_runs x.1 x.2) _ c)
  have hv : RunsKept s v := hd.trans d.done_runs
  clear_value v
  refine .ite (.refl s) (.ite ?_ hv)
  exact (hv.trans (.put v R.GMP_CSTAT_BUSY 0)).trans (State.raise_runs ..)

/-! ## Changes of mode -/

theorem State.setMode_runs (s : State) (m : Mode) (c : Nat) : RunsKept s (s.setMode m c) := by
  have hflush : RunsKept s (if m = Mode.idle then s.grainFlush else s) := .ite (s.grainDue_runs _) (.refl s)
  have hrest (u : State) : RunsKept u (({ u with
      mode := m, prev := s.mode, trans := false, modeT := u.time40, safeCause := if m = Mode.safe then u.safeCause else 0xFF } : State)
      |>.ring srcMODE |>.hvApply |>.modeEvent c) := by
    refine RunsKept.trans (t := { u with
      mode := m, prev := s.mode, trans := false, modeT := u.time40, safeCause := if m = Mode.safe then u.safeCause else 0xFF })
      ⟨rfl, rfl, rfl, rfl, rfl, rfl⟩ ?_
    exact ((RunsKept.of_notice (State.ring_notice _ _)).trans (State.hvApply_runs _)).trans (.of_notice (State.postEvent_notice _ _ _ _))
  exact hflush.trans (hrest _)

end Sys2Proof.Machine

/-! Maintenance sequences, spit lines and baseline lines (R283, R284, R401). -/

namespace Sys2Proof.Machine

/-! ## MAINT_DEFINE and MAINT_START -/

theorem State.cmdMaintDefine_eq {s : State} {c : Cmd} (h15 : field (s.payloadOf c) 0 1 ≤ 15) (h0 : field (s.payloadOf c) 1 1 ≠ 0)
    (h29 : field (s.payloadOf c) 1 1 ≤ 29) (hres : resv (s.payloadOf c) [(2, 6)] = false)
    (hzero : ∀ i, i < field (s.payloadOf c) 1 1 → field (s.payloadOf c) (10 + 8 * i) 2 = 0) : s.cmdMaintDefine c =
    (let p := s.payloadOf c
     if (maintSteps p).any MaintStep.bad = true then s.finish c stBAD_PARAM
     else if (maintSteps p).any (fun (t : MaintStep) => t.op == 5 && (members 4 t.a8).any (fun (k : Nat) => decide (s.nCams ≤ k))) = true then
       s.finish c stABSENT
     else ((s.logWindow opMAINT_DEFINE p (8 + 8 * field p 1 1)).maintPut p).finish c stOK) := by
  have hclean : (List.range (field (s.payloadOf c) 1 1)).any (fun (i : Nat) => field (s.payloadOf c) (10 + 8 * i) 2 != 0) = false := by
    rw [List.any_eq_false]
    intro i hi
    rw [hzero i (List.mem_range.1 hi)]
    exact Bool.false_ne_true
  unfold State.cmdMaintDefine
  dsimp only
  by_cases hbad : (maintSteps (s.payloadOf c)).any MaintStep.bad = true
  · rw [if_pos hbad, if_pos (.inr (.inr (.inr (.inr (.inl hbad)))))]
  · rw [if_neg hbad, if_neg]
    rw [hres, hclean]
    rintro (h | h | h | h | h | h)
    · omega
    · exact h0 h
    · omega
    · exact Bool.false_ne_true h
    · exact hbad h
    · exact Bool.false_ne_true h

theorem State.cmdMaintStart_eq {s : State} {c : Cmd} (h15 : field (s.payloadOf c) 0 1 ≤ 15) (hres : resv (s.payloadOf c) [(1, 3)] = false) :
    s.cmdMaintStart c = (let n := field (s.payloadOf c) 0 1
      match s.maint.seqs.find? (fun (e : Nat × List MaintStep) => e.1 == n) with
      | none => s.finish c 0x0138
      | some (_, steps) =>
        ((((s.logAdd 0x07 none 2 ([6, n] ++ List.replicate 14 0)).startLong c).maintBegin steps).setMode .maintain mcCOMMAND).maintHere) := by
  unfold State.cmdMaintStart
  exact if_neg (by rw [hres]; rintro (h | h); exacts [Nat.not_lt.2 h15 h, Bool.false_ne_true h])

/-! ## The end of a step -/

theorem State.maintStepIn_other {s : State} (ok : Bool) (hm : s.mode ≠ .maintain) (hs : s.mode ≠ .shadow) : s.maintStepIn ok = s :=
  if_pos ⟨hm, fun h => hs h.1⟩

theorem State.maintStepIn_ending {s : State} (ok : Bool) (hm : s.mode = .maintain) (he : s.maint.ending ≠ none) : s.maintStepIn ok = s.maintEnd :=
  (if_neg fun h => h.1 hm).trans (if_pos (Option.isSome_iff_ne_none.2 he))

/-- The end of step `t`, by its kind. -/
theorem State.maintStepIn_step {s : State} {ok : Bool} {t : MaintStep} {rest : List MaintStep} (hm : s.mode = .maintain)
    (he : s.maint.ending = none) (hrun : s.maint.run = some (t :: rest)) : s.maintStepIn ok =
    if t.op = 1 then s.maintMove t ok else if t.op = 3 ∧ s.testLeft ≠ 0 then s else s.maintNext := by
  unfold State.maintStepIn
  rw [he, hrun]
  exact if_neg fun h => h.1 hm

theorem State.maintNext_eq {s : State} {t : MaintStep} {rest : List MaintStep} (hrun : s.maint.run = some (t :: rest)) :
    s.maintNext = ({ s with maint := { s.maint with run := some rest, step := s.maint.step + 1 } } : State).maintHere := by
  unfold State.maintNext
  rw [hrun]
  rfl

theorem State.maintMove_there {s : State} {t : MaintStep} {ok : Bool} (hbad : s.moveBad t.a8 = 0) (hidle : s.axIdle t.a8 = true)
    (hpos : s.axPos t.a8 = signed 32 t.a32) : s.maintMove t ok = s.maintNext := by
  unfold State.maintMove
  dsimp only
  rw [if_neg (not_not.2 hbad), if_pos hidle, if_pos hpos]

theorem State.maintMove_under_way {s : State} {t : MaintStep} {ok : Bool} (hbad : s.moveBad t.a8 = 0) (hidle : s.axIdle t.a8 = false)
    (hprimary : s.primary = true) : s.maintMove t ok = if ok = true then s else s.maintFail 3 := by
  unfold State.maintMove
  dsimp only
  rw [if_neg (not_not.2 hbad), hidle, hprimary, if_neg Bool.false_ne_true]
  cases ok <;> rfl

/-! ## MAINT_STOP -/

/-- The sequence over: lines stopped, MAINTAIN left. -/
def State.maintOver (s : State) : State := (s.discardAll.maintOff.logMode none 2 7 0 0).setMode .idle mcCOMMAND

theorem State.maintOver_shown (s : State) : s.maintOver.mode = .idle ∧
    s.maintOver.maint = { s.maint with run := none, ending := none, cams := 0, axes := 0 } := by
  have hlog : RunsKept s.discardAll.maintOff (s.discardAll.maintOff.logMode none 2 7 0 0) := .of_logged (State.logMode_logged ..)
  refine ⟨State.setMode_mode .., ?_⟩
  rw [State.maintOver, (State.setMode_runs ..).maint, hlog.maint]
  exact congrArg (fun (m : Maint) => { m with run := none, ending := none, cams := 0, axes := 0 }) s.discardAll_runs.maint

theorem State.maintEnd_rest {s : State} {st d : Nat} (he : s.maint.ending = some (st, d)) (hidle : (members 8 s.maint.axes).all s.axIdle = true) :
    s.maintEnd = (s.maintOver.finishLong opMAINT_START st d).finishLong opMAINT_STOP stOK := by
  unfold State.maintEnd
  rw [he]
  exact if_pos hidle

/-- A sequence whose axes are at rest ends at once. -/
theorem State.maintClose_rest {s : State} (st d : Nat) (hidle : ∀ n ∈ members 8 s.maint.axes, s.axIdle n = true) :
    (s.maintClose st d).mode = .idle ∧ (s.maintClose st d).maint = { s.maint with run := none, ending := none, cams := 0, axes := 0 } := by
  have hnone : (members 8 s.maint.axes).filter (fun (n : Nat) => !s.axIdle n) = [] :=
    List.filter_eq_nil_iff.2 fun n hn => by rw [hidle n hn]; exact Bool.false_ne_true
  have hclose : s.maintClose st d = ({ s with maint := { s.maint with ending := some (st, d) } } : State).maintEnd := by
    unfold State.maintClose
    rw [hnone]
    rfl
  rw [hclose, State.maintEnd_rest (s := { s with maint := { s.maint with ending := some (st, d) } }) rfl (List.all_eq_true.2 hidle)]
  obtain ⟨hmode, hmaint⟩ := ({ s with maint := { s.maint with ending := some (st, d) } } : State).maintOver_shown
  generalize ({ s with maint := { s.maint with ending := some (st, d) } } : State).maintOver = u at hmode hmaint
  exact ⟨((State.finishLong_steady ..).trans (State.finishLong_steady ..)).mode.trans hmode,
    ((State.finishLong_runs ..).trans (State.finishLong_runs ..)).maint.trans hmaint⟩

/-- The command runs on until the sequence has ended. -/
def State.runsOn (s : State) (c : Cmd) : State :=
  { s with mbx := { s.mbx with cmds := s.mbx.cmds.map (fun (d : Cmd) => if d.ref == c.ref then { d with running := true } else d) } }

theorem State.cmdMaintStop_begin {s : State} {c : Cmd} (he : s.maint.ending = none) : s.cmdMaintStop c = (s.runsOn c).maintClose stABORTED 0 := by
  unfold State.cmdMaintStop
  dsimp only
  rw [he]
  rfl

/-! ## Lines of a pattern -/

theorem State.testLine_none {s : State} (h : s.testLeft = 0) : s.testLine = s := if_pos h

/-- A line one period after the last. -/
theorem State.testLine_next {s : State} {b : Nat} (hb : s.line.lastB = some b) (h : s.testLeft ≠ 0) : s.testLine =
    (let u : State := { ((s.put R.ENC_LINE_INDEX s.path.next).put R.ENC_LINE_GAP_T 160000) with line := { s.line with lastB := some (b + 160000) } }
     u.boundary ⟨s.path.next, b + 160000, some 160000, false, 0⟩ State.testHand) := by
  unfold State.testLine
  rw [if_neg h, hb]
  rfl

theorem exec_sweepLine {s : State} (hr : s.running = true) (h : s.sweeping = true) : exec .sweepLine s = .next (s.framed s.testLine) :=
  show execSweepLine s = _ from coreEvent_eq hr (if_pos h)

theorem exec_spitLine {s : State} (hr : s.running = true) (h : s.sweeping = false) : exec .spitLine s = .next (s.framed s.testLine) :=
  show execSpitLine s = _ from coreEvent_eq hr (if_neg (by rw [h]; exact Bool.false_ne_true))

theorem exec_sweepLine_other {s : State} (hr : s.running = true) (h : s.sweeping = false) : exec .sweepLine s = .next s :=
  show execSweepLine s = _ from coreEvent_next hr (if_neg (by rw [h]; exact Bool.false_ne_true)) rfl rfl

theorem exec_spitLine_other {s : State} (hr : s.running = true) (h : s.sweeping = true) : exec .spitLine s = .next s :=
  show execSpitLine s = _ from coreEvent_next hr (if_pos h) rfl rfl

theorem exec_maintStepEnd {s u : State} {ok : Bool} (hr : s.running = true) (h : s.maintStepIn ok = u) :
    exec (.maintStepEnd ok) s = .next (s.framed u) := show execMaintStepEnd ok s = _ from coreEvent_eq hr h

/-- Settles O60: maintenance sequences, spit lines and baseline lines. -/
theorem maintenance : Obligations.Maintenance := by
  unfold Obligations.Maintenance
  refine ⟨fun s c hw => ?_, fun s c hw => ?_, fun s ok hr => ⟨fun hm hs => ?_, fun hm he => ?_, fun t rest hm he hrun => ?_⟩, fun s c hw he hidle => ?_,
    fun s hr => ⟨exec_spitLine_other hr, exec_sweepLine_other hr, fun hleft => ?_, fun b hb hleft => ?_⟩⟩
  · intro p n h15 h0 h29 hres hzero
    have heq : s.cmdMaintDefine c = _ := State.cmdMaintDefine_eq h15 h0 h29 hres hzero
    dsimp only at heq
    refine ⟨fun hbad => ?_, fun hgood => ?_⟩
    · exact withCmd_finish (k := State.cmdMaintDefine) hw (heq.trans (if_pos (List.any_eq_true.2 hbad)))
    · have hok : ¬ (maintSteps (s.payloadOf c)).any MaintStep.bad = true := by
        rw [List.any_eq_true]
        rintro ⟨t, ht, hbad⟩
        exact Bool.false_ne_true ((hgood t ht).1.symm.trans hbad)
      have hcams : ¬ (maintSteps (s.payloadOf c)).any
          (fun (t : MaintStep) => t.op == 5 && (members 4 t.a8).any (fun (k : Nat) => decide (s.nCams ≤ k))) = true := by
        rw [List.any_eq_true]
        rintro ⟨t, ht, h⟩
        exact (hgood t ht).2 (by simpa using (Bool.and_eq_true_iff.1 h).1)
      obtain ⟨t, hexec, hdone⟩ := withCmd_finish (k := State.cmdMaintDefine) hw (heq.trans ((if_neg hok).trans (if_neg hcams)))
      refine ⟨t, hexec, ?_, hdone⟩
      rw [hdone.rest]
      exact List.find?_cons_of_pos (beq_self_eq_true _)
  · intro p n h15 hres
    have heq : s.cmdMaintStart c = _ := State.cmdMaintStart_eq h15 hres
    dsimp only at heq
    refine ⟨fun hnone => ?_, fun steps hsome => ?_⟩
    · have hnone' : s.maint.seqs.find? (fun (e : Nat × List MaintStep) => e.1 == field (s.payloadOf c) 0 1) = none := hnone
      rw [hnone'] at heq
      exact withCmd_finish (k := State.cmdMaintStart) hw heq
    · have hsome' : s.maint.seqs.find? (fun (e : Nat × List MaintStep) => e.1 == field (s.payloadOf c) 0 1) = some (n, steps) := hsome
      rw [hsome'] at heq
      exact withCmd_eq (k := State.cmdMaintStart) hw heq
  · exact exec_maintStepEnd hr (State.maintStepIn_other ok hm hs)
  · exact exec_maintStepEnd hr (State.maintStepIn_ending ok hm he)
  · have heq := State.maintStepIn_step (ok := ok) hm he hrun
    have hnext := State.maintNext_eq hrun
    refine ⟨fun hop => ?_, fun hop hleft => ?_, fun hop hbad hidle hpos => ?_, fun hop hbad hidle hprimary => ⟨?_, ?_⟩⟩
    · exact exec_maintStepEnd hr (heq.trans ((if_neg (by omega)).trans ((if_neg (by omega)).trans hnext)))
    · exact exec_maintStepEnd hr (heq.trans ((if_neg (by omega)).trans (if_pos ⟨hop, hleft⟩)))
    · exact exec_maintStepEnd hr (heq.trans ((if_pos hop).trans ((State.maintMove_there hbad hidle hpos).trans hnext)))
    · exact exec_maintStepEnd hr ((State.maintStepIn_step hm he hrun).trans ((if_pos hop).trans (State.maintMove_under_way hbad hidle hprimary)))
    · exact exec_maintStepEnd hr ((State.maintStepIn_step hm he hrun).trans ((if_pos hop).trans (State.maintMove_under_way hbad hidle hprimary)))
  · obtain ⟨hmode, hmaint⟩ := (s.runsOn c).maintClose_rest stABORTED 0 fun n hn => by
      obtain ⟨hlt, hbit⟩ := List.mem_filter.1 hn
      exact hidle n (List.mem_range.1 hlt) hbit
    exact ⟨_, withCmd_eq (k := State.cmdMaintStop) hw (State.cmdMaintStop_begin he), hmode, hmaint⟩
  · cases hs : s.sweeping
    · rw [exec_spitLine hr hs, exec_sweepLine_other hr hs, State.testLine_none hleft]
      exact ⟨rfl, rfl⟩
    · rw [exec_spitLine_other hr hs, exec_sweepLine hr hs, State.testLine_none hleft]
      exact ⟨rfl, rfl⟩
  · have heq := State.testLine_next hb hleft
    intro u
    refine ⟨fun hs => ?_, fun hs => ?_⟩
    · rw [exec_sweepLine hr hs, heq]
    · rw [exec_spitLine hr hs, heq]

end Sys2Proof.Machine

/-! Calibration: commands, sweeps and commit (R281, R282, R397, R398, R401). -/

namespace Sys2Proof.Machine

/-! ## The set that comes into force -/

theorem State.avsKick_runs (s : State) : RunsKept s s.avsKick := by
  unfold State.avsKick
  split
  · exact .refl s
  · split
    · exact ⟨rfl, rfl, rfl, rfl, rfl, rfl⟩
    · split
      · exact ⟨rfl, rfl, rfl, rfl, rfl, rfl⟩
      · exact .refl s

theorem State.avsKick_mode (s : State) : s.avsKick.mode = s.mode := by rw [s.avsKick_rest]

theorem State.avsKick_regs (s : State) : s.avsKick.regs = s.regs := by rw [s.avsKick_rest]

/-- What interpolation leaves alone. -/
theorem State.interpolate_kept (s : State) : RunsKept s s.interpolate ∧ s.interpolate.mode = s.mode ∧ s.interpolate.regs = s.regs := by
  have hreq (u : State) (v : Nat) : RunsKept u (u.avsRequest 0 v) ∧ (u.avsRequest 0 v).mode = u.mode ∧ (u.avsRequest 0 v).regs = u.regs :=
    ⟨RunsKept.trans (t := { u with chuck := { u.chuck with coreWait := some v } }) ⟨rfl, rfl, rfl, rfl, rfl, rfl⟩ (State.avsKick_runs _),
      State.avsKick_mode _, State.avsKick_regs _⟩
  unfold State.interpolate
  extract_lets t pts trim sense v changed chuck u
  have hu : RunsKept s u ∧ u.mode = s.mode ∧ u.regs = s.regs := ⟨⟨rfl, rfl, rfl, rfl, rfl, rfl⟩, rfl, rfl⟩
  clear_value u v
  obtain ⟨hruns, hmode, hregs⟩ := hu
  obtain ⟨hruns', hmode', hregs'⟩ := hreq u v
  split
  · exact ⟨hruns, hmode, hregs⟩
  · exact ⟨hruns.trans hruns', hmode'.trans hmode, hregs'.trans hregs⟩

/-- From `s` to `t` registers alone are written. -/
def PutsOnly (s t : State) : Prop := t = { s with regs := t.regs }

theorem PutsOnly.trans {s t u : State} (h : PutsOnly s t) (g : PutsOnly t u) : PutsOnly s u := by
  unfold PutsOnly at *
  rw [h] at g
  exact g

theorem PutsOnly.put (s : State) (f : Fld) (v : Nat) : PutsOnly s (s.put f v) := rfl

theorem PutsOnly.forEach {l : List Nat} {f : State → Nat → State} (h : ∀ s n, PutsOnly s (f s n)) (s : State) : PutsOnly s (s.forEach l f) := by
  induction l generalizing s with
  | nil => rfl
  | cons n l ih => exact (h s n).trans (ih _)

theorem PutsOnly.runs {s t : State} (h : PutsOnly s t) : RunsKept s t := by
  rw [h]
  exact ⟨rfl, rfl, rfl, rfl, rfl, rfl⟩

theorem PutsOnly.mode {s t : State} (h : PutsOnly s t) : t.mode = s.mode := by rw [h]

theorem PutsOnly.chuck {s t : State} (h : PutsOnly s t) : t.chuck = s.chuck := by rw [h]

/-- The registers of a set: thresholds, nominal resistances, flat fields and points. -/
def State.calTables (s : State) (c : CalSet) : State :=
  let s := s.forEach (List.range 4096) (fun s t =>
    s.put (R.SPN_DITHER_THRESH t) (match c.dither with | some l => l.getD t 0 | none => ditherDefault t))
  let s := s.forEach (List.range 16) (fun s r =>
    s.put (R.FIR_RANK_RNOM r) (match c.rnom with | some l => l.getD r 0 | none => 0))
  let s := s.forEach (List.range s.nCams) (fun s n => s.forEach (List.range 16384) (fun s i =>
    s.put (wordFld (0x40980000 + 0x10000 * n + 4 * i))
      (match c.flat.getD n none with | some l => l.getD i flatDefault | none => flatDefault)))
  s.forEach (List.range 8) (fun s k =>
    match c.points.find? (fun (e : Nat × CalPoint) => e.1 == k) with
    | some (_, p) => (s.put (R.CHK_CALPT_TEMP k) (unsigned 11 p.temp)).put (R.CHK_CALPT_VALID k) 1
    | none => (s.put (R.CHK_CALPT_TEMP k) 0).put (R.CHK_CALPT_VALID k) 0)

theorem State.calTables_puts (s : State) (c : CalSet) : PutsOnly s (s.calTables c) := by
  unfold State.calTables
  extract_lets u v w
  have hu : PutsOnly s u := .forEach (fun t n => .put t _ _) s
  have hv : PutsOnly s v := hu.trans (.forEach (fun t n => .put t _ _) u)
  have hw : PutsOnly s w := hv.trans (.forEach (fun t n => .forEach (fun t i => .put t _ _) t) v)
  clear_value u v w
  refine hw.trans (.forEach (fun u k => ?_) w)
  split <;> rfl

/-- The registers that name a set. -/
def State.calNames (s : State) (c : CalSet) (bank : Option Nat) : State :=
  let s := (s.put R.CHK_CAL_GEN c.gen).put R.CHK_CAL2_BANK (bank.getD 0)
  let s := (s.put R.CHK_CAL2_POINTS c.points.length).put R.CHK_CAL2_DEFAULT (b2n bank.isNone)
  (s.put R.BTJ_STAT_CAL_BANK (bank.getD 0)).put R.BTJ_STAT_CAL_DEFAULT (b2n bank.isNone)

theorem State.calNames_gen (s : State) (c : CalSet) (bank : Option Nat) : (s.calNames c bank).get R.CHK_CAL_GEN = c.gen % 2 ^ 32 := by
  unfold State.calNames
  dsimp only
  rw [State.get_put_ne _ _ (by decide), State.get_put_ne _ _ (by decide), State.get_put_ne _ _ (by decide), State.get_put_ne _ _ (by decide),
    State.get_put_ne _ _ (by decide)]
  exact State.get_put_self ..

theorem State.calInForce_eq (s : State) (c : CalSet) (bank : Option Nat) : s.calInForce c bank =
    (let u := ((({ s with chuck := { s.chuck with cal := c, calBank := bank } } : State).calTables c).calNames c bank)
     ({ u with chuck := { u.chuck with loadDue := true } } : State).interpolate) := rfl

/-- A set in force: the bank it came from, its generation, and the rest of the runs as they were. -/
theorem State.calInForce_shown (s : State) (c : CalSet) (bank : Option Nat) : (s.calInForce c bank).chuck.cal = c ∧
    (s.calInForce c bank).chuck.calBank = bank ∧ (s.calInForce c bank).mode = s.mode ∧ (s.calInForce c bank).calRun = s.calRun ∧
    (s.calInForce c bank).flash.bank0 = s.flash.bank0 ∧ (s.calInForce c bank).flash.bank1 = s.flash.bank1 ∧
    (s.calInForce c bank).get R.CHK_CAL_GEN = c.gen % 2 ^ 32 := by
  rw [s.calInForce_eq c bank]
  have htables := ({ s with chuck := { s.chuck with cal := c, calBank := bank } } : State).calTables_puts c
  generalize ({ s with chuck := { s.chuck with cal := c, calBank := bank } } : State).calTables c = v at htables
  have hgen := v.calNames_gen c bank
  have hnames : PutsOnly v (v.calNames c bank) := rfl
  generalize v.calNames c bank = u at hgen hnames
  obtain ⟨hruns, hmode, hregs⟩ := ({ u with chuck := { u.chuck with loadDue := true } } : State).interpolate_kept
  have hputs := htables.trans hnames
  refine ⟨hruns.cal.trans hputs.runs.cal, hruns.calBank.trans hputs.runs.calBank, hmode.trans hputs.mode, hruns.calRun.trans hputs.runs.calRun,
    hruns.bank0.trans hputs.runs.bank0, hruns.bank1.trans hputs.runs.bank1, ?_⟩
  exact (State.get_congr hregs _).trans hgen

/-! ## The end of a run -/

theorem State.calEnd_shown (s : State) (st d result : Nat) (data : List Nat) (gen : Nat) : (s.calEnd st d result data gen).calRun = none ∧
    (s.calEnd st d result data gen).mode = .idle ∧ (s.calEnd st d result data gen).chuck.cal = s.chuck.cal ∧
    (s.calEnd st d result data gen).flash.bank0 = s.flash.bank0 ∧ (s.calEnd st d result data gen).flash.bank1 = s.flash.bank1 := by
  unfold State.calEnd
  extract_lets u chuck v w x
  have hu : RunsKept s u := .ite s.discardAll_runs (.refl s)
  clear_value u
  have hw : RunsKept v w := .of_logged (State.logMode_logged ..)
  have hcal : v.chuck.cal = u.chuck.cal := rfl
  have hnone : v.calRun = none := rfl
  have hbank0 : v.flash.bank0 = u.flash.bank0 := rfl
  have hbank1 : v.flash.bank1 = u.flash.bank1 := rfl
  clear_value v w
  obtain ⟨hinter, hmode, -⟩ := (w.setMode .idle mcCOMMAND).interpolate_kept
  have hx : RunsKept v x := hw.trans ((w.setMode_runs .idle mcCOMMAND).trans hinter)
  have hxmode : x.mode = .idle := hmode.trans (State.setMode_mode ..)
  clear_value x
  have hend : RunsKept v ((x.finishLong opCAL_START st d data).journal 0x06 0 result 0 gen) :=
    hx.trans ((State.finishLong_runs ..).trans (State.journal_runs ..))
  exact ⟨hend.calRun.trans hnone, ((State.finishLong_steady ..).trans (State.journal_steady ..)).mode.trans hxmode,
    hend.cal.trans (hcal.trans hu.cal), hend.bank0.trans (hbank0.trans hu.bank0), hend.bank1.trans (hbank1.trans hu.bank1)⟩

/-! ## A completion without a result -/

theorem State.finalEntry_look_empty (s : State) (c : Cmd) (st d fl cl : Nat) {k : Nat} (hlock : k ≠ R.MBX_SLOTS_LOCKED.key ∧ k ≠ R.MBX_STAT_ACTIVE.key)
    (hcount : k ≠ R.CNT_MBX_FINAL_COUNT.key) (htail : k ≠ R.MBX_CQ_TAIL_TAIL.key) (hlost : k ≠ R.MBX_LOSTCPL_COUNT.key)
    (hq : k < 0x40110000 * 32 ∨ 0x40120000 * 32 ≤ k) (hp : k < 0x40107000 * 32 ∨ 0x40107008 * 32 ≤ k) :
    Cells.look dfltReg (s.finalEntry c st d fl cl []).regs k = Cells.look dfltReg s.regs k := by
  have hclosed : Cells.look dfltReg (s.closed c []).regs k = Cells.look dfltReg s.regs k := by
    unfold State.closed State.count
    rw [State.put_regs, Cells.look_store, if_neg hcount]
    exact State.setLock_look (s.putBytes (slotBase c.ref + 0x10) ([].take 240)) c.ref false hlock
  have hform : s.finalEntry c st d fl cl [] =
      (let u := s.closed c []
       let e := u.entry c.tag c.op st c.ref.slot fl 0 cl 0 d (field [] 0 8)
       if c.discard then
         let s := u.bump R.MBX_LOSTCPL_COUNT
         if c.ref.transport = .bar then { s with mbx := { s.mbx with resetPending := s.mbx.resetPending.map (· + 1) } } else s
       else match c.ref.transport with
         | .bar =>
           let s := u.writeEntry e
           if bit c.flags 0 then s.sendIrq c.vec else s
         | .udp =>
           let d := datagram (u.get R.MBX_UDP_SESS_SESSION) 2 c.seq (e ++ [])
           { (u.emit (.udp 2 d)) with mbx := { u.mbx with
               udpLast := (c.ref.slot, c.seq, some d) :: u.mbx.udpLast.filter (fun x => x.1 != c.ref.slot) } }) := rfl
  rw [hform]
  generalize s.closed c [] = u at hclosed
  have he := u.entry_length c.tag c.op st c.ref.slot fl 0 cl 0 d (field [] 0 8)
  dsimp only
  generalize u.entry c.tag c.op st c.ref.slot fl 0 cl 0 d (field [] 0 8) = e at he
  have hwrite := (u.writeEntry_look e he ⟨htail, hq⟩).trans hclosed
  split
  · have hbump : Cells.look dfltReg (u.bump R.MBX_LOSTCPL_COUNT).regs k = Cells.look dfltReg s.regs k := by
      rw [State.bump, State.put_regs, Cells.look_store, if_neg hlost, hclosed]
    split <;> exact hbump
  · split
    · exact State.ite_both (fun t => Cells.look dfltReg t.regs k = Cells.look dfltReg s.regs k) ((State.sendIrq_look _ _ hp).trans hwrite) hwrite
    · exact hclosed

/-- The generation shown is not touched by a completion without a result. -/
theorem State.finishLong_gen (s : State) (op st : Nat) : (s.finishLong op st).get R.CHK_CAL_GEN = s.get R.CHK_CAL_GEN := by
  unfold State.finishLong
  split
  · rename_i c _
    obtain ⟨hrec, -, -⟩ := s.recorded_spec c st 0 []
    rw [State.finish_eq]
    refine congrArg (· % 2 ^ R.CHK_CAL_GEN.width) ?_
    exact (State.finalEntry_look_empty _ c st 0 1 _ (by decide) (by decide) (by decide) (by decide) (by decide) (by decide)).trans (hrec _ (by decide))
  · rfl

/-! ## CAL_START -/

/-- The run that a CAL_START begins. -/
def State.calBegin (s : State) (p : List Nat) : CalRun := {
  sweeps := field p 0 2, point := field p 2 1, cams := field p 3 1, bit_ := 0, step := 0, at_ := 0
  set := { gen := s.calGen, points := s.chuck.cal.points }
  trim := (List.range 24).map (fun (k : Nat) => interp (fun c => c.trim.getD k 2048) 2048 s.thetaMean s.chuck.cal.sorted)
  sense := (List.range 8).map (fun (i : Nat) =>
    interp (fun c => c.sense.getD i (if i % 2 = 0 then 100 else 1000)) (if i % 2 = 0 then 100 else 1000) s.thetaMean s.chuck.cal.sorted)
  theta := s.thetaMean, v1 := [], v2 := [], reads := [], regs0 := s.regs, committing := false, abort := false }

/-- The state in which the sweeps begin. -/
def State.calStarted (s : State) (c : Cmd) (r : CalRun) : State :=
  ({ (((s.journal 0x05 0 0 0 s.calGen).logAdd 0x07 none 2 ([4, 0] ++ List.replicate 14 0)).startLong c) with
    calRun := some r } : State).setMode .calibrate mcCOMMAND

theorem State.cmdCalStart_bad {s : State} {c : Cmd} (h : field (s.payloadOf c) 0 2 = 16 ∨ 32 ≤ field (s.payloadOf c) 0 2) :
    s.cmdCalStart c = s.finish c stBAD_PARAM := by
  refine if_pos ?_
  rcases h with h | h
  · rw [h]
    exact .inr (.inl ⟨rfl, rfl, rfl⟩)
  · exact .inl h

theorem State.cmdCalStart_eq {s : State} {c : Cmd} (hres : resv (s.payloadOf c) [(4, 4)] = false) (hpoint : field (s.payloadOf c) 2 1 ≤ 7)
    (hcams : field (s.payloadOf c) 3 1 ≤ 15) (h32 : field (s.payloadOf c) 0 2 < 32)
    (hnew : bit (field (s.payloadOf c) 0 2) 4 = true → bit (field (s.payloadOf c) 0 2) 0 = true ∨ bit (field (s.payloadOf c) 0 2) 1 = true)
    (hpresent : bit (field (s.payloadOf c) 0 2) 2 = true → ∀ n, s.nCams ≤ n → n < 4 → bit (field (s.payloadOf c) 3 1) n = false) :
    s.cmdCalStart c = State.calNext 4 (s.calStarted c (s.calBegin (s.payloadOf c))) 0 := by
  unfold State.cmdCalStart
  refine (if_neg ?_).trans (if_neg ?_)
  · rw [hres]
    rintro (h | ⟨h4, h0, h1⟩ | h | h | h)
    · omega
    · exact (hnew h4).elim (fun h => Bool.false_ne_true (h0.symm.trans h)) fun h => Bool.false_ne_true (h1.symm.trans h)
    · omega
    · omega
    · exact Bool.false_ne_true h
  · rw [Bool.and_eq_true, List.any_eq_true]
    rintro ⟨h2, n, hn, hle⟩
    obtain ⟨hlt, hbit⟩ := List.mem_filter.1 hn
    exact Bool.false_ne_true ((hpresent h2 n (of_decide_eq_true hle) (List.mem_range.1 hlt)).symm.trans hbit)

theorem State.postEvent_cmds (s : State) (code detail data : Nat) : (s.postEvent code detail data).mbx.cmds = s.mbx.cmds := by
  unfold State.postEvent
  dsimp only
  rw [State.postSoft_cmds]
  split <;> rfl

theorem State.forEach_mbx {l : List Nat} {f : State → Nat → State} (h : ∀ s n, (f s n).mbx = s.mbx) (s : State) : (s.forEach l f).mbx = s.mbx := by
  induction l generalizing s with
  | nil => rfl
  | cons n l ih => exact (ih _).trans (h s n)

theorem State.hvApply_mbx (s : State) : s.hvApply.mbx = s.mbx := by
  unfold State.hvApply
  extract_lets t u pg
  have hu : u.mbx = s.mbx := State.forEach_mbx
    (f := fun v g => if bit t g == bit v.chuck.hvOut g then v else v.emit (.pin .hvEn g (b2n (bit t g))))
    (fun v g => State.ite_both (fun w => w.mbx = v.mbx) rfl rfl) s
  clear_value u
  exact State.ite_both (fun v => v.mbx = s.mbx) rfl hu

/-- A change to a mode that is not IDLE leaves the commands as they are. -/
theorem State.setMode_cmds (s : State) {m : Mode} (hm : m ≠ .idle) (c : Nat) : (s.setMode m c).mbx.cmds = s.mbx.cmds := by
  have hring (u : State) : (u.ring srcMODE).mbx = u.mbx := by rw [(u.ring_writes 0 srcMODE).rest]
  have hmode : s.modeChange m = (({ s with
      mode := m, prev := s.mode, trans := false, modeT := s.time40, safeCause := if m = Mode.safe then s.safeCause else 0xFF } : State).ring srcMODE).hvApply := by
    unfold State.modeChange
    rw [if_neg hm]
  rw [State.setMode, State.modeEvent, State.postEvent_cmds, hmode, State.hvApply_mbx, hring]

/-- The sweeps begin in CALIBRATE, with the run as it was made and the command running on. -/
theorem State.calStarted_shown {s : State} {c : Cmd} (h : c ∈ s.mbx.cmds) (r : CalRun) : (s.calStarted c r).mode = .calibrate ∧
    (s.calStarted c r).calRun = some r ∧ ∃ d ∈ (s.calStarted c r).mbx.cmds, d.ref = c.ref ∧ d.running = true := by
  have hcmds : ((s.journal 0x05 0 0 0 s.calGen).logAdd 0x07 none 2 ([4, 0] ++ List.replicate 14 0)).mbx.cmds = s.mbx.cmds := by
    have hlog := (s.journal 0x05 0 0 0 s.calGen).logAdd_logged 0x07 none 2 ([4, 0] ++ List.replicate 14 0)
    rw [hlog.rest]
    unfold State.journal
    exact State.ite_both (fun v => v.mbx.cmds = s.mbx.cmds) rfl rfl
  unfold State.calStarted
  generalize (s.journal 0x05 0 0 0 s.calGen).logAdd 0x07 none 2 ([4, 0] ++ List.replicate 14 0) = u at hcmds
  have hrun : ∃ d ∈ (u.startLong c).mbx.cmds, d.ref = c.ref ∧ d.running = true := State.startLong_running (hcmds ▸ h)
  generalize u.startLong c = v at hrun
  refine ⟨State.setMode_mode .., (State.setMode_runs ..).calRun, ?_⟩
  rw [State.setMode_cmds _ (by decide)]
  exact hrun

/-! ## From sweep to sweep -/

theorem State.calNext_skip {s : State} {r : CalRun} (n : Nat) {b : Nat} (hr : s.calRun = some r) (hb : b < 4) (h : bit r.sweeps b = false) :
    State.calNext (n + 1) s b = State.calNext n s (b + 1) := by
  conv_lhs => unfold State.calNext
  rw [hr]
  refine (if_neg (Nat.not_le.2 hb)).trans ?_
  simp only [h, Bool.false_eq_true, if_false]

/-- The first unit of the sense sweep, DAC 0. -/
theorem State.calNext_sense {s : State} {r : CalRun} (n : Nat) (hr : s.calRun = some r) (h : bit r.sweeps 1 = true) :
    State.calNext (n + 1) s 1 =
      ((s.onCal (fun r => { r with theta := s.thetaMean })).onCal (fun r => { r with bit_ := 1, step := 1, at_ := 0, v1 := [], v2 := [] })).setProgress
        opCAL_START 250 := by
  unfold State.calNext
  rw [hr]
  refine (if_neg (by decide)).trans ?_
  rw [h]
  rfl

theorem State.calStore_none {s : State} {r : CalRun} (hr : s.calRun = some r) (h4 : bit r.sweeps 4 = false) (h0 : bit r.sweeps 0 = false)
    (h1 : bit r.sweeps 1 = false) :
    s.calStore = s.onCal (fun x => { x with set := { x.set with points := r.set.points }, committing := true }) := by
  unfold State.calStore
  rw [hr]
  dsimp only
  rw [h4, h0, h1]
  rfl

/-! ## The steps of a sweep -/

theorem exec_calSweepStep {s u : State} {ok : Bool} {data : List Nat} (hr : s.running = true) (h : s.calStepIn ok data = u) :
    exec (.calSweepStep ok data) s = .next (s.framed u) := show execCalSweepStep ok data s = _ from coreEvent_eq hr h

theorem exec_calCommit {s u : State} {ok : Bool} (hr : s.running = true) (h : s.calCommit ok = u) :
    exec (.calCommit ok) s = .next (s.framed u) := show execCalCommit ok s = _ from coreEvent_eq hr h

theorem State.calStepIn_none {s : State} (h : s.calRun = none) (ok : Bool) (data : List Nat) : s.calStepIn ok data = s := by
  unfold State.calStepIn
  rw [h]

theorem State.calStepIn_committing {s : State} {r : CalRun} (h : s.calRun = some r) (hc : r.committing = true) (ok : Bool) (data : List Nat) :
    s.calStepIn ok data = s := by
  unfold State.calStepIn
  rw [h]
  exact if_pos hc

/-- What a step of a sweep does, by the sweep's bit. -/
theorem State.calStepIn_some {s : State} {r : CalRun} (h : s.calRun = some r) (hc : r.committing = false) (ok : Bool) (data : List Nat) :
    (r.bit_ = 0 → s.calStepIn ok data = if ok = true then s.calTrimStep r (data.headD 0) else s.calFail 0 r.step) ∧
    (r.bit_ = 1 → s.calStepIn ok data = if ok = true then s.calSenseStep r (data.headD 0) else s.calFail 1 r.step) ∧
    (r.bit_ = 2 → s.calStepIn ok data = if ok = true then s.calFlatStep r data else s.calFail 2 r.step) ∧
    (3 ≤ r.bit_ → s.calStepIn ok data = if ok = true then (if s.testLeft = 0 then s.calBaseEnd r else s) else s.calFail 3 2) := by
  unfold State.calStepIn
  rw [h]
  dsimp only
  rw [if_neg (by rw [hc]; exact Bool.false_ne_true)]
  refine ⟨fun hb => ?_, fun hb => ?_, fun hb => ?_, fun hb => ?_⟩
  · simp only [hb]
  · simp only [hb]
  · simp only [hb]
  · obtain ⟨n, hn⟩ := Nat.exists_eq_add_of_le' hb
    simp only [hn]

theorem State.onCal_congr {s : State} {r : CalRun} (h : s.calRun = some r) {f g : CalRun → CalRun} (hfg : f r = g r) : s.onCal f = s.onCal g := by
  rw [State.onCal, State.onCal, h, Option.map_some, Option.map_some, hfg]

/-- The first code of a DAC found: it is kept, and the second is sought. -/
theorem State.calSenseStep_first {s : State} {r : CalRun} (h : s.calRun = some r) (hstep : r.step = 1) (code : Nat) : s.calSenseStep r code =
    s.onCal (fun r => { r with sense := modifyNth r.sense (2 * r.at_) (fun _ => code % 1024), step := 2 }) := by
  refine (if_pos hstep).trans (State.onCal_congr h ?_)
  rw [hstep]
  rfl

/-! ## The commit -/

/-- The bank that is written (R397). -/
def State.calTarget (s : State) : Nat := match s.chuck.calBank with | some k => 1 - k | none => 0

theorem State.calTarget_one {s : State} (h : s.chuck.calBank = some 0) : s.calTarget = 1 := by
  unfold State.calTarget
  rw [h]

theorem State.calTarget_zero {s : State} (h : s.chuck.calBank ≠ some 0) : s.calTarget = 0 := by
  unfold State.calTarget
  split
  · rename_i k hk
    have : k ≠ 0 := fun h0 => h (by rw [hk, h0])
    omega
  · rfl

/-- A bank that is written, or left empty. -/
def State.calPut (s : State) (c : Option CalSet) : State :=
  { s with flash := if s.calTarget = 0 then { s.flash with bank0 := c } else { s.flash with bank1 := c } }

theorem State.calPut_banks (s : State) (c : Option CalSet) :
    (s.chuck.calBank = some 0 → (s.calPut c).flash.bank1 = c ∧ (s.calPut c).flash.bank0 = s.flash.bank0) ∧
    (s.chuck.calBank ≠ some 0 → (s.calPut c).flash.bank0 = c ∧ (s.calPut c).flash.bank1 = s.flash.bank1) := by
  unfold State.calPut
  refine ⟨fun h => ?_, fun h => ?_⟩
  · rw [State.calTarget_one h, if_neg Nat.one_ne_zero]
    exact ⟨rfl, rfl⟩
  · rw [State.calTarget_zero h, if_pos rfl]
    exact ⟨rfl, rfl⟩

theorem State.calCommit_none {s : State} (ok : Bool) (h : s.calRun = none) : s.calCommit ok = s := by
  unfold State.calCommit
  rw [h]

theorem State.calCommit_sweeping {s : State} {r : CalRun} (ok : Bool) (h : s.calRun = some r) (hc : r.committing = false) : s.calCommit ok = s := by
  unfold State.calCommit
  rw [h]
  exact if_pos (by rw [hc]; rfl)

/-- A CAL_ABORT that waits for the commit completes with it. -/
def State.abortedToo (s : State) (r : CalRun) : State := if r.abort then s.finishLong opCAL_ABORT stOK else s

theorem State.abortedToo_shown (s : State) (r : CalRun) : RunsKept s (s.abortedToo r) ∧ (s.abortedToo r).mode = s.mode ∧
    (s.abortedToo r).get R.CHK_CAL_GEN = s.get R.CHK_CAL_GEN := by
  unfold State.abortedToo
  split
  · exact ⟨s.finishLong_runs .., (s.finishLong_steady ..).mode, s.finishLong_gen ..⟩
  · exact ⟨.refl s, rfl, rfl⟩

theorem State.calCommit_fails {s : State} {r : CalRun} (h : s.calRun = some r) (hc : r.committing = true) : s.calCommit false =
    (((s.calPut none).bump R.BTJ_FLASHERR_COUNT).calEnd stFLASH_WRITE 0 1 [] s.calGen).abortedToo r := by
  unfold State.calCommit
  rw [h]
  exact if_neg (by rw [hc]; exact Bool.false_ne_true)

theorem State.calCommit_succeeds {s : State} {r : CalRun} (h : s.calRun = some r) (hc : r.committing = true) : s.calCommit true =
    (((((s.calPut (some (s.calSet r))).put R.BTJ_STAT_CAL_INTERRUPTED 0).calEnd stOK 0 0 (toBytes 4 s.calGen ++ [s.calTarget, 0, 0, 0]) s.calGen).calInForce
      (s.calSet r) (some s.calTarget))).abortedToo r := by
  unfold State.calCommit
  rw [h]
  exact if_neg (by rw [hc]; exact Bool.false_ne_true)

/-! ## CAL_ABORT and CAL_STATUS -/

theorem State.cmdCalAbort_none {s : State} {c : Cmd} (h : s.calRun = none) : s.cmdCalAbort c = s.finish c stOK := by
  unfold State.cmdCalAbort
  rw [h]

theorem State.cmdCalAbort_sweeping {s : State} {c : Cmd} {r : CalRun} (h : s.calRun = some r) (hc : r.committing = false) :
    s.cmdCalAbort c = (s.calEnd stABORTED 0 2 [] s.calGen).finish c stOK := by
  unfold State.cmdCalAbort
  rw [h]
  exact if_neg (by rw [hc]; exact Bool.false_ne_true)

theorem State.cmdCalAbort_committing {s : State} {c : Cmd} {r : CalRun} (h : s.calRun = some r) (hc : r.committing = true) :
    s.cmdCalAbort c = (s.onCal (fun r => { r with abort := true })).runsOn c := by
  unfold State.cmdCalAbort
  rw [h]
  exact if_pos hc

theorem State.cmdCalStatus_eq (s : State) (c : Cmd) : s.cmdCalStatus c = s.finish c stOK 0
    ([(match s.calRun with | some r => (if r.committing then 2 else 1) | none => 0), (match s.calRun with | some r => r.step | none => 0),
      s.get R.BTJ_STAT_CAL_INTERRUPTED + 2 * s.get R.CHK_CAL2_BANK, 0] ++ toBytes 4 (s.get R.CHK_CAL_GEN)
      ++ toBytes 2 (match s.longCmd opCAL_START with | some d => d.progress | none => 0) ++ [0, 0]) := by
  unfold State.cmdCalStatus
  cases s.calRun <;> cases s.longCmd opCAL_START <;> rfl

/-- Settles O59: the calibration commands, the sweeps and the commit. -/
theorem calibration : Obligations.Calibration := by
  unfold Obligations.Calibration
  refine ⟨fun s c hw => ?_, fun s ok data hr => ⟨fun hnone => ⟨?_, ?_⟩, fun r hrun hc => ?_, fun r hrun hc => ⟨?_, fun hb => ?_, fun hb => ?_, fun hb => ?_,
      fun hb => ?_, fun hb => ⟨?_, ?_⟩, fun hb hstep => ?_, fun hb hstep => ?_⟩⟩, fun s r hr hrun hc => ⟨?_, ?_⟩,
    fun s c hw => ⟨fun hnone => ?_, fun r hrun hc => ?_, fun r hrun hc => ?_⟩, fun s c hw => ?_⟩
  · intro p hres hpoint hcams
    have hstart (h32 : field p 0 2 < 32) (hnew : bit (field p 0 2) 4 = true → bit (field p 0 2) 0 = true ∨ bit (field p 0 2) 1 = true)
        (hpresent : bit (field p 0 2) 2 = true → ∀ n, s.nCams ≤ n → n < 4 → bit (field p 3 1) n = false) :=
      withCmd_eq (k := State.cmdCalStart) hw (State.cmdCalStart_eq hres hpoint hcams h32 hnew hpresent)
    obtain ⟨hmode, hrun, d, hd, href, hrunning⟩ := State.calStarted_shown hw.mem (s.calBegin p)
    refine ⟨fun h => ?_, fun h => ?_, fun h => ?_, fun h32 hnew hpresent => ?_⟩
    · exact withCmd_finish (k := State.cmdCalStart) hw (State.cmdCalStart_bad h)
    · have hexec := hstart (by omega) (by rw [h]; exact fun h => absurd h (by decide)) (by rw [h]; exact fun h => absurd h (by decide))
      have hbit (b : Nat) (hb : bit 0 b = false) : bit (s.calBegin p).sweeps b = false := by
        rw [show (s.calBegin p).sweeps = 0 from h]
        exact hb
      rw [State.calNext_skip 3 hrun (by decide) (hbit 0 rfl), State.calNext_skip 2 hrun (by decide) (hbit 1 rfl),
        State.calNext_skip 1 hrun (by decide) (hbit 2 rfl), State.calNext_skip 0 hrun (by decide) (hbit 3 rfl), State.calNext,
        State.calStore_none hrun (hbit 4 rfl) (hbit 0 rfl) (hbit 1 rfl)] at hexec
      generalize s.calStarted c (s.calBegin p) = u at hmode hrun hd hexec
      exact ⟨_, _, hexec, hmode, congrArg (Option.map _) hrun, rfl, rfl, d, hd, href, hrunning⟩
    · have hexec := hstart (by omega) (by rw [h]; exact fun h => absurd h (by decide)) (by rw [h]; exact fun h => absurd h (by decide))
      have hsweeps : (s.calBegin p).sweeps = 2 := h
      rw [State.calNext_skip 3 hrun (by decide) (by rw [hsweeps]; rfl), State.calNext_sense 2 hrun (by rw [hsweeps]; rfl)] at hexec
      generalize s.calStarted c (s.calBegin p) = u at hmode hrun hexec
      exact ⟨_, _, hexec, hmode, congrArg (Option.map _) (congrArg (Option.map _) hrun), rfl, rfl, rfl, rfl⟩
    · exact ⟨s.calBegin p, rfl, rfl, rfl, rfl, rfl, rfl, rfl, hstart h32 hnew hpresent⟩
  · exact exec_calSweepStep hr (State.calStepIn_none hnone ok data)
  · exact exec_calCommit hr (State.calCommit_none ok hnone)
  · exact exec_calSweepStep hr (State.calStepIn_committing hrun hc ok data)
  · exact exec_calCommit hr (State.calCommit_sweeping ok hrun hc)
  · obtain ⟨h0, h1, h2, -⟩ := State.calStepIn_some hrun hc false data
    refine exec_calSweepStep hr ?_
    obtain hb | hb | hb : r.bit_ = 0 ∨ r.bit_ = 1 ∨ r.bit_ = 2 := by omega
    · rw [h0 hb, hb]
      exact if_neg Bool.false_ne_true
    · rw [h1 hb, hb]
      exact if_neg Bool.false_ne_true
    · rw [h2 hb, hb]
      exact if_neg Bool.false_ne_true
  · exact exec_calSweepStep hr (((State.calStepIn_some hrun hc true data).1 hb).trans (if_pos rfl))
  · exact exec_calSweepStep hr (((State.calStepIn_some hrun hc true data).2.1 hb).trans (if_pos rfl))
  · exact exec_calSweepStep hr (((State.calStepIn_some hrun hc true data).2.2.1 hb).trans (if_pos rfl))
  · exact exec_calSweepStep hr (((State.calStepIn_some hrun hc false data).2.2.2 hb).trans (if_neg Bool.false_ne_true))
  · rw [exec_calSweepStep hr (((State.calStepIn_some hrun hc true data).2.2.2 hb).trans (if_pos rfl))]
    split <;> rfl
  · rw [exec_calSweepStep hr (((State.calStepIn_some hrun hc true data).2.1 hb).trans ((if_pos rfl).trans (State.calSenseStep_first hrun hstep _)))]
    rfl
  · rw [exec_calSweepStep hr (((State.calStepIn_some hrun hc true data).2.2.1 hb).trans ((if_pos rfl).trans (if_pos hstep)))]
    rfl
  · obtain ⟨hnone, hmode, hcal, hbank0, hbank1⟩ := ((s.calPut none).bump R.BTJ_FLASHERR_COUNT).calEnd_shown stFLASH_WRITE 0 1 [] s.calGen
    obtain ⟨hput1, hput0⟩ := s.calPut_banks none
    have hexec := exec_calCommit hr (State.calCommit_fails hrun hc)
    generalize ((s.calPut none).bump R.BTJ_FLASHERR_COUNT).calEnd stFLASH_WRITE 0 1 [] s.calGen = u at hnone hmode hcal hbank0 hbank1 hexec
    obtain ⟨hruns, hsame, -⟩ := u.abortedToo_shown r
    exact ⟨_, hexec, hruns.calRun.trans hnone, hsame.trans hmode, hruns.cal.trans hcal,
      fun h => ⟨hruns.bank1.trans (hbank1.trans (hput1 h).1), hruns.bank0.trans (hbank0.trans (hput1 h).2)⟩,
      fun h => ⟨hruns.bank0.trans (hbank0.trans (hput0 h).1), hruns.bank1.trans (hbank1.trans (hput0 h).2)⟩⟩
  · obtain ⟨hnone, hmode, -, hbank0, hbank1⟩ := ((s.calPut (some (s.calSet r))).put R.BTJ_STAT_CAL_INTERRUPTED 0).calEnd_shown stOK 0 0
      (toBytes 4 s.calGen ++ [s.calTarget, 0, 0, 0]) s.calGen
    obtain ⟨hput1, hput0⟩ := s.calPut_banks (some (s.calSet r))
    have hexec := exec_calCommit hr (State.calCommit_succeeds hrun hc)
    generalize ((s.calPut (some (s.calSet r))).put R.BTJ_STAT_CAL_INTERRUPTED 0).calEnd stOK 0 0 (toBytes 4 s.calGen ++ [s.calTarget, 0, 0, 0]) s.calGen = u
      at hnone hmode hbank0 hbank1 hexec
    obtain ⟨hcal, hcalBank, hmode', hrun', hbank0', hbank1', hgen⟩ := u.calInForce_shown (s.calSet r) (some s.calTarget)
    generalize u.calInForce (s.calSet r) (some s.calTarget) = v at hcal hcalBank hmode' hrun' hbank0' hbank1' hgen hexec
    obtain ⟨hruns, hsame, hshown⟩ := v.abortedToo_shown r
    refine ⟨_, hexec, hruns.calRun.trans (hrun'.trans hnone), hsame.trans (hmode'.trans hmode), hruns.cal.trans hcal,
      fun h => ⟨hruns.bank1.trans (hbank1'.trans (hbank1.trans (hput1 h).1)), hruns.bank0.trans (hbank0'.trans (hbank0.trans (hput1 h).2)), ?_⟩,
      fun h => ⟨hruns.bank0.trans (hbank0'.trans (hbank0.trans (hput0 h).1)), hruns.bank1.trans (hbank1'.trans (hbank1.trans (hput0 h).2)), ?_⟩⟩
    · exact hruns.calBank.trans (hcalBank.trans (congrArg some (State.calTarget_one h)))
    · exact hshown.trans hgen
  · exact withCmd_finish (k := State.cmdCalAbort) hw (State.cmdCalAbort_none hnone)
  · exact withCmd_finish (k := State.cmdCalAbort) hw (State.cmdCalAbort_sweeping hrun hc)
  · refine ⟨_, withCmd_eq (k := State.cmdCalAbort) hw (State.cmdCalAbort_committing hrun hc), congrArg (Option.map _) hrun, fun d hd href => ?_, rfl⟩
    obtain ⟨e, -, rfl⟩ := List.mem_map.1 hd
    by_cases h : (e.ref == c.ref) = true
    · rw [if_pos h]
    · rw [if_neg h] at href
      exact absurd (beq_iff_eq.2 href) h
  · exact withCmd_finish (k := State.cmdCalStatus) hw (s.cmdCalStatus_eq c)

end Sys2Proof.Machine
